-- ==== Sys2Proof/Word.lean ====
section
/-!
DEFINITION. Word.lean: the word types, bit fields of words and of little-endian byte strings.
-/
namespace Sys2Proof

/-- One byte of memory, of a frame or of a message. -/
abbrev Byte := BitVec 8

/-- A register or a Groom general register (R20, R57): 64 bits. -/
abbrev Word := BitVec 64

/-- The field of `n` bits of `v` whose lowest bit is `lo`, as R15 writes `[lo+n-1:lo]`. -/
def bits (v lo n : Nat) : Nat := (v >>> lo) % 2 ^ n

/-- One bit of a number. -/
def bitAt (v i : Nat) : Bool := (v >>> i) % 2 == 1

/-- The number `v` with the field of `n` bits at `lo` replaced by `f` (R15). -/
def putBits (v lo n f : Nat) : Nat :=
  v - (bits v lo n) * 2 ^ lo + (f % 2 ^ n) * 2 ^ lo

/-- The field `[lo+n-1:lo]` of a register. -/
def Word.fld (w : Word) (lo n : Nat) : Nat := bits w.toNat lo n

/-- One bit of a register. -/
def Word.flag (w : Word) (i : Nat) : Bool := bitAt w.toNat i

/-- A register with one field replaced. -/
def Word.put (w : Word) (lo n f : Nat) : Word := BitVec.ofNat 64 (putBits w.toNat lo n f)

/-- The two's complement reading of an `n`-bit field. -/
def signed (n v : Nat) : Int := if 2 * (v % 2 ^ n) < 2 ^ n then (v % 2 ^ n : Nat) else (v % 2 ^ n : Nat) - (2 ^ n : Nat)

/-- The two's complement encoding of an integer in `n` bits, modulo 2^n. -/
def unsigned (n : Nat) (i : Int) : Nat := (i % ((2 ^ n : Nat) : Int)).toNat

/-- The bytes of a number, least significant first (R15). -/
def toBytes : Nat → Nat → List Byte
  | 0, _ => []
  | n + 1, v => BitVec.ofNat 8 v :: toBytes n (v / 256)

/-- The number a little-endian byte string spells (R15). -/
def fromBytes : List Byte → Nat
  | [] => 0
  | b :: bs => b.toNat + 256 * fromBytes bs

/-- A big-endian field, as network headers carry it. -/
def fromBytesBE (bs : List Byte) : Nat := bs.foldl (fun a b => a * 256 + b.toNat) 0

/-- The bytes of a number, most significant first. -/
def toBytesBE (n v : Nat) : List Byte := (toBytes n v).reverse

/-- A field of a structure held as a little-endian number: `w` bits at byte `o`, from bit `lo` of it. -/
def sfld (v o lo w : Nat) : Nat := bits v (8 * o + lo) w

/-- Rounding up to a multiple of `m`. -/
def roundUp (v m : Nat) : Nat := (v + m - 1) / m * m

/-- Division rounding up. -/
def ceilDiv (a b : Nat) : Nat := (a + b - 1) / b

/-- Element `i` of a list replaced; the list as it is where it has no such element. -/
def setAt {α : Type} (l : List α) (i : Nat) (a : α) : List α := l.set i a

/-- The numbers `0` to `n - 1`, which every count of this model ranges over. -/
def upTo (n : Nat) : List Nat := List.range n

end Sys2Proof
end

