-- ==== Sys2Proof/Syntax.lean ====
section
/-!
DEFINITION. Syntax.lean: the commands the module takes from outside, one constructor per row of the table, and what
their operands are made of.
-/
namespace Sys2Proof

/-- The two sides of the module (R23). -/
inductive SideId where
  | near
  | off
  deriving DecidableEq, Repr

/-- The other side. -/
def SideId.other : SideId → SideId
  | .near => .off
  | .off => .near

/-- What a memory access meets (R444): a corrected error, a retried transfer, an uncorrectable line, a fifth
consecutive failure, a parity failure of write data; `cut` (R33) is a transfer that a link going down cut short. -/
inductive ErrKind where
  | fix
  | retry
  | readBad
  | retryFail
  | parity
  | cut
  deriving DecidableEq, Repr

/-- An error of one line, met by a read or by a write of the command that carries it. -/
structure LineErr where
  line : Nat
  kind : ErrKind
  onWrite : Bool
  deriving DecidableEq, Repr

/-- What the surroundings of a command decide: the memory errors its accesses meet, and whether a private memory it
reads holds an uncorrectable error, or the Race queue it reads an upset. -/
structure Env where
  errs : List LineErr
  eccFetch : Bool
  eccData : Bool
  deriving DecidableEq, Repr

/-- How a frame arrived on a port with respect to MACsec (R697): unprotected, verified, failing verification, outside
the replay window. -/
inductive SecIn where
  | plain
  | good
  | bad
  | replay
  deriving DecidableEq, Repr

/-- How an RDMA operation of the side ends (R452): well, by a NAK of the host with its syndrome, or unfinished. -/
inductive RdmaEnd where
  | ok
  | nak (syndrome : Nat)
  | timeout
  deriving DecidableEq, Repr

/-- What the boot flash holds, where the host has not written it, at the place of a firmware image that passes its checks
(R681, R685). -/
structure BootImage where
  svn : Nat
  version : Nat
  digest : Nat
  load : Nat
  code : List Byte
  deriving DecidableEq, Repr

/-- A UDP datagram that a host port receives (R724 to R727): the port, whether it was sent to the global address instead of the
link-local one, its MACsec outcome, its source, and its payload. -/
structure Datagram where
  port : Nat
  toGlobal : Bool
  sec : SecIn
  src : Nat
  sport : Nat
  bytes : List Byte
  deriving DecidableEq, Repr

/-- The commands, one for each row of the table in its order. Every command names the side it happens on; its other operands are
what the row leaves to the outside. Where an operand is a register write, `level` is the privilege level of the writer. -/
inductive Instr where
  | registerWrite (sd : SideId) (level : Nat) (key : Nat) (v : Word)
  | registerReadClear (sd : SideId) (key : Nat)
  | add (sd : SideId) (g : Nat) (env : Env)
  | sub (sd : SideId) (g : Nat) (env : Env)
  | and (sd : SideId) (g : Nat) (env : Env)
  | or (sd : SideId) (g : Nat) (env : Env)
  | xor (sd : SideId) (g : Nat) (env : Env)
  | sll (sd : SideId) (g : Nat) (env : Env)
  | srl (sd : SideId) (g : Nat) (env : Env)
  | sra (sd : SideId) (g : Nat) (env : Env)
  | slt (sd : SideId) (g : Nat) (env : Env)
  | sltu (sd : SideId) (g : Nat) (env : Env)
  | mul (sd : SideId) (g : Nat) (env : Env)
  | mulh (sd : SideId) (g : Nat) (env : Env)
  | mulhu (sd : SideId) (g : Nat) (env : Env)
  | div (sd : SideId) (g : Nat) (env : Env)
  | divu (sd : SideId) (g : Nat) (env : Env)
  | rem (sd : SideId) (g : Nat) (env : Env)
  | remu (sd : SideId) (g : Nat) (env : Env)
  | amoadd (sd : SideId) (g : Nat) (env : Env)
  | amoswp (sd : SideId) (g : Nat) (env : Env)
  | amocas (sd : SideId) (g : Nat) (env : Env)
  | addi (sd : SideId) (g : Nat) (env : Env)
  | andi (sd : SideId) (g : Nat) (env : Env)
  | ori (sd : SideId) (g : Nat) (env : Env)
  | xori (sd : SideId) (g : Nat) (env : Env)
  | slti (sd : SideId) (g : Nat) (env : Env)
  | slli (sd : SideId) (g : Nat) (env : Env)
  | srli (sd : SideId) (g : Nat) (env : Env)
  | srai (sd : SideId) (g : Nat) (env : Env)
  | lui (sd : SideId) (g : Nat) (env : Env)
  | lb (sd : SideId) (g : Nat) (env : Env)
  | lh (sd : SideId) (g : Nat) (env : Env)
  | lw (sd : SideId) (g : Nat) (env : Env)
  | ld (sd : SideId) (g : Nat) (env : Env)
  | lbu (sd : SideId) (g : Nat) (env : Env)
  | lhu (sd : SideId) (g : Nat) (env : Env)
  | lwu (sd : SideId) (g : Nat) (env : Env)
  | sb (sd : SideId) (g : Nat) (env : Env)
  | sh (sd : SideId) (g : Nat) (env : Env)
  | sw (sd : SideId) (g : Nat) (env : Env)
  | sd (sd : SideId) (g : Nat) (env : Env)
  | beq (sd : SideId) (g : Nat) (env : Env)
  | bne (sd : SideId) (g : Nat) (env : Env)
  | blt (sd : SideId) (g : Nat) (env : Env)
  | bge (sd : SideId) (g : Nat) (env : Env)
  | bltu (sd : SideId) (g : Nat) (env : Env)
  | bgeu (sd : SideId) (g : Nat) (env : Env)
  | jal (sd : SideId) (g : Nat) (env : Env)
  | jalr (sd : SideId) (g : Nat) (env : Env)
  | vadd (sd : SideId) (g : Nat) (env : Env)
  | vsub (sd : SideId) (g : Nat) (env : Env)
  | vmul (sd : SideId) (g : Nat) (env : Env)
  | vfma (sd : SideId) (g : Nat) (env : Env)
  | vmin (sd : SideId) (g : Nat) (env : Env)
  | vmax (sd : SideId) (g : Nat) (env : Env)
  | vand (sd : SideId) (g : Nat) (env : Env)
  | vor (sd : SideId) (g : Nat) (env : Env)
  | vxor (sd : SideId) (g : Nat) (env : Env)
  | vsll (sd : SideId) (g : Nat) (env : Env)
  | vsra (sd : SideId) (g : Nat) (env : Env)
  | vbcast (sd : SideId) (g : Nat) (env : Env)
  | vsel (sd : SideId) (g : Nat) (env : Env)
  | vperm (sd : SideId) (g : Nat) (env : Env)
  | vredsum (sd : SideId) (g : Nat) (env : Env)
  | vcvt (sd : SideId) (g : Nat) (env : Env)
  | vld (sd : SideId) (g : Nat) (env : Env)
  | vst (sd : SideId) (g : Nat) (env : Env)
  | vcmpeq (sd : SideId) (g : Nat) (env : Env)
  | vcmplt (sd : SideId) (g : Nat) (env : Env)
  | vcmpltu (sd : SideId) (g : Nat) (env : Env)
  | pand (sd : SideId) (g : Nat) (env : Env)
  | por (sd : SideId) (g : Nat) (env : Env)
  | pnot (sd : SideId) (g : Nat) (env : Env)
  | ctlr (sd : SideId) (g : Nat) (env : Env)
  | ctlw (sd : SideId) (g : Nat) (env : Env)
  | ctlRoleWrite (sd : SideId) (g : Nat) (env : Env)
  | enq (sd : SideId) (g : Nat) (env : Env)
  | enqm (sd : SideId) (g : Nat) (env : Env)
  | qspace (sd : SideId) (g : Nat) (env : Env)
  | tsig (sd : SideId) (g : Nat) (env : Env)
  | twait (sd : SideId) (g : Nat) (env : Env)
  | twaitComplete (sd : SideId) (g : Nat)
  | tread (sd : SideId) (g : Nat) (env : Env)
  | msend (sd : SideId) (g : Nat) (env : Env)
  | messageDeliver (sd : SideId) (sender : Nat) (dest : Nat)
  | messageReturn (sd : SideId) (g : Nat)
  | mrecv (sd : SideId) (g : Nat) (env : Env)
  | merr (sd : SideId) (g : Nat) (env : Env)
  | mcount (sd : SideId) (g : Nat) (env : Env)
  | rpop (sd : SideId) (g : Nat) (env : Env)
  | rmark (sd : SideId) (g : Nat) (env : Env)
  | rrewind (sd : SideId) (g : Nat) (env : Env)
  | rrelease (sd : SideId) (g : Nat) (env : Env)
  | rcount (sd : SideId) (g : Nat) (env : Env)
  | dtime (sd : SideId) (g : Nat) (env : Env)
  | pcrd (sd : SideId) (g : Nat) (env : Env)
  | ecall (sd : SideId) (g : Nat) (env : Env)
  | eret (sd : SideId) (g : Nat) (env : Env)
  | fence (sd : SideId) (g : Nat) (env : Env)
  | fenceI (sd : SideId) (g : Nat) (env : Env)
  | wfe (sd : SideId) (g : Nat) (env : Env)
  | wfeWake (sd : SideId) (g : Nat)
  | ebreak (sd : SideId) (g : Nat) (env : Env)
  | interruptEntry (sd : SideId) (g : Nat) (src : Nat)
  | grCtrlHalt (sd : SideId) (level : Nat) (g : Nat)
  | grCtrlStart (sd : SideId) (level : Nat) (g : Nat)
  | cqTailWrite (sd : SideId) (level : Nat) (q : Nat) (v : Word)
  | cqEnable (sd : SideId) (level : Nat) (q : Nat) (v : Word)
  | cqDisable (sd : SideId) (level : Nat) (q : Nat) (v : Word)
  | cqBaseWrite (sd : SideId) (level : Nat) (q : Nat) (cpl : Bool) (v : Word)
  | commandFetch (sd : SideId) (q : Nat) (env : Env)
  | commandDispatch (sd : SideId) (unit : Nat) (inst : Nat) (errs : List LineErr := [])
  | commandCeilingStop (sd : SideId) (unit : Nat) (inst : Nat) (held : Nat) (errs : List LineErr) (mErrs : List (Nat × ErrKind))
  | commandDeadlineMissed (sd : SideId) (q : Nat)
  | teValueWrite (sd : SideId) (level : Nat) (t : Nat) (v : Word)
  | teAddWrite (sd : SideId) (level : Nat) (t : Nat) (v : Word)
  | dtNowRead (sd : SideId)
  | gptpSyncReceive (sd : SideId) (port : Nat) (valid : Bool) (jit : Int) (ref : Nat) (gm : Nat) (sec : SecIn := .good)
  | ppsEdge (sd : SideId) (jit : Int)
  | dtReferenceLost (sd : SideId)
  | dtRearm (sd : SideId) (level : Nat)
  | dtSourceChange (sd : SideId)
  | gptpSyncSend (sd : SideId) (port : Nat)
  | gptpPdelayExchange (sd : SideId) (port : Nat) (request : Bool) (t1 : Nat) (t2 : Nat) (t3 : Nat) (t4 : Nat) (sec : SecIn := .good)
  | launch (sd : SideId) (q : Nat)
  | cancel (sd : SideId) (q : Nat)
  | shadowMake (sd : SideId) (queue : Nat) (chain : Nat)
  | launchFrameBegin (sd : SideId) (queue : Nat) (chain : Nat) (jit : Int) (canNs : Nat) (lost : Bool := false) (errs : List LineErr := [])
  | launchFrameDropLate (sd : SideId) (queue : Nat) (chain : Nat) (errs : List LineErr := [])
  | watchFrameReceive (sd : SideId) (port : Nat) (bytes : List Byte) (good : Bool) (errs : List LineErr := [])
  | lgDisable (sd : SideId) (level : Nat)
  | lgRptCfgWrite (sd : SideId) (level : Nat) (v : Word)
  | csi2PacketReceive (sd : SideId) (rx : Nat) (vc : Nat) (dtype : Nat) (hdr : Nat) (crcOk : Bool) (data : List Byte) (errs : List LineErr := [])
  | ethFrameReceive (sd : SideId) (port : Nat) (bytes : List Byte) (fcsOk : Bool) (sec : SecIn) (jit : Int) (errs : List LineErr := [])
  | canFrameReceive (sd : SideId) (bus : Nat) (kind : Nat) (ident : Nat) (ide : Bool) (fdf : Bool) (brs : Bool) (esi : Bool) (dlc : Nat) (data : List Byte) (jit : Int) (took : Nat := 0) (errs : List LineErr := [])
  | spiDataReady (sd : SideId) (bus : Nat) (jit : Int)
  | spiTransferComplete (sd : SideId) (bus : Nat) (data : List Byte) (errs : List LineErr := [])
  | racePacketReadable (sd : SideId) (slot : Nat)
  | cameraTriggerPulse (sd : SideId) (rx : Nat)
  | cameraTriggerEnd (sd : SideId) (rx : Nat)
  | ingressStreamEnable (sd : SideId) (level : Nat) (slot : Nat) (v : Word)
  | ingressStreamDisable (sd : SideId) (level : Nat) (slot : Nat) (v : Word)
  | landingReleaseWrite (sd : SideId) (level : Nat) (slot : Nat) (v : Word)
  | aphyLinkChange (sd : SideId) (rx : Nat) (lock : Bool) (gear : Nat)
  | trPost (sd : SideId) (env : Env)
  | transitClose (sd : SideId) (errs : List LineErr := [])
  | transitRevision (sd : SideId) (errs : List LineErr := [])
  | transitEnable (sd : SideId) (level : Nat) (v : Word)
  | transitStreamEnable (sd : SideId) (level : Nat) (slot : Nat) (v : Word)
  | gaitStep (sd : SideId) (errs : List LineErr := [])
  | gtCorr (sd : SideId) (env : Env)
  | gaitEnable (sd : SideId) (level : Nat) (v : Word)
  | plOpen (sd : SideId) (env : Env)
  | plIngest (sd : SideId) (env : Env) (tabErrs : List Nat)
  | plClose (sd : SideId) (env : Env)
  | plSort (sd : SideId) (env : Env)
  | plMerge (sd : SideId) (env : Env)
  | plPillar (sd : SideId) (env : Env)
  | plRules (sd : SideId) (env : Env)
  | pillarEnable (sd : SideId) (level : Nat) (v : Word)
  | ptPaint (sd : SideId) (env : Env)
  | ptBlank (sd : SideId) (env : Env)
  | ptSeal (sd : SideId) (env : Env)
  | halfGridReceive (sd : SideId) (got : Nat) (errs : List LineErr := [])
  | trackListReceive (sd : SideId) (got : Nat) (errs : List LineErr := [])
  | platMerge (sd : SideId) (took : Nat) (errs : List LineErr := [])
  | platPublish (sd : SideId) (errs : List LineErr := [])
  | platEnable (sd : SideId) (level : Nat) (v : Word)
  | drStage (sd : SideId) (inst : Nat) (env : Env) (mErrs : List (Nat × ErrKind))
  | drGemm (sd : SideId) (inst : Nat) (env : Env) (mErrs : List (Nat × ErrKind)) (faults : List (Nat × Nat × Nat × Nat × Bool))
  | drSpconv (sd : SideId) (inst : Nat) (env : Env) (mErrs : List (Nat × ErrKind)) (faults : List (Nat × Nat × Nat × Nat × Bool))
  | rlCopy (sd : SideId) (inst : Nat) (env : Env)
  | rlFill (sd : SideId) (inst : Nat) (env : Env)
  | ntMapWrite (sd : SideId) (level : Nat) (v : Word)
  | ftScrubRead (sd : SideId) (err : Option ErrKind)
  | stackRateChange (sd : SideId) (stack : Nat)
  | rcRead (sd : SideId) (qp : Nat) (env : Env) (e : RdmaEnd) (data : List Byte)
  | rcWrite (sd : SideId) (qp : Nat) (env : Env) (e : RdmaEnd) (got : Nat)
  | orAppend (sd : SideId) (inst : Nat) (env : Env)
  | orMove (sd : SideId) (inst : Nat) (env : Env) (fail : Option (Nat × RdmaEnd × Nat)) (data : List Byte)
  | orRelease (sd : SideId) (inst : Nat) (env : Env)
  | orFlush (sd : SideId) (inst : Nat) (env : Env)
  | orNpush (sd : SideId) (level : Nat) (inst : Nat) (cls : Nat) (v : Word)
  | orFpush (sd : SideId) (level : Nat) (inst : Nat) (cls : Nat) (v : Word)
  | outriderEnable (sd : SideId) (level : Nat) (inst : Nat) (v : Word)
  | stDecode (sd : SideId) (inst : Nat) (env : Env) (faults : List (Nat × Bool × Nat × Nat)) (sram : List (Nat × Bool))
  | stRetrieve (sd : SideId) (inst : Nat) (env : Env)
  | cqRagged (sd : SideId) (env : Env)
  | tvOpen (sd : SideId) (env : Env)
  | tvMap (sd : SideId) (env : Env)
  | tvGrow (sd : SideId) (env : Env)
  | tvSearch (sd : SideId) (env : Env) (durs : List Nat) (more : Bool)
  | tvPace (sd : SideId) (env : Env)
  | tvStopUpdate (sd : SideId) (errs : List LineErr := [])
  | traverseEnable (sd : SideId) (level : Nat) (v : Word)
  | brBind (sd : SideId) (env : Env)
  | brSolve (sd : SideId) (env : Env) (setup : Nat) (pieces : List Nat)
  | brSolveDeadline (sd : SideId) (errs : List LineErr := [])
  | brSlotPoison (sd : SideId) (slot : Nat)
  | bridleEnable (sd : SideId) (level : Nat) (v : Word)
  | frameBoundary (sd : SideId)
  | enginePowerOff (sd : SideId) (unit : Nat) (inst : Nat)
  | enginePowerOn (sd : SideId) (unit : Nat) (inst : Nat)
  | groomClockChange (sd : SideId)
  | trotPackFetch (sd : SideId) (unit : Nat) (inst : Nat) (errs : List LineErr := [])
  | trotUpStart (sd : SideId) (unit : Nat) (inst : Nat)
  | trotUpResult (sd : SideId) (unit : Nat) (inst : Nat) (diff : Nat) (bad : List Nat)
  | trotUpUndecided (sd : SideId) (unit : Nat) (inst : Nat)
  | controlPeriodBoundary (sd : SideId)
  | timeCompareReceive (sd : SideId) (poison : Bool)
  | heartbeatSend (sd : SideId)
  | heartbeatReceive (sd : SideId)
  | peerLostTimeout (sd : SideId)
  | peerEventReceive (sd : SideId)
  | barnastanFlitReceive (sd : SideId) (n : Nat) (replays : Nat)
  | barnastanLinkDown (sd : SideId) (n : Nat) (begun : List (Nat × Nat)) (begunBack : List (Nat × Nat))
  | barnastanLinkUp (sd : SideId) (n : Nat)
  | stewardEventHandle (sd : SideId) (errs : List LineErr := [])
  | withdrawalEffect (sd : SideId) (unit : Nat) (inst : Nat)
  | monitorTrip (sd : SideId) (code : Nat)
  | stewardSelfCheckFail (sd : SideId) (watchdog : Bool)
  | leadMissCheck (sd : SideId) (c : Nat)
  | swArm (sd : SideId) (level : Nat)
  | swSilence (sd : SideId) (level : Nat)
  | sideLeaveStart (sd : SideId)
  | swVerdictWrite (sd : SideId) (level : Nat) (v : Word)
  | sideRestart (sd : SideId) (split : Nat)
  | fsRecordWrite (sd : SideId) (die : Int) (stack : Int) (far : Int) (v48 : Nat) (core : Nat) (io : Nat) (errs : List LineErr := [])
  | tpBaseWrite (sd : SideId) (level : Nat) (a : Nat) (v : Word)
  | pmTagRecord (sd : SideId) (m : Nat) (cycles : Nat) (errs : List LineErr := [])
  | pmDumpLatch (sd : SideId)
  | pmDumpWrite (sd : SideId) (errs : List LineErr := [])
  | kpVreq (sd : SideId) (level : Nat) (v : Word)
  | kpVerifyEnd (sd : SideId) (errs : List LineErr := [])
  | kpRoll (sd : SideId) (level : Nat) (v : Word)
  | kpQreq (sd : SideId) (level : Nat) (v : Word)
  | kpQuoteWrite (sd : SideId) (errs : List LineErr := [])
  | kpOwnerCheck (sd : SideId) (level : Nat) (v : Word)
  | kpDebugToken (sd : SideId) (level : Nat) (v : Word)
  | kpHobble (sd : SideId) (level : Nat) (v : Word)
  | mkaSakInstall (sd : SideId) (port : Nat) (sak : Nat)
  | debugAgentDatagram (sd : SideId) (d : Datagram)
  | pwReqWrite (sd : SideId) (level : Nat) (v : Word)
  | thermalSample (sd : SideId) (dies : List Int) (stackTemps : List Int) (far : List Int) (inlet : Int)
  | regRead (sd : SideId) (d : Datagram)
  | regWrite (sd : SideId) (d : Datagram)
  | memRead (sd : SideId) (d : Datagram) (errs : List LineErr := [])
  | memWrite (sd : SideId) (d : Datagram) (errs : List LineErr := [])
  | mrOpen (sd : SideId) (d : Datagram)
  | mrClose (sd : SideId) (d : Datagram)
  | qpSetup (sd : SideId) (d : Datagram)
  | qpReset (sd : SideId) (d : Datagram) (got : Nat) (data : List Byte)
  | subscribe (sd : SideId) (d : Datagram)
  | unsubscribe (sd : SideId) (d : Datagram)
  | deliver (sd : SideId) (sub : Nat) (ok : Bool) (errs : List LineErr := [])
  | flashWrite (sd : SideId) (d : Datagram)
  | certRead (sd : SideId) (d : Datagram)
  | cakSet (sd : SideId) (d : Datagram)
  | recoverDone (sd : SideId) (d : Datagram)
  | rdmaInboundRead (sd : SideId) (qp : Nat) (port : Nat) (rkey : Nat) (va : Nat) (len : Nat) (sec : SecIn := .good) (errs : List LineErr := [])
  | rdmaInboundWrite (sd : SideId) (qp : Nat) (port : Nat) (rkey : Nat) (va : Nat) (data : List Byte) (sec : SecIn := .good) (errs : List LineErr := [])
  | rdmaAckTimeout (sd : SideId) (qp : Nat)
  | icmpv6Receive (sd : SideId) (port : Nat) (toGlobal : Bool) (sec : SecIn) (src : Nat) (msg : List Byte)
  | sideResetAssert (sd : SideId) (lowNs : Nat) (cut : Option (Nat × Nat) := none)
  | sideResetRelease (sd : SideId) (images : List (Option BootImage)) (split : Nat)
  | powerUp (sd : SideId)
  | powerOff (sd : SideId) (cut : Option (Nat × Nat) := none)
  | railFaultReset (sd : SideId) (cut : Option (Nat × Nat) := none)
  | phyLinkChange (sd : SideId) (port : Nat) (up : Bool)
  | canBusOffRecovery (sd : SideId) (bus : Nat)
  | tapAccess (sd : SideId) (tms : Bool) (tdi : Bool) (trst : Bool)
  | railRecovery (sd : SideId)
  | bestMasterClockAlgorithm (sd : SideId) (port : Nat) (vector : Nat) (sec : SecIn := .good)
  | errorCheckAndScrub (sd : SideId) (stack : Nat) (fixed : Bool)
  deriving DecidableEq, Repr

end Sys2Proof
end

