-- ==== Sys2Proof/Decode.lean ====
section
/-!
DEFINITION. Decode.lean: the command that a word spells. The table of this block gives no row any bits; what the words of the
Grooms spell is decoded in Machine/Valzel.lean.
-/
namespace Sys2Proof

/-- The command that a word of the table's bits spells: none, since the table gives no bits. -/
def decodeTableWord (_nbits _w : Nat) : Option Instr := none

end Sys2Proof
end

