-- ==== Sys2Proof/Config.lean ====
section
/-!
DEFINITION. Config.lean: what an implementation fixes (its fuses and keys) and the free values. None has a body, so
nothing can be proved of a value.
-/
namespace Sys2Proof

/-- Station address of a launch port of a side, from fuses (R741). -/
opaque Config.fuseMac : Nat → Nat → Nat

/-- The 16 B DEVICE fuse, equal on both sides (R678). -/
opaque Config.fuseDevice : Nat

/-- A free yes or no, by draw: which way the machine goes where the manual lets it go either way. -/
opaque Config.freeBool : Nat → Bool

/-- A free number, by draw. -/
opaque Config.freeNat : Nat → Nat


/-- The clockIdentity of a side (IEEE 802.1AS-2020 8.5.2.2), 64 bits, which no register shows (R185). -/
opaque Config.clockIdentity : Nat → Nat

/-- The gPTP priority vector of a side as a grandmaster (IEEE 802.1AS-2020 10.3), which no register sets (R185). -/
opaque Config.ownPriority : Nat → Nat

/-- Which of the two possible lanes VMIN or VMAX writes where R71 and R72 do not say: one operand NaN, or two zeros of different sign.
The arguments are the element type, whether it is VMAX, and the lanes. -/
opaque Config.minMaxOpen : Nat → Bool → Nat → Nat → Bool

/-- The offset of a sine (0), cosine (1), tangent (2) or arctangent (3) from the exact value rounded to FP64, by the codes of its
arguments (R278, R285, R340, R551, R565); at most 2 units in the last place are taken of it. -/
opaque Config.trigUlp : Nat → Nat → Nat → Nat

/-- Sine of an FP64 code of a magnitude of 2^64 or more (R278, R340, R551). -/
opaque Config.sin64 : Nat → Nat

/-- Cosine of an FP64 code of a magnitude of 2^64 or more. -/
opaque Config.cos64 : Nat → Nat

/-- Tangent of an FP64 code of a magnitude of 2^64 or more. -/
opaque Config.tan64 : Nat → Nat

/-- The angle of the point of two FP64 codes where both are zero or one is infinite. -/
opaque Config.atan2 : Nat → Nat → Nat

/-- The units in the last place by which a component of R259 departs from the exactly rounded value. -/
opaque Config.slerpUlp : Nat → Nat → Nat

/-- The units in the last place by which S of a Vet check, accumulated in FP32 rounded toward +∞ in no stated order (R405),
lies above its exact value so rounded, by its terms. -/
opaque Config.vetSlack : List Nat → Nat

/-- What the Vet records of a disagreement of the duplicated output conversion (R383), for which no DELTA or BOUND is
stated. -/
opaque Config.vetConversion : Nat → Nat

/-- The word that a quotient 0/0 of a zero pivot leaves in L or W (R585, R605), by column and row. -/
opaque Config.zeroPivot : Nat → Nat → Nat

/-- The Ed448 identity public key of a side, 57 B (R679), by side. -/
opaque Config.idPub : Nat → Nat

/-- What a 4 B field of Traverse holds of a time of 2^32 ns or more (R565, R575), which does not fit it. -/
opaque Config.lateOffset : Nat → Nat

/-- An Ed448 signature of 114 B with the identity key of a side (R653, R695): the side, whether the context is "CJAQ" instead of
"CJFS", and the bytes signed. -/
opaque Config.sign : Nat → Bool → List Byte → Nat

/-- Whether an Ed448 signature over a 64 B digest holds with context "CJIM" (R682): the owner key where the signer is the owner,
the digest, the signature. -/
opaque Config.sealOk : Option Nat → Nat → Nat → Bool

/-- Whether an unlock token's signature holds for the owner key written or the root key with context "CJDB" (R701). -/
opaque Config.tokenOk : Nat → Nat → Nat → Bool

/-- The device certificate of a side (R679, R732): its bytes. -/
opaque Config.certificate : Nat → List Byte

/-- The length of the TAP instruction register and the code of IDCODE (R700), which the manual does not give. -/
opaque Config.tapIrLen : Nat

@[inherit_doc Config.tapIrLen] opaque Config.tapIdcodeCode : Nat

/-- The 32-bit IDCODE of a side (R700). -/
opaque Config.tapIdcode : Nat → Nat

/-- What the data register of another TAP instruction captures, by instruction and draw (R700). -/
opaque Config.tapScan : Nat → Nat → List Bool

end Sys2Proof
end

