-- ==== Sys2Proof/Machine/State.lean ====
section
/-!
DEFINITION. Machine/State.lean: the machine's state as plain data, its reasons to stop, and the state after reset.
-/
namespace Sys2Proof.Machine

/-- The three parts (R1). -/
inductive Part where
  | cjm7480
  | cjm7460
  | cjm7420
  deriving DecidableEq, Repr

/-- One row of the register map: where a register stands, which of its bits have each access type (R19), and its
reset value. Bits of no mask are reserved (R16, R18). -/
structure RegSpec where
  name : String
  instLo : Nat
  instHi : Nat
  base : Nat
  stride : Nat
  count : Nat
  rw : Nat
  wo : Nat
  w1c : Nat
  w1s : Nat
  rc : Nat
  ro : Nat
  reset : Nat
  deriving DecidableEq, Repr

/-- A memory: the bytes that differ from 0x00 at rising addresses, and the numbers of the poisoned 64 B lines in
rising order (R443). -/
structure Store where
  cells : List (Nat × Byte)
  bad : List Nat
  deriving DecidableEq, Repr

/-- What a Groom is blocked in (R82, R91). `met` latches that the tether reached its target in time (R82). -/
inductive GWait where
  | none
  | twait (rd tether target deadline : Nat) (met : Bool)
  | wfe
  deriving DecidableEq, Repr

/-- A Groom core (R57, R104). `stale` holds the words its stores have replaced since its last FENCE.I, with their old
value (R116); `lastDt` is the last reading of its copy of Datum time, in 2^-16 ns (R171). -/
structure Groom where
  x : List Word
  v : List (BitVec 512)
  p : List Word
  pc : Nat
  ctl : List (Nat × Word)
  lmem : List (Nat × Byte)
  halted : Bool
  cause : Nat
  wait : GWait
  stale : List (Nat × Nat)
  sendQ : List (BitVec 512)
  recvQ : List (BitVec 512)
  errQ : List (BitVec 512)
  lastRole : Option Nat
  lastDt : Nat
  deriving DecidableEq, Repr

/-- A structure that admission read from memory (R126): its device address, its bytes as a little-endian number. -/
structure Block where
  addr : Nat
  len : Nat
  val : Nat
  deriving DecidableEq, Repr

/-- A command from its admission to its completion record (R144). `slots` is N of its queue at its fetch; `fetched` and
`readyAt` are the times of its fetch and of its becoming ready (R671), `mode` the mode it was checked in (R139, R140). -/
structure Op where
  queue : Nat
  chain : Nat
  cls : Nat
  slots : Nat
  cmd : Nat
  blocks : List Block
  worst : Nat
  waitMet : Bool
  run : Option (Nat × Nat)
  capped : Bool
  resv : Nat
  pages : List Nat
  parent : Option (Nat × Nat × Nat)
  fetched : Nat
  readyAt : Option Nat
  mode : Nat
  deriving DecidableEq, Repr

/-- Datum time (R167 to R189). `acc` counts units of 2^-48 ns below one nanosecond; `prev` is the counter before the
last reference cycle; `srcAt` when the SOURCE in force took effect (R184); `bestAt` and `capable` when the best announce and, by
port, the last completed path delay exchange were (R185). -/
structure Datum where
  ns : Nat
  acc : Nat
  prev : Nat
  pendStep : Option Nat
  src : Nat
  run : Nat
  lastRef : Option (Nat × Nat)
  gm : Nat
  steppedFrom : Nat
  roles : List (Nat × Nat)
  best : Option (Nat × Nat)
  linkDelay : List (Nat × Nat)
  lastSent : List (Nat × Nat)
  lastRx : Nat
  lastRxSend : Nat
  gotRx : Bool
  cPhase : Nat
  cPeriod : Nat
  lastC : Nat
  syncSeq : Nat
  srcAt : Nat
  bestAt : Nat
  capable : List (Nat × Nat)
  deriving DecidableEq, Repr

/-- A frame in the Launch gate's frame store (R192 to R201); `uid` tells it from every other since reset. -/
structure LFrame where
  uid : Nat
  queue : Nat
  chain : Nat
  tl : Nat
  image : List Byte
  port : Nat
  dual : Bool
  report : Bool
  matchOff : Nat
  matchLen : Nat
  watch : Nat
  tag : Nat
  started : Bool
  startNs : Nat
  order : Nat
  sched : Nat
  shadow : Bool
  judged : Bool
  deriving DecidableEq, Repr

/-- A whole good frame received on a watched port (R202). -/
structure Kept where
  port : Nat
  time : Nat
  bytes : List Byte
  deriving DecidableEq, Repr

/-- The Launch gate beside its registers. `leadAt` is the time of the last change of LEAD; `duals` are the DUAL frames
admitted, by T_L, with their port and whether one was sent with outcome 0 or 1 (R646); `dualPorts` the ports of such
frames since reset; `nextUid` names the next frame, and `tec` is each CAN bus's transmit error count (ISO 11898-1). -/
structure Launch where
  frames : List LFrame
  nextOrder : Nat
  kept : List Kept
  busy : List (Nat × Nat)
  leadAt : Nat
  duals : List (Nat × Nat × Bool)
  dualPorts : List Nat
  nextUid : Nat
  tec : List (Nat × Nat)
  deriving DecidableEq, Repr

/-- A message of the cross link (R40): its class, the validity time it carries, its bytes, and the offsets of those that are
poisoned. -/
structure XMsg where
  cls : Nat
  time : Nat
  bytes : List Byte
  bad : List Nat
  deriving DecidableEq, Repr

/-- A frame or datagram the side has sent: the port (14 and 15 stand for the SPI buses), the Datum time, the end of its time on the wire, whether it was
ended with an error (R204), and the bytes. The model's own field. -/
structure Sent where
  port : Nat
  time : Nat
  till : Nat
  cut : Bool
  bytes : List Byte
  deriving DecidableEq, Repr

/-- A Steward event waiting to be handled (R628 to R630). `flags` are bits [3:0] of byte 12 of its entry set when it was
raised; `cmd` the chain number and the queue of the command concerned; `pattern` the pack version and pattern of key 8 of R654. -/
structure SEvent where
  time : Nat
  code : Nat
  unit : Nat
  inst : Nat
  cmd : Option (Nat × Nat)
  detail : Nat
  flags : Nat
  pattern : Option (Nat × Nat)
  deriving DecidableEq, Repr


/-- An extent that agents other than `owner` may not write (R291, R343, R660, R693), nor read where `noRead` (R291).
`key` names the unit's reason, so that it can be lifted; it holds until `till` where that is given. -/
structure Guard where
  key : Nat
  lo : Nat
  hi : Nat
  owner : Nat
  noRead : Bool
  till : Option Nat
  deriving DecidableEq, Repr

/-- The power manager beside its registers (R712 to R717). Credits are in units of 0.25 ns; `rateQ` are the stacks still to
change rate, the first the one that pauses; `clock` is the mode whose Groom clock is in force; `lastAt` the last effect
boundary; `pwrGood` and `resetLow` are the pins PWR_GOOD (released) and SIDE_RESET_N (held low). -/
structure Power where
  credits : List Int
  lastFall : Option Nat
  lastRise : Option Nat
  coolSince : Option Nat
  lastSample : Nat
  leaving : List (Nat × Nat)
  gaining : List (Nat × Nat)
  rateQ : List Nat
  clock : Nat
  lastAt : Nat
  pwrGood : Bool
  resetLow : Bool
  deriving DecidableEq, Repr

/-- A reply kept by a host port (R730). -/
structure KeptReply where
  port : Nat
  src : Nat
  sport : Nat
  seq : Nat
  reply : List Byte
  deriving DecidableEq, Repr

/-- An active subscription (R736, R737). -/
structure Sub where
  id : Nat
  rdma : Bool
  trigReg : Bool
  tether : Nat
  slotBytes : Nat
  ring : Nat
  size : Nat
  qp : Nat
  hsize : Nat
  first : Nat
  countReg : Nat
  hostVa : Nat
  rkey : Nat
  v0 : Nat
  sent : Nat
  port : Nat
  dst : Nat
  dport : Nat
  deriving DecidableEq, Repr

/-- A queue pair's connection (R734). -/
structure QPair where
  pmtu : Nat
  peerQpn : Nat
  sqPsn : Nat
  rqPsn : Nat
  gid : Nat
  retries : Nat
  port : Nat
  deriving DecidableEq, Repr

/-- The host agent (R724 to R740). Flash bytes are held as the complement of their content, so that an erased byte
(0xFF) is an unlisted one; `touched` are the banks and sectors written since manufacture, `torn` those left partly written by a reset
(R751). -/
structure HostAgent where
  replies : List KeptReply
  subs : List Sub
  qps : List QPair
  mrKeys : List Nat
  flash : List (List (Nat × Byte))
  touched : List (Nat × Nat)
  torn : List (Nat × Nat)
  deriving DecidableEq, Repr

/-- What a side as a whole is doing (R686, R688, R750 to R755). -/
inductive Phase where
  | off
  | held
  | boot
  | recovery
  | nofw
  | up
  deriving DecidableEq, Repr

/-- One word of a Race queue (R235, R242): 256 bits, an even-parity bit for each of its bytes, the three copies of its tag (the
count of valid bytes, and its end mark in bit 8), and whether it was written from a poisoned byte. -/
structure RaceWord where
  data : Nat
  parity : Nat
  tags : Nat × Nat × Nat
  bad : Bool
  deriving DecidableEq, Repr

/-- A whole packet in the chain that has not become readable: its words, and the landing count after it. -/
structure RacePend where
  words : Nat
  write : Option Nat
  deriving DecidableEq, Repr

/-- A sample in progress (R217, R225): its chain number, stamps, bytes with their poison and flags; `start` is the landing count of
its first byte (R232). -/
structure Sample where
  chain : Nat
  stamp : Nat
  bytes : List (Byte × Bool)
  noStamp : Bool
  lineLost : Bool
  embedded : Bool
  start : Option Nat
  deriving DecidableEq, Repr

/-- An ingress stream slot (R213 to R242). `readable` words of `words` are readable and `pos` of them popped; `head` is
the landing count after the last whole sample; `since` is the time of its last enabling, `gen` the number of its enablings, and
`spans` the recent times from and to which it was enabled before, with its IN_SCFG and the register its KIND matches by (R219). -/
structure Slot where
  words : List RaceWord
  readable : Nat
  pos : Nat
  mark : Option Nat
  pend : List RacePend
  prog : Option Sample
  disc : Nat
  head : Nat
  since : Nat
  gen : Nat
  spans : List (Nat × Nat × Nat × Nat)
  deriving DecidableEq, Repr

/-- An A-PHY receiver's trigger output (R223): its driving slot, the enabling it drives by, and the PERIOD and PHASE in force, the last pulse, and
the level of GPIO 0. -/
structure Trigger where
  drv : Option (Nat × Nat × Nat × Nat)
  pulse : Option Nat
  high : Bool
  deriving DecidableEq, Repr

/-- The ingress beside its registers; `spi` is the slot whose transfer is in progress on each bus, with its enabling. -/
structure Ingress where
  slots : List Slot
  trig : List Trigger
  spi : List (Option (Nat × Nat))
  deriving DecidableEq, Repr

/-- An empty slot. -/
def Slot.reset : Slot := ⟨[], 0, 0, none, [], none, 0, 0, 0, 0, []⟩
/-- A pose (R281, R282): its source, position (FP64 codes), orientation, velocity and body rate (FP32 codes). -/
structure Pose where
  src : Nat
  pos : List Nat
  q : List Nat
  vel : List Nat
  rate : List Nat
  deriving DecidableEq, Repr


/-- What Transit learns of a sample from its ingress prefix (R250), and the values posted for it (R251). `avail` is its
availability time (R247). -/
structure TrSample where
  stamp : Nat
  arrival : Nat
  avail : Nat
  chain : Nat
  landPos : Nat
  len : Nat
  poison : Bool
  noStamp : Bool
  vals : List Nat
  deriving DecidableEq, Repr

/-- A Transit stream: its kept samples by rising stamp (R255), the prefixes of the last 256 samples delivered on the slot
(R254), the chains whose values are stored, its changes of state (R273), and the latest available chain (R262). -/
structure TrStream where
  kept : List TrSample
  recent : List TrSample
  posted : List Nat
  hist : List (Nat × Nat)
  lastChain : Option Nat
  deriving DecidableEq, Repr

/-- The entry of a stream in a record (R262) before its encoding. -/
structure TrEntry where
  slot : Nat
  method : Nat
  chainA : Nat
  chainB : Nat
  stampA : Nat
  stampB : Nat
  poison : Bool
  revised : Bool
  noSample : Bool
  nchan : Nat
  chainLast : Nat
  oldest : Option Nat
  vals : List Byte
  deriving DecidableEq, Repr

/-- A closed frame: the latest record for it (R264 to R266). -/
structure TrFrame where
  validity : Nat
  close : Nat
  rev : Nat
  entries : List TrEntry
  ego : List Byte
  deriving DecidableEq, Repr

/-- A revision decided and not yet written: the frame as revised, and t_L. -/
structure TrRevision where
  frame : TrFrame
  decided : Nat
  slot : Nat
  deriving DecidableEq, Repr

/-- Transit beside its registers: its streams, the next frame to close (R249), the closed frames and the revisions to
write; `due` are the records decided at close and not yet written (R248). -/
structure Transit where
  streams : List TrStream
  next : Nat
  closed : List TrFrame
  revs : List TrRevision
  due : List TrFrame
  deriving DecidableEq, Repr

/-- An empty stream. -/
def TrStream.reset : TrStream := ⟨[], [], [], [], none⟩

/-- The usable inputs of one Gait step, with their CHAIN_B (R276, R277). -/
structure GaitCut where
  imu : Option (List Nat × Nat)
  wheels : List (List Nat × Nat)
  steer : Option (List Nat × Nat)
  deriving DecidableEq, Repr

/-- Gait beside its registers (R278 to R280): position, velocity and orientation as FP64 codes, the body rate, the last
SOURCE, the run of steps without a source, whether a correction waits, the next step, the first since enable, GPHASE and GPERIOD at
enable, by which the records of the ring are dated, and the inputs of the steps cut and not yet taken (R275). -/
structure Gait where
  p : List Nat
  v : List Nat
  q : List Nat
  w : List Nat
  src : Nat
  lost : Nat
  corr : Bool
  nextK : Nat
  firstK : Nat
  phase : Nat
  per : Nat
  cuts : List GaitCut
  deriving DecidableEq, Repr

/-- A cell of the Pillar voxel table (R311 to R313): its key, ordinal and the point that holds it. `d2` is an FP64 code. -/
structure PlCell where
  key : Nat
  ord : Nat
  row : Nat
  stamp : Int
  d2 : Nat
  stream : Nat
  chain : Nat
  pos : Nat
  deriving DecidableEq, Repr

/-- The counters of an open frame (R308, R317). -/
structure PlCounts where
  accepted : Nat
  voxels : Nat
  thinned : Nat
  dropped : Nat
  lost : Nat
  empty : Nat
  outWindow : Nat
  filtered : Nat
  outGrid : Nat
  undeskewed : Nat
  badPkt : Nat
  truncPkt : Nat
  poisonPkt : Nat
  tableErr : Nat
  deriving DecidableEq, Repr

/-- The open Pillar frame (R290 to R317): what PL_OPEN latched, its voxel table by entry (the spill list from 2^21 on),
the entries found uncorrectable (R314), its counters, and per slot the points beyond THIN_MM (R308). -/
structure PlFrame where
  t : Nat
  pts : Nat
  vox : Nat
  cap : Nat
  um : Nat
  slice : Nat
  past : Nat
  future : Nat
  minMm : Nat
  maxMm : Nat
  thinMm : Nat
  pose : Option Pose
  table : List (Nat × PlCell)
  badEntries : List Nat
  c : PlCounts
  first : List (Option (Int × Nat))
  egoMin : Nat
  streams : Nat
  lame : Nat
  stamps : Option (Int × Int)
  thinning : Bool
  far : List (Nat × Nat)
  deriving DecidableEq, Repr

/-- An own half sealed (R346): its validity time, when it was sealed, its 512 B header as a number. -/
structure PtSeal where
  t : Nat
  sealedAt : Nat
  header : Nat
  deriving DecidableEq, Repr

/-- A peer half received (R350, R351): its validity time, when it was whole, its header, and whether it was poisoned. -/
structure PtHalf where
  t : Nat
  at_ : Nat
  header : Nat
  bad : Bool
  deriving DecidableEq, Repr

/-- A peer track list received: its validity time, when it was whole, its tracks and whether it was poisoned. -/
structure PtTracks where
  t : Nat
  at_ : Nat
  count : Nat
  bad : Bool
  deriving DecidableEq, Repr

/-- A merge whose record is to be published (R358): the record's header as a number and the time PUBLISHED. -/
structure PtRecord where
  epoch : Nat
  header : List Byte
  published : Nat
  drop : Nat
  deriving DecidableEq, Repr

/-- A Traverse query's pin on a published epoch (R362). -/
structure PtPin where
  query : Nat
  epoch : Nat
  revoked : Bool
  deriving DecidableEq, Repr

/-- The Plat beside its registers: the next frame to merge, the halves at hand, the record to publish, the pins, and the
validity times from which the side merges alone and merges the peer's halves again (R45), the frame last merged with the end of its
merge (R343), and the validity time of the half last discarded (R43). -/
structure Plat where
  next : Nat
  seals : List PtSeal
  halves : List PtHalf
  tracks : List PtTracks
  record : Option PtRecord
  pins : List PtPin
  alone : Option Nat
  join : Option Nat
  merged : Option (Nat × Nat)
  late : Option Nat
  deriving DecidableEq, Repr

/-- The Manger of a Draft engine (R384, R385): its bytes, and its poisoned lines: those listed where `rest` is false, all
but those listed where it is true. -/
structure Manger where
  cells : List (Nat × Byte)
  lines : List Nat
  rest : Bool
  deriving DecidableEq, Repr

/-- A level-2 entry held in the Tally (R466). -/
structure TallyEntry where
  seq : Nat
  vpn : Nat
  entry : Nat
  deriving DecidableEq, Repr

/-- A near-tier page freed while commands that translated before still run (R471): its class, its address, and those
commands by queue and chain. -/
structure HeldPage where
  cls : Nat
  page : Nat
  readers : List (Nat × Nat)
  deriving DecidableEq, Repr

/-- The poppable pages of one class, oldest first (R468 to R471), and how many entries have been written to the storage of
each ring since the Outrider was enabled (R493). -/
structure OrRings where
  near : List Nat
  far : List Nat
  nearAt : Nat
  farAt : Nat
  deriving DecidableEq, Repr

/-- Rings without a page. -/
def OrRings.empty : OrRings := ⟨[], [], 0, 0⟩

/-- An Outrider beside its registers. The Tally's most recently used entry comes first. -/
structure Outrider where
  rings : List OrRings
  held : List HeldPage
  tally : List TallyEntry
  deriving DecidableEq, Repr
/-- A Traverse query (R541 to R561): its serial, whether it runs, its outcome, its 128 B parameter block as a number, the
pinned epoch with the grid its header gives, the rows copied (first and count), the Paddock in the order of R557, and its
counters. -/
structure TvQuery where
  serial : Nat
  running : Bool
  outcome : Nat
  block : Nat
  epoch : Nat
  validity : Nat
  geom : Nat
  origin : Nat
  sliceMs : Nat
  rows : List (Nat × Nat)
  paddock : List (Nat × Nat)
  rounds : Nat
  settled : Nat
  checked : Nat
  blocked : Nat
  depthCut : Nat
  poison : Nat
  deriving DecidableEq, Repr

/-- Traverse beside its registers: the query since enable, the last serial, the parameter block of the last query opened since
enable (R578), the epochs published that a stop is still due for, with their PUBLISHED (R577), and the counts of plans and of stops
published, of which TV_SEQ shows the low 32 bits (R576, R580). -/
structure Traverse where
  query : Option TvQuery
  serial : Nat
  foot : Option Nat
  stops : List (Nat × Nat)
  planSeq : Nat
  stopSeq : Nat
  deriving DecidableEq, Repr

/-- A factor of the KKT matrix (R605): the columns of L as row and word, the pivots, the ρ exponent and σ word it was made
with. -/
structure BrFactor where
  l : List (List (Nat × Int))
  d : List Int
  k : Int
  sigma : Int
  deriving DecidableEq, Repr

/-- A structure bound into a Bridle slot (R588 to R593): its header, pattern sections, exponents, the values in force, the
resident iterate, ρ and the factor. Patterns are triples of row, column and index. -/
structure BrSlot where
  sig : Nat
  sched : Nat
  n : Nat
  m : Nat
  work : Nat
  factorNs : Nat
  iterNs : Nat
  exps : List Int
  perm : List Nat
  signs : List Bool
  p : List (Nat × Nat)
  a : List (Nat × Nat)
  kkt : List (List (Nat × Nat))
  lpat : List (List Nat)
  q : List Int
  lo : List Int
  hi : List Int
  pv : List Int
  av : List Int
  x : List Int
  z : List Int
  y : List Int
  k : Int
  factor : Option BrFactor
  poisoned : Bool
  deriving DecidableEq, Repr

/-- An iterate with its residuals as FP64 codes (R603): its index, x, z, y, r_prim, r_dual and merit. -/
structure BrIter where
  idx : Nat
  x : List Int
  z : List Int
  y : List Int
  prim : Nat
  dual : Nat
  merit : Nat
  deriving DecidableEq, Repr

/-- A solve in progress after its setup (R598 to R607): its slot as it works on it, D, the time it has come to, σ, the ρ
exponent wanted, the last and the best iterate, flags, counts, the first regularised pivot, the trajectory read. -/
structure BrRun where
  slot : Nat
  work : BrSlot
  due : Nat
  time : Nat
  late : Bool
  sigma : Int
  want : Int
  last : BrIter
  best : BrIter
  flags : Nat
  refactors : Nat
  pivot : Nat
  skipped : Nat
  updated : Bool
  traj : Nat × Nat
  deriving DecidableEq, Repr

/-- The Bridle beside its registers: its four slots and the solve in progress. -/
structure Bridle where
  slots : List (Option BrSlot)
  run : Option BrRun
  deriving DecidableEq, Repr


/-- A Trot-up unit (R636 to R640): the frame whose Trot-up has not started, the frame whose re-run is due, the run in
progress (frame, start, whether it is a re-run), the Chainmen that differed in the first run, frames ended undecided, the last
of them with its pack version and pattern while event 0x04 is due, whether
its first frame since ARM is decided, whether it owes a Trot-up before its first command, its last pass, the pack version and
pattern of its run and of the next. -/
structure TrotUnit where
  unit : Nat
  inst : Nat
  want : Option Nat
  rerun : Option Nat
  run : Option (Nat × Nat × Bool)
  first : List Nat
  undecided : List Nat
  late : Option (Nat × Nat × Nat)
  firstOk : Bool
  owes : Bool
  lastPass : Nat
  pattern : Nat × Nat
  next : Option (Nat × Nat)
  deriving DecidableEq, Repr

/-- The last counted fault of an instance (R631, R633). -/
structure Counted where
  unit : Nat
  inst : Nat
  frame : Nat
  waiting : Bool
  deriving DecidableEq, Repr

/-- The Steward beside its registers (R622 to R647). `first` is frame n of R623, `bound` the last frame boundary acted on,
`decided` the withdrawals whose effect waits, `chain` the withdrawn Chainmen, `pack` the slot in use (none: built in) and
`nextPack` the one chosen for the next frame; `hb` fields are of R642 and R643, `joinRun` the valid heartbeats since the cross link trained (R45); `xfault` and `xrun` of R644; `judged`
and `missed` of R646; `fell` the last time at which each of links 0 to 2 went down (R33). -/
structure Steward where
  armed : Bool
  first : Option Nat
  leftAt : Nat
  bound : Option Nat
  trots : List TrotUnit
  counted : List Counted
  decided : List (Nat × Nat)
  chain : List Nat
  silentAt : Nat
  restarts : List Nat
  pack : Option Nat
  nextPack : Option Nat
  stale : List Nat
  hbSeq : Nat
  hbSent : Option Nat
  hbRef : Option Nat
  hbRun : Nat
  hbLast : Nat
  joinRun : Option Nat
  peerState : Nat
  peerLocked : Bool
  xfault : Bool
  xrun : Nat
  judged : Nat
  missed : Nat
  fell : List (Nat × Nat)
  deriving DecidableEq, Repr

/-- An event waiting for a fault-signature record (R652, R656): with the side state and mode it left. -/
structure FsEvent where
  ev : SEvent
  state : Nat
  mode : Nat
  deriving DecidableEq, Repr

/-- What the Keeper knows of a verified or running image (R681, R687, R695). -/
structure KImage where
  target : Nat
  kind : Nat
  svn : Nat
  version : Nat
  digest : Nat
  length : Nat
  deriving DecidableEq, Repr

/-- A verification in progress (R690, R691). -/
structure KVerify where
  target : Nat
  base : Nat
  start : Nat
  deriving DecidableEq, Repr

/-- The states of an IEEE 1149.1 TAP controller. -/
inductive TapState where
  | testLogicReset
  | runTestIdle
  | selectDr
  | captureDr
  | shiftDr
  | exit1Dr
  | pauseDr
  | exit2Dr
  | updateDr
  | selectIr
  | captureIr
  | shiftIr
  | exit1Ir
  | pauseIr
  | exit2Ir
  | updateIr
  deriving DecidableEq, Repr

/-- The TAP (R700): the controller state, the instruction in force (an instruction register of ones is BYPASS; none is
IDCODE), and the shift register, next bit out first. -/
structure Tap where
  st : TapState
  ir : Option Nat
  shift : List Bool
  tdo : Bool
  deriving DecidableEq, Repr

/-- The Keeper beside its registers (R677 to R704): the fuses OWNER_HASH, ROLL_1 to ROLL_7 and HOBBLE, the words written to
KP_OWNER and KP_DTOK, the running firmware, the verified images, work in progress, the record queue, the CAK with its ports,
the SAKs installed per port, and
the Groom firmware with its load address. -/
structure Keeper where
  ownerHash : Option Nat
  roll : List Nat
  hobble : Bool
  ownerKey : List Nat
  token : List Nat
  fw : List KImage
  images : List KImage
  verify : Option KVerify
  quote : Option (Nat × Nat × Nat)
  fsq : List FsEvent
  fsLost : Nat
  cak : Option (Nat × Nat × Nat)
  saks : List (Nat × Nat)
  groomLoad : Nat
  groomCode : List Byte
  tap : Tap
  deriving DecidableEq, Repr

/-- A tagging monitor (R670): its LFSR, the items left before the next tag, and the tagged item in flight (a queue's chain
number, or a Groom's record still to be written). -/
structure PmTag where
  mon : Nat
  lfsr : Nat
  gap : Nat
  chain : Option Nat
  fetched : Nat
  ready : List (List Byte)
  deriving DecidableEq, Repr

/-- A dump being written (R672, R673): j, its Datum time, and the blocks of its monitors. -/
structure PmDump where
  j : Nat
  time : Nat
  blocks : List (List Byte)
  deriving DecidableEq, Repr

/-- The performance monitor beside its registers (R670 to R673): the tagging monitors, the tags written, the monitors with
DUMP when DEN was set, the last latch, the dump being written and the latches skipped since the last. -/
structure Pm where
  tags : List PmTag
  count : Nat
  dumped : List Nat
  lastJ : Nat
  dump : Option PmDump
  skipped : Nat
  deriving DecidableEq, Repr


/-- The agent whose effect is under way, for what it reads and writes over the links of its side (R33): its die (0 the hub die,
1 + d Draft die d), the start of its command, the lines whose transfer a link going down has cut, and whether it has been
stopped with every byte it was due to write poisoned (R134). The model's own field: between commands it is `Agent.hub`. -/
structure Agent where
  die : Nat
  since : Option Nat
  lost : List Nat
  spoil : Bool
  deriving DecidableEq, Repr

/-- A unit of the hub die. -/
def Agent.hub : Agent := ⟨0, none, [], false⟩

/-- One side of the module (R23). -/
structure Side where
  id : Nat
  part : Part
  phase : Phase
  regs : List (Nat × Word)
  mem : Store
  guards : List Guard
  grooms : List Groom
  returns : List (BitVec 512)
  ops : List Op
  rr : List (Nat × Nat)
  datum : Datum
  lg : Launch
  ing : Ingress
  tr : Transit
  gt : Gait
  pl : Option PlFrame
  pt : Plat
  tv : Traverse
  br : Bridle
  mangers : List Manger
  outriders : List Outrider
  scrubLine : Nat
  xout : List XMsg
  egress : List Sent
  events : List SEvent
  unver : List (Nat × Nat)
  sw : Steward
  kp : Keeper
  pm : Pm
  power : Power
  host : HostAgent
  acts : Agent
  fresh : Nat
  deriving DecidableEq, Repr

/-! ### Reset -/

/-- A Groom after reset (R57, R117): registers that the manual gives no value read zero (DESIGN CHOICE, log entry 4), the pc
stands at the reset value of GR_BOOT, halted. -/
def Groom.reset : Groom :=
  { x := List.replicate 32 0, v := List.replicate 32 0, p := List.replicate 8 0, pc := 0x8000_0000_0000_0000, ctl := [],
    lmem := [], halted := true, cause := 0, wait := .none, stale := [], sendQ := [], recvQ := [], errQ := [],
    lastRole := none, lastDt := 0 }

/-- Datum time after reset (R167, R190). -/
def Datum.reset : Datum :=
  { ns := 0, acc := 0, prev := 0, pendStep := none, src := 0, run := 0, lastRef := none, gm := 0, steppedFrom := 0,
    roles := [], best := none, linkDelay := [], lastSent := [], lastRx := 0, lastRxSend := 0, gotRx := false, cPhase := 0,
    cPeriod := 1000000, lastC := 0, syncSeq := 0, srcAt := 0, bestAt := 0, capable := [] }

/-- The Steward after reset (R622, R643). -/
def Steward.reset : Steward :=
  { armed := false, first := none, leftAt := 0, bound := none, trots := [], counted := [], decided := [], chain := [],
    silentAt := 0, restarts := [], pack := none, nextPack := none, stale := [], hbSeq := 0, hbSent := none, hbRef := none,
    hbRun := 0, hbLast := 0, joinRun := none, peerState := 0, peerLocked := false, xfault := false, xrun := 0, judged := 0, missed := 0,
    fell := [] }

/-- The Keeper after reset, none of its fuses programmed (DESIGN CHOICE, log entry 6). -/
def Keeper.reset : Keeper :=
  { ownerHash := none, roll := List.replicate 7 0, hobble := false, ownerKey := List.replicate 8 0,
    token := List.replicate 15 0, fw := [], images := [], verify := none, quote := none, fsq := [], fsLost := 0, cak := none,
    saks := [], groomLoad := 0, groomCode := [], tap := ⟨.testLogicReset, none, [], false⟩ }

/-- The performance monitor after reset. -/
def Pm.reset : Pm := ⟨[], 0, [], 0, none, 0⟩

/-- The power manager after reset (R720): the engines of Walk (R708) are to gain power. -/
def Power.reset (p : Part) : Power :=
  { credits := [], lastFall := none, lastRise := none, coolSince := none, lastSample := 0, leaving := [],
    gaining := (match p with
      | .cjm7480 => [0, 6, 12, 18]
      | .cjm7460 => [0, 6]
      | .cjm7420 => [0, 1]).map (fun e => (0x0E, e)),
    rateQ := [], clock := 0, lastAt := 0, pwrGood := true, resetLow := false }

/-- The engines, Draft dies and Grooms that the lists of a side have room for (R29). -/
def Part.counts (p : Part) : Nat × Nat × Nat :=
  match p with
  | .cjm7480 => (24, 2, 112)
  | .cjm7460 => (12, 1, 64)
  | .cjm7420 => (6, 1, 40)

/-- A side right after reset: every register at its reset value, every queue and buffer empty, its memory unwritten; the Mangers
of the engines that Walk leaves without power are poisoned (R385, log entry 3). -/
def Side.reset (id : Nat) (p : Part) : Side :=
  { id := id, part := p, phase := .boot, regs := [], mem := ⟨[], []⟩, guards := [],
    grooms := List.replicate p.counts.2.2 Groom.reset, returns := [], ops := [], rr := [], datum := Datum.reset,
    lg := ⟨[], 0, [], [], 0, [], [], 0, []⟩,
    ing := ⟨List.replicate 32 Slot.reset, List.replicate 16 ⟨none, none, false⟩, List.replicate 2 none⟩,
    tr := ⟨List.replicate 32 TrStream.reset, 0, [], [], []⟩,
    gt := ⟨[0, 0, 0], [0, 0, 0], [0x3FF0_0000_0000_0000, 0, 0, 0], [0, 0, 0], 0, 0, false, 0, 0, 0, 0, []⟩,
    pl := none, pt := ⟨0, [], [], [], none, [], none, none, none, none⟩, tv := ⟨none, 0, none, [], 0, 0⟩,
    br := ⟨List.replicate 4 none, none⟩, mangers := (List.range p.counts.1).map (fun e => ⟨[], [], !((Power.reset p).gaining.contains (0x0E, e))⟩),
    outriders := List.replicate p.counts.2.1 ⟨List.replicate 4 OrRings.empty, [], []⟩, scrubLine := 0, xout := [], egress := [],
    events := [], unver := [], sw := Steward.reset, kp := Keeper.reset, pm := Pm.reset, power := Power.reset p,
    host := ⟨[], [], List.replicate 16 ⟨0, 0, 0, 0, 0, 0, 0⟩, List.replicate 16 0, [[], []], [], []⟩, acts := Agent.hub, fresh := 0 }

/-- The module: its two sides and the commands that wait, first in first out. -/
structure State where
  near : Side
  off : Side
  pending : List Instr
  deriving DecidableEq, Repr

/-- The machine right after reset: a CJM-7480 (DESIGN CHOICE, log entry 1), both sides out of reset and before their boot
(log entry 2), nothing waiting. -/
def State.reset : State := ⟨Side.reset 0 .cjm7480, Side.reset 1 .cjm7480, []⟩

/-- Why the machine stops: no row of the table does. -/
inductive Fault where
  /-- Raised by no command: every fault the manual describes is an effect on the state. -/
  | neverRaised
  deriving DecidableEq, Repr

/-- Why a command is refused. -/
inductive Refusal where
  /-- Given by `exec` for a command whose meaning is not written; safe: nothing is claimed of it. -/
  | notModelled (mnemonic : String)
  deriving DecidableEq, Repr

end Sys2Proof.Machine
end

