-- ==== Sys2Proof/Machine/Regs.lean ====
section
/-! DEFINITION. Machine/Regs.lean: the register map (R20, R742): the name and key of every register, and for every
register its place, the bits of each access type (R19) and its reset value, as the table of its unit's chapter gives
them. A key is (unit ID << 24) + (instance << 16) + offset, the low 32 bits of the address of R20. -/
namespace Sys2Proof.Machine

/-- CAP_PART (R8). -/
def Reg.CAP_PART : Nat := 0x01000000

/-- CAP_UNITS (R9). -/
def Reg.CAP_UNITS : Nat := 0x01000008

/-- CAP_SCALE (R10). -/
def Reg.CAP_SCALE : Nat := 0x01000010

/-- BN_ERR_n (R34). -/
def Reg.BN_ERR (k : Nat) : Nat := 0x02010000 + 0x8 * k

/-- BN_STATE (R35). -/
def Reg.BN_STATE : Nat := 0x02010040

/-- GR_STATE (R117). -/
def Reg.GR_STATE (i : Nat) : Nat := 0x10000000 + 0x10000 * i

/-- GR_ROLE (R117). -/
def Reg.GR_ROLE (i : Nat) : Nat := 0x10000008 + 0x10000 * i

/-- GR_CTRL (R117). -/
def Reg.GR_CTRL (i : Nat) : Nat := 0x10000010 + 0x10000 * i

/-- GR_BOOT (R117). -/
def Reg.GR_BOOT (i : Nat) : Nat := 0x10000018 + 0x10000 * i

/-- GR_MSGCNT (R117). -/
def Reg.GR_MSGCNT (i : Nat) : Nat := 0x10000020 + 0x10000 * i

/-- TE_VALUE_t (R158). -/
def Reg.TE_VALUE (k : Nat) : Nat := 0x11000000 + 0x8 * k

/-- TE_ADD_t (R158). -/
def Reg.TE_ADD (k : Nat) : Nat := 0x11010000 + 0x8 * k

/-- CQ_CFG (R163). -/
def Reg.CQ_CFG (i : Nat) : Nat := 0x12000000 + 0x10000 * i

/-- CQ_RING (R164). -/
def Reg.CQ_RING (i : Nat) : Nat := 0x12000008 + 0x10000 * i

/-- CQ_CPL (R164). -/
def Reg.CQ_CPL (i : Nat) : Nat := 0x12000010 + 0x10000 * i

/-- CQ_TAIL (R165). -/
def Reg.CQ_TAIL (i : Nat) : Nat := 0x12000018 + 0x10000 * i

/-- CQ_HEAD (R165). -/
def Reg.CQ_HEAD (i : Nat) : Nat := 0x12000020 + 0x10000 * i

/-- CQ_CPLREAD (R165). -/
def Reg.CQ_CPLREAD (i : Nat) : Nat := 0x12000028 + 0x10000 * i

/-- CQ_STAT (R166). -/
def Reg.CQ_STAT (i : Nat) : Nat := 0x12000030 + 0x10000 * i

/-- CQ_INFLIGHT (R166). -/
def Reg.CQ_INFLIGHT : Nat := 0x12400000

/-- CQ_CEILING (R166). -/
def Reg.CQ_CEILING : Nat := 0x12400008

/-- DT_NOW (R190). -/
def Reg.DT_NOW : Nat := 0x03000000

/-- DT_FRAC (R190). -/
def Reg.DT_FRAC : Nat := 0x03000008

/-- DT_STATE (R190). -/
def Reg.DT_STATE : Nat := 0x03000010

/-- DT_CFG (R190). -/
def Reg.DT_CFG : Nat := 0x03000018

/-- DT_PTPEN (R190). -/
def Reg.DT_PTPEN : Nat := 0x03000020

/-- DT_RATE (R190). -/
def Reg.DT_RATE : Nat := 0x03000028

/-- DT_OFFSET (R190). -/
def Reg.DT_OFFSET : Nat := 0x03000030

/-- DT_HOLD (R190). -/
def Reg.DT_HOLD : Nat := 0x03000038

/-- DT_CPER (R190). -/
def Reg.DT_CPER : Nat := 0x03000040

/-- DT_XOFF (R190). -/
def Reg.DT_XOFF : Nat := 0x03000048

/-- DT_XCFG (R190). -/
def Reg.DT_XCFG : Nat := 0x03000050

/-- DT_XCNT (R190). -/
def Reg.DT_XCNT : Nat := 0x03000058

/-- DT_PPS (R190). -/
def Reg.DT_PPS : Nat := 0x03000060

/-- DT_TOD (R190). -/
def Reg.DT_TOD : Nat := 0x03000068

/-- DT_CTRL (R190). -/
def Reg.DT_CTRL : Nat := 0x03000070

/-- LG_CTRL (R207). -/
def Reg.LG_CTRL : Nat := 0x04000000

/-- LG_WATCH (R207). -/
def Reg.LG_WATCH : Nat := 0x04000008

/-- LG_RPT_BASE (R207). -/
def Reg.LG_RPT_BASE : Nat := 0x04000010

/-- LG_RPT_CFG (R207). -/
def Reg.LG_RPT_CFG : Nat := 0x04000018

/-- LG_RPT_HEAD (R207). -/
def Reg.LG_RPT_HEAD : Nat := 0x04000020

/-- LG_COUNT (R207). -/
def Reg.LG_COUNT : Nat := 0x04000028

/-- LG_SENT (R207). -/
def Reg.LG_SENT : Nat := 0x04000030

/-- LG_STORE (R207). -/
def Reg.LG_STORE : Nat := 0x04000038

/-- LG_TOL_p (R207). -/
def Reg.LG_TOL (k : Nat) : Nat := 0x04000040 + 0x8 * k

/-- IN_STATUS (R243). -/
def Reg.IN_STATUS : Nat := 0x05000000

/-- IN_APHY_r (R243). -/
def Reg.IN_APHY (k : Nat) : Nat := 0x05000100 + 0x8 * k

/-- IN_EPORT_p (R243). -/
def Reg.IN_EPORT (k : Nat) : Nat := 0x05000200 + 0x8 * k

/-- IN_CANB_b (R243). -/
def Reg.IN_CANB (k : Nat) : Nat := 0x05000300 + 0x8 * k

/-- IN_SPIB_i (R243). -/
def Reg.IN_SPIB (k : Nat) : Nat := 0x05000340 + 0x8 * k

/-- IN_SCFG_s (R243). -/
def Reg.IN_SCFG (k : Nat) : Nat := 0x05001000 + 0x80 * k

/-- IN_CAM_s (R243). -/
def Reg.IN_CAM (k : Nat) : Nat := 0x05001008 + 0x80 * k

/-- IN_TRIG_s (R243). -/
def Reg.IN_TRIG (k : Nat) : Nat := 0x05001010 + 0x80 * k

/-- IN_ADJ_s (R243). -/
def Reg.IN_ADJ (k : Nat) : Nat := 0x05001018 + 0x80 * k

/-- IN_ETH_s (R243). -/
def Reg.IN_ETH (k : Nat) : Nat := 0x05001020 + 0x80 * k

/-- IN_CAN_s (R243). -/
def Reg.IN_CAN (k : Nat) : Nat := 0x05001028 + 0x80 * k

/-- IN_SPI_s (R243). -/
def Reg.IN_SPI (k : Nat) : Nat := 0x05001030 + 0x80 * k

/-- IN_LBASE_s (R243). -/
def Reg.IN_LBASE (k : Nat) : Nat := 0x05001038 + 0x80 * k

/-- IN_LSIZE_s (R243). -/
def Reg.IN_LSIZE (k : Nat) : Nat := 0x05001040 + 0x80 * k

/-- IN_LPTR_s (R243). -/
def Reg.IN_LPTR (k : Nat) : Nat := 0x05001048 + 0x80 * k

/-- IN_SSTAT_s (R243). -/
def Reg.IN_SSTAT (k : Nat) : Nat := 0x05001050 + 0x80 * k

/-- IN_SCHAIN_s (R243). -/
def Reg.IN_SCHAIN (k : Nat) : Nat := 0x05001058 + 0x80 * k

/-- IN_RACE_s (R243). -/
def Reg.IN_RACE (k : Nat) : Nat := 0x05001060 + 0x80 * k

/-- TR_CTRL (R287). -/
def Reg.TR_CTRL : Nat := 0x06000000

/-- TR_FRAME (R287). -/
def Reg.TR_FRAME : Nat := 0x06000008

/-- TR_PHASE (R287). -/
def Reg.TR_PHASE : Nat := 0x06000010

/-- TR_REV (R287). -/
def Reg.TR_REV : Nat := 0x06000018

/-- TR_OBASE_c (R287). -/
def Reg.TR_OBASE (k : Nat) : Nat := 0x06000020 + 0x10 * k

/-- TR_OCFG_c (R287). -/
def Reg.TR_OCFG (k : Nat) : Nat := 0x06000028 + 0x10 * k

/-- TR_SEQ (R287). -/
def Reg.TR_SEQ : Nat := 0x06000060

/-- TR_SCFG_s (R287). -/
def Reg.TR_SCFG (k : Nat) : Nat := 0x06001000 + 0x40 * k

/-- TR_STIME_s (R287). -/
def Reg.TR_STIME (k : Nat) : Nat := 0x06001008 + 0x40 * k

/-- TR_SSTAT_s (R287). -/
def Reg.TR_SSTAT (k : Nat) : Nat := 0x06001010 + 0x40 * k

/-- TR_SFILT_s (R287). -/
def Reg.TR_SFILT (k : Nat) : Nat := 0x06001018 + 0x40 * k

/-- TR_SCNT_s (R287). -/
def Reg.TR_SCNT (k : Nat) : Nat := 0x06001020 + 0x40 * k

/-- TR_SCNT2_s (R287). -/
def Reg.TR_SCNT2 (k : Nat) : Nat := 0x06001028 + 0x40 * k

/-- GT_CTRL (R289). -/
def Reg.GT_CTRL : Nat := 0x07000000

/-- GT_PER (R289). -/
def Reg.GT_PER : Nat := 0x07000008

/-- GT_PHASE (R289). -/
def Reg.GT_PHASE : Nat := 0x07000010

/-- GT_IN (R289). -/
def Reg.GT_IN : Nat := 0x07000018

/-- GT_VEH (R289). -/
def Reg.GT_VEH : Nat := 0x07000020

/-- GT_GAIN (R289). -/
def Reg.GT_GAIN : Nat := 0x07000028

/-- GT_BIAS0 (R289). -/
def Reg.GT_BIAS0 : Nat := 0x07000030

/-- GT_BIAS1 (R289). -/
def Reg.GT_BIAS1 : Nat := 0x07000038

/-- GT_HIST (R289). -/
def Reg.GT_HIST : Nat := 0x07000040

/-- GT_SEQ (R289). -/
def Reg.GT_SEQ : Nat := 0x07000048

/-- GT_CNT (R289). -/
def Reg.GT_CNT : Nat := 0x07000050

/-- PL_CTRL (R332). -/
def Reg.PL_CTRL : Nat := 0x08000000

/-- PL_TBASE (R332). -/
def Reg.PL_TBASE : Nat := 0x08000008

/-- PL_OPENT (R332). -/
def Reg.PL_OPENT : Nat := 0x08000010

/-- PL_LIVE (R332). -/
def Reg.PL_LIVE : Nat := 0x08000018

/-- PL_THIN (R332). -/
def Reg.PL_THIN : Nat := 0x08000020

/-- PL_CNT (R332). -/
def Reg.PL_CNT : Nat := 0x08000028

/-- PT_CTRL (R365). -/
def Reg.PT_CTRL : Nat := 0x09000000

/-- PT_GEOM (R365). -/
def Reg.PT_GEOM : Nat := 0x09000008

/-- PT_ORIGIN (R365). -/
def Reg.PT_ORIGIN : Nat := 0x09000010

/-- PT_TIME (R365). -/
def Reg.PT_TIME : Nat := 0x09000018

/-- PT_SLICE (R365). -/
def Reg.PT_SLICE : Nat := 0x09000020

/-- PT_TRACK (R365). -/
def Reg.PT_TRACK : Nat := 0x09000028

/-- PT_HBASE_h (R365). -/
def Reg.PT_HBASE (k : Nat) : Nat := 0x09000040 + 0x8 * k

/-- PT_RXBASE_h (R365). -/
def Reg.PT_RXBASE (k : Nat) : Nat := 0x09000050 + 0x8 * k

/-- PT_PBASE_b (R365). -/
def Reg.PT_PBASE (k : Nat) : Nat := 0x09000060 + 0x8 * k

/-- PT_EPOCH (R365). -/
def Reg.PT_EPOCH : Nat := 0x09000070

/-- PT_CNT (R365). -/
def Reg.PT_CNT : Nat := 0x09000078

/-- PT_CNT2 (R365). -/
def Reg.PT_CNT2 : Nat := 0x09000080

/-- PT_OBASE_c (R365). -/
def Reg.PT_OBASE (k : Nat) : Nat := 0x09000090 + 0x10 * k

/-- PT_OCFG_c (R365). -/
def Reg.PT_OCFG (k : Nat) : Nat := 0x09000098 + 0x10 * k

/-- PT_LAYER_l (R365). -/
def Reg.PT_LAYER (k : Nat) : Nat := 0x09000100 + 0x8 * k

/-- DR_STATE (R408). -/
def Reg.DR_STATE (i : Nat) : Nat := 0x0E000000 + 0x10000 * i

/-- DR_VET (R408). -/
def Reg.DR_VET (i : Nat) : Nat := 0x0E000008 + 0x10000 * i

/-- DR_VET_WHERE (R408). -/
def Reg.DR_VET_WHERE (i : Nat) : Nat := 0x0E000010 + 0x10000 * i

/-- DR_VET_POS (R408). -/
def Reg.DR_VET_POS (i : Nat) : Nat := 0x0E000018 + 0x10000 * i

/-- DR_VET_DELTA (R408). -/
def Reg.DR_VET_DELTA (i : Nat) : Nat := 0x0E000020 + 0x10000 * i

/-- DR_MANGER (R408). -/
def Reg.DR_MANGER (i : Nat) : Nat := 0x0E000028 + 0x10000 * i

/-- RL_STATE (R430). -/
def Reg.RL_STATE (i : Nat) : Nat := 0x0D000000 + 0x10000 * i

/-- RL_CNT (R430). -/
def Reg.RL_CNT (i : Nat) : Nat := 0x0D000008 + 0x10000 * i

/-- RL_LAST (R430). -/
def Reg.RL_LAST (i : Nat) : Nat := 0x0D000010 + 0x10000 * i

/-- NT_STATE (R455). -/
def Reg.NT_STATE (i : Nat) : Nat := 0x16000000 + 0x10000 * i

/-- NT_ERR (R455). -/
def Reg.NT_ERR (i : Nat) : Nat := 0x16000008 + 0x10000 * i

/-- NT_BAD (R455). -/
def Reg.NT_BAD (i : Nat) : Nat := 0x16000010 + 0x10000 * i

/-- NT_MAP (R455). -/
def Reg.NT_MAP : Nat := 0x16000018

/-- FT_STATE (R456). -/
def Reg.FT_STATE : Nat := 0x15000000

/-- FT_ERR (R456). -/
def Reg.FT_ERR : Nat := 0x15000008

/-- FT_BAD (R456). -/
def Reg.FT_BAD : Nat := 0x15000010

/-- FT_SCRUB (R456). -/
def Reg.FT_SCRUB : Nat := 0x15000018

/-- SR_LOFT_d (R457). -/
def Reg.SR_LOFT (k : Nat) : Nat := 0x02020000 + 0x8 * k

/-- SR_HUB (R457). -/
def Reg.SR_HUB : Nat := 0x02020010

/-- SR_BAD (R457). -/
def Reg.SR_BAD : Nat := 0x02020018

/-- OR_CTRL (R493). -/
def Reg.OR_CTRL (i : Nat) : Nat := 0x0C000000 + 0x10000 * i

/-- OR_TALLY (R493). -/
def Reg.OR_TALLY (i : Nat) : Nat := 0x0C000008 + 0x10000 * i

/-- OR_CNT (R493). -/
def Reg.OR_CNT (i : Nat) : Nat := 0x0C000010 + 0x10000 * i

/-- OR_HELD (R493). -/
def Reg.OR_HELD (i : Nat) : Nat := 0x0C000018 + 0x10000 * i

/-- OR_CLS_c (R493). -/
def Reg.OR_CLS (i : Nat) (k : Nat) : Nat := 0x0C000100 + 0x10000 * i + 0x40 * k

/-- OR_NBASE_c (R493). -/
def Reg.OR_NBASE (i : Nat) (k : Nat) : Nat := 0x0C000108 + 0x10000 * i + 0x40 * k

/-- OR_FBASE_c (R493). -/
def Reg.OR_FBASE (i : Nat) (k : Nat) : Nat := 0x0C000110 + 0x10000 * i + 0x40 * k

/-- OR_NPUSH_c (R493). -/
def Reg.OR_NPUSH (i : Nat) (k : Nat) : Nat := 0x0C000118 + 0x10000 * i + 0x40 * k

/-- OR_FPUSH_c (R493). -/
def Reg.OR_FPUSH (i : Nat) (k : Nat) : Nat := 0x0C000120 + 0x10000 * i + 0x40 * k

/-- OR_NSTAT_c (R493). -/
def Reg.OR_NSTAT (i : Nat) (k : Nat) : Nat := 0x0C000128 + 0x10000 * i + 0x40 * k

/-- OR_FSTAT_c (R493). -/
def Reg.OR_FSTAT (i : Nat) (k : Nat) : Nat := 0x0C000130 + 0x10000 * i + 0x40 * k

/-- ST_STATE (R534). -/
def Reg.ST_STATE (i : Nat) : Nat := 0x0F000000 + 0x10000 * i

/-- ST_CHK (R534). -/
def Reg.ST_CHK (i : Nat) : Nat := 0x0F000008 + 0x10000 * i

/-- ST_WHERE (R534). -/
def Reg.ST_WHERE (i : Nat) : Nat := 0x0F000010 + 0x10000 * i

/-- ST_WHERE2 (R534). -/
def Reg.ST_WHERE2 (i : Nat) : Nat := 0x0F000018 + 0x10000 * i

/-- ST_DELTA (R534). -/
def Reg.ST_DELTA (i : Nat) : Nat := 0x0F000020 + 0x10000 * i

/-- ST_SRAM (R534). -/
def Reg.ST_SRAM (i : Nat) : Nat := 0x0F000028 + 0x10000 * i

/-- ST_CNT (R534). -/
def Reg.ST_CNT (i : Nat) : Nat := 0x0F000030 + 0x10000 * i

/-- CQ_RAGGED (R535). -/
def Reg.CQ_RAGGED : Nat := 0x12400010

/-- TV_CTRL (R580). -/
def Reg.TV_CTRL : Nat := 0x0A000000

/-- TV_RMAP (R580). -/
def Reg.TV_RMAP : Nat := 0x0A000008

/-- TV_RSIZE (R580). -/
def Reg.TV_RSIZE : Nat := 0x0A000010

/-- TV_DYN (R580). -/
def Reg.TV_DYN : Nat := 0x0A000018

/-- TV_DCAP (R580). -/
def Reg.TV_DCAP : Nat := 0x0A000020

/-- TV_DUSE (R580). -/
def Reg.TV_DUSE : Nat := 0x0A000028

/-- TV_CMAP (R580). -/
def Reg.TV_CMAP : Nat := 0x0A000030

/-- TV_CMSIZE (R580). -/
def Reg.TV_CMSIZE : Nat := 0x0A000038

/-- TV_PIN (R580). -/
def Reg.TV_PIN : Nat := 0x0A000040

/-- TV_PBASE_b (R580). -/
def Reg.TV_PBASE (k : Nat) : Nat := 0x0A000048 + 0x8 * k

/-- TV_MBASE_b (R580). -/
def Reg.TV_MBASE (k : Nat) : Nat := 0x0A000058 + 0x8 * k

/-- TV_MRS (R580). -/
def Reg.TV_MRS : Nat := 0x0A000068

/-- TV_SEQ (R580). -/
def Reg.TV_SEQ : Nat := 0x0A000070

/-- TV_CHAIN (R580). -/
def Reg.TV_CHAIN : Nat := 0x0A000078

/-- TV_CNT (R580). -/
def Reg.TV_CNT : Nat := 0x0A000080

/-- TV_CNT2 (R580). -/
def Reg.TV_CNT2 : Nat := 0x0A000088

/-- TV_PASSES (R580). -/
def Reg.TV_PASSES : Nat := 0x0A000090

/-- BR_CTRL (R613). -/
def Reg.BR_CTRL : Nat := 0x0B000000

/-- BR_IMG_i (R613). -/
def Reg.BR_IMG (k : Nat) : Nat := 0x0B000008 + 0x8 * k

/-- BR_SSIG_s (R613). -/
def Reg.BR_SSIG (k : Nat) : Nat := 0x0B000048 + 0x18 * k

/-- BR_SSTAT_s (R613). -/
def Reg.BR_SSTAT (k : Nat) : Nat := 0x0B000050 + 0x18 * k

/-- BR_STIME_s (R613). -/
def Reg.BR_STIME (k : Nat) : Nat := 0x0B000058 + 0x18 * k

/-- BR_CNT (R613). -/
def Reg.BR_CNT : Nat := 0x0B0000A8

/-- BR_CNT2 (R613). -/
def Reg.BR_CNT2 : Nat := 0x0B0000B0

/-- BR_WORK (R613). -/
def Reg.BR_WORK : Nat := 0x0B0000B8

/-- SW_STATE (R650). -/
def Reg.SW_STATE : Nat := 0x02000000

/-- SW_CTRL (R650). -/
def Reg.SW_CTRL : Nat := 0x02000008

/-- SW_CFG (R650). -/
def Reg.SW_CFG : Nat := 0x02000010

/-- SW_WDRAW (R650). -/
def Reg.SW_WDRAW : Nat := 0x02000018

/-- SW_LOG_BASE (R650). -/
def Reg.SW_LOG_BASE : Nat := 0x02000020

/-- SW_LOG_CFG (R650). -/
def Reg.SW_LOG_CFG : Nat := 0x02000028

/-- SW_LOG_HEAD (R650). -/
def Reg.SW_LOG_HEAD : Nat := 0x02000030

/-- SW_VERDICT (R650). -/
def Reg.SW_VERDICT : Nat := 0x02000038

/-- SW_CNT (R650). -/
def Reg.SW_CNT : Nat := 0x02000040

/-- SW_CNT2 (R650). -/
def Reg.SW_CNT2 : Nat := 0x02000048

/-- SW_TROT (R650). -/
def Reg.SW_TROT : Nat := 0x02000050

/-- SW_SHED (R650). -/
def Reg.SW_SHED : Nat := 0x02000058

/-- SW_FRAME (R650). -/
def Reg.SW_FRAME : Nat := 0x02000060

/-- FS_CFG (R664). -/
def Reg.FS_CFG : Nat := 0x02030000

/-- FS_MASK (R664). -/
def Reg.FS_MASK : Nat := 0x02030008

/-- FS_BASE (R664). -/
def Reg.FS_BASE : Nat := 0x02030010

/-- FS_SEQ (R664). -/
def Reg.FS_SEQ : Nat := 0x02030018

/-- FS_CNT (R664). -/
def Reg.FS_CNT : Nat := 0x02030020

/-- TP_BASE_a (R664). -/
def Reg.TP_BASE (k : Nat) : Nat := 0x02030040 + 0x8 * k

/-- TP_VER_a (R664). -/
def Reg.TP_VER (k : Nat) : Nat := 0x02030050 + 0x8 * k

/-- TP_CNT (R664). -/
def Reg.TP_CNT : Nat := 0x02030060

/-- PM_CTRL (R675). -/
def Reg.PM_CTRL (i : Nat) : Nat := 0x13000000 + 0x10000 * i

/-- PM_CYCLES (R675). -/
def Reg.PM_CYCLES (i : Nat) : Nat := 0x13000008 + 0x10000 * i

/-- PM_SLOT_k (R675). -/
def Reg.PM_SLOT (i : Nat) (k : Nat) : Nat := 0x13000010 + 0x10000 * i + 0x8 * k

/-- PM_EVSEL_i (R675). -/
def Reg.PM_EVSEL (i : Nat) (k : Nat) : Nat := 0x13000038 + 0x10000 * i + 0x8 * k

/-- PM_COUNT_i (R675). -/
def Reg.PM_COUNT (i : Nat) (k : Nat) : Nat := 0x13000078 + 0x10000 * i + 0x8 * k

/-- PM_FPL (R675). -/
def Reg.PM_FPL (i : Nat) : Nat := 0x130000C0 + 0x10000 * i

/-- PM_FMID (R675). -/
def Reg.PM_FMID (i : Nat) : Nat := 0x130000C8 + 0x10000 * i

/-- PM_FCLASS (R675). -/
def Reg.PM_FCLASS (i : Nat) : Nat := 0x130000D0 + 0x10000 * i

/-- PM_FLO (R675). -/
def Reg.PM_FLO (i : Nat) : Nat := 0x130000D8 + 0x10000 * i

/-- PM_FHI (R675). -/
def Reg.PM_FHI (i : Nat) : Nat := 0x130000E0 + 0x10000 * i

/-- PM_TAG (R675). -/
def Reg.PM_TAG (i : Nat) : Nat := 0x130000E8 + 0x10000 * i

/-- PM_DCFG (R676). -/
def Reg.PM_DCFG : Nat := 0x13000000

/-- PM_DBASE (R676). -/
def Reg.PM_DBASE : Nat := 0x13000008

/-- PM_DSEQ (R676). -/
def Reg.PM_DSEQ : Nat := 0x13000010

/-- PM_DCNT (R676). -/
def Reg.PM_DCNT : Nat := 0x13000018

/-- PM_TBASE (R676). -/
def Reg.PM_TBASE : Nat := 0x13000020

/-- PM_TCFG (R676). -/
def Reg.PM_TCFG : Nat := 0x13000028

/-- PM_TCNT (R676). -/
def Reg.PM_TCNT : Nat := 0x13000030

/-- ET_SEC (R699). -/
def Reg.ET_SEC (i : Nat) : Nat := 0x17000100 + 0x10000 * i

/-- ET_SECWIN (R699). -/
def Reg.ET_SECWIN (i : Nat) : Nat := 0x17000108 + 0x10000 * i

/-- ET_SECCNT (R699). -/
def Reg.ET_SECCNT (i : Nat) : Nat := 0x17000110 + 0x10000 * i

/-- KP_STATE (R705). -/
def Reg.KP_STATE : Nat := 0x14000000

/-- KP_VREQ (R705). -/
def Reg.KP_VREQ : Nat := 0x14000008

/-- KP_VSTAT (R705). -/
def Reg.KP_VSTAT : Nat := 0x14000010

/-- KP_VCFG (R705). -/
def Reg.KP_VCFG : Nat := 0x14000018

/-- KP_ROLL (R705). -/
def Reg.KP_ROLL : Nat := 0x14000020

/-- KP_ROLLCNT (R705). -/
def Reg.KP_ROLLCNT : Nat := 0x14000028

/-- KP_IDPUB_w (R705). -/
def Reg.KP_IDPUB (k : Nat) : Nat := 0x14000040 + 0x8 * k

/-- KP_DEVICE_w (R705). -/
def Reg.KP_DEVICE (k : Nat) : Nat := 0x14000080 + 0x8 * k

/-- KP_OWNER_w (R705). -/
def Reg.KP_OWNER (k : Nat) : Nat := 0x14000090 + 0x8 * k

/-- KP_GRAPH_g (R705). -/
def Reg.KP_GRAPH (k : Nat) : Nat := 0x140000D0 + 0x8 * k

/-- KP_NONCE_w (R705). -/
def Reg.KP_NONCE (k : Nat) : Nat := 0x14000150 + 0x8 * k

/-- KP_QREQ (R705). -/
def Reg.KP_QREQ : Nat := 0x14000170

/-- KP_QSTAT (R705). -/
def Reg.KP_QSTAT : Nat := 0x14000178

/-- KP_DCHAL_w (R705). -/
def Reg.KP_DCHAL (k : Nat) : Nat := 0x14000180 + 0x8 * k

/-- KP_DTOK_w (R705). -/
def Reg.KP_DTOK (k : Nat) : Nat := 0x140001A0 + 0x8 * k

/-- KP_HOBBLE (R705). -/
def Reg.KP_HOBBLE : Nat := 0x14000218

/-- KP_CNT (R705). -/
def Reg.KP_CNT : Nat := 0x14000220

/-- PW_REQ (R722). -/
def Reg.PW_REQ : Nat := 0x18000000

/-- PW_STATE (R722). -/
def Reg.PW_STATE : Nat := 0x18000008

/-- PW_EFFECT (R722). -/
def Reg.PW_EFFECT : Nat := 0x18000010

/-- PW_THERM (R722). -/
def Reg.PW_THERM : Nat := 0x18000018

/-- PW_IN (R722). -/
def Reg.PW_IN : Nat := 0x18000020

/-- PW_ENG (R722). -/
def Reg.PW_ENG : Nat := 0x18000028

/-- PW_CNT (R722). -/
def Reg.PW_CNT : Nat := 0x18000030

/-- ET_PORT (R741). -/
def Reg.ET_PORT (i : Nat) : Nat := 0x17000000 + 0x10000 * i

/-- HP_CFG (R741). -/
def Reg.HP_CFG : Nat := 0x17100000

/-- HP_ADDR_w (R741). -/
def Reg.HP_ADDR (k : Nat) : Nat := 0x17100008 + 0x8 * k

/-- HP_PEER_n_w (R741). -/
def Reg.HP_PEER (k : Nat) : Nat := 0x17100020 + 0x8 * k

/-- HP_PORT (R741). -/
def Reg.HP_PORT : Nat := 0x17100060

/-- HP_CNT (R741). -/
def Reg.HP_CNT : Nat := 0x17100068

/-- HP_SUB (R741). -/
def Reg.HP_SUB : Nat := 0x17100070

/-- QP_STATE_q (R741). -/
def Reg.QP_STATE (k : Nat) : Nat := 0x17110000 + 0x10 * k

/-- QP_CNT_q (R741). -/
def Reg.QP_CNT (k : Nat) : Nat := 0x17110008 + 0x10 * k

/-- MR_BASE_m (R741). -/
def Reg.MR_BASE (k : Nat) : Nat := 0x17110100 + 0x10 * k

/-- MR_LEN_m (R741). -/
def Reg.MR_LEN (k : Nat) : Nat := 0x17110108 + 0x10 * k

/-- The registers of unit 0x01. -/
def regTable01 : List RegSpec :=
  [ ⟨"CAP_PART", 0, 0, 0x0, 0x0, 1, 0x0, 0x0, 0x0, 0x0, 0x0, 0xFFFFFF01, 0x100⟩,
    ⟨"CAP_UNITS", 0, 0, 0x8, 0x0, 1, 0x0, 0x0, 0x0, 0x0, 0x0, 0xF, 0x0⟩,
    ⟨"CAP_SCALE", 0, 0, 0x10, 0x0, 1, 0x0, 0x0, 0x0, 0x0, 0x0, 0xFFFFFFFFFFFFFFFF, 0x0⟩ ]

/-- The registers of unit 0x02. -/
def regTable02 : List RegSpec :=
  [ ⟨"BN_ERR_n", 1, 1, 0x0, 0x8, 4, 0x0, 0x0, 0x0, 0x0, 0xFFFFFFFFFFFFFFFF, 0x0, 0x0⟩,
    ⟨"BN_STATE", 1, 1, 0x40, 0x0, 1, 0x0, 0x0, 0x0, 0x0, 0x0, 0xF, 0x0⟩,
    ⟨"SR_LOFT_d", 2, 2, 0x0, 0x8, 2, 0x0, 0x0, 0x0, 0x0, 0xFFFFFFFFFFFF0000, 0x0, 0x0⟩,
    ⟨"SR_HUB", 2, 2, 0x10, 0x0, 1, 0x0, 0x0, 0x0, 0x0, 0xFFFFFFFFFFFF0000, 0x0, 0x0⟩,
    ⟨"SR_BAD", 2, 2, 0x18, 0x0, 1, 0x0, 0x0, 0x0, 0x0, 0x0, 0xFFFFFFFFFFFFFFFF, 0x0⟩,
    ⟨"SW_STATE", 0, 0, 0x0, 0x0, 1, 0x0, 0x0, 0x20, 0x0, 0x0, 0xFF1F, 0x0⟩,
    ⟨"SW_CTRL", 0, 0, 0x8, 0x0, 1, 0x0, 0x3, 0x0, 0x0, 0x0, 0x0, 0x0⟩,
    ⟨"SW_CFG", 0, 0, 0x10, 0x0, 1, 0xFFF0FFFFFF0F, 0x0, 0x0, 0x0, 0x0, 0x0, 0x3033040202⟩,
    ⟨"SW_WDRAW", 0, 0, 0x18, 0x0, 1, 0x0, 0x0, 0x0, 0x0, 0x0, 0x3FFFFFFF, 0x0⟩,
    ⟨"SW_LOG_BASE", 0, 0, 0x20, 0x0, 1, 0xFFFFFFFFFFFFFFE0, 0x0, 0x0, 0x0, 0x0, 0x0, 0x0⟩,
    ⟨"SW_LOG_CFG", 0, 0, 0x28, 0x0, 1, 0x3FFF0F, 0x0, 0x0, 0x0, 0x0, 0x0, 0x0⟩,
    ⟨"SW_LOG_HEAD", 0, 0, 0x30, 0x0, 1, 0x0, 0x0, 0x0, 0x0, 0x0, 0xFFFFFFFF, 0x0⟩,
    ⟨"SW_VERDICT", 0, 0, 0x38, 0x0, 1, 0x0, 0x1FF0000FFFF, 0x0, 0x0, 0x0, 0x0, 0x0⟩,
    ⟨"SW_CNT", 0, 0, 0x40, 0x0, 1, 0x0, 0x0, 0x0, 0x0, 0xFFFFFFFFFFFFFFFF, 0x0, 0x0⟩,
    ⟨"SW_CNT2", 0, 0, 0x48, 0x0, 1, 0x0, 0x0, 0x0, 0x0, 0xFFFFFFFFFFFFFFFF, 0x0, 0x0⟩,
    ⟨"SW_TROT", 0, 0, 0x50, 0x0, 1, 0x0, 0x0, 0x0, 0x0, 0x0, 0xFFFFFFFF00000000, 0x0⟩,
    ⟨"SW_SHED", 0, 0, 0x58, 0x0, 1, 0xFFFFFFFF, 0x0, 0x0, 0x0, 0x0, 0x0, 0x0⟩,
    ⟨"SW_FRAME", 0, 0, 0x60, 0x0, 1, 0x0, 0x0, 0x0, 0x0, 0x0, 0xFFFFFFFFFFFFFFFF, 0x0⟩,
    ⟨"FS_CFG", 3, 3, 0x0, 0x0, 1, 0x1F, 0x0, 0x20, 0x0, 0x0, 0x0, 0x0⟩,
    ⟨"FS_MASK", 3, 3, 0x8, 0x0, 1, 0xFFFFFE, 0x0, 0x0, 0x0, 0x0, 0x0, 0x86017E⟩,
    ⟨"FS_BASE", 3, 3, 0x10, 0x0, 1, 0xFFFFFFFFFFFFFE00, 0x0, 0x0, 0x0, 0x0, 0x0, 0x0⟩,
    ⟨"FS_SEQ", 3, 3, 0x18, 0x0, 1, 0x0, 0x0, 0x0, 0x0, 0x0, 0xFFFFFFFFFFFFFFFF, 0x0⟩,
    ⟨"FS_CNT", 3, 3, 0x20, 0x0, 1, 0x0, 0x0, 0x0, 0x0, 0xFFFFFFFF00000000, 0x0, 0x0⟩,
    ⟨"TP_BASE_a", 3, 3, 0x40, 0x8, 2, 0xFFFFFFFFFFFFF000, 0x0, 0x0, 0x0, 0x0, 0x3, 0x0⟩,
    ⟨"TP_VER_a", 3, 3, 0x50, 0x8, 2, 0x0, 0x0, 0x0, 0x0, 0x0, 0xFFFFFFFF, 0x0⟩,
    ⟨"TP_CNT", 3, 3, 0x60, 0x0, 1, 0x0, 0x0, 0x1, 0x0, 0xFFFFFFFFFFFF0000, 0x0, 0x0⟩ ]

/-- The registers of unit 0x03. -/
def regTable03 : List RegSpec :=
  [ ⟨"DT_NOW", 0, 0, 0x0, 0x0, 1, 0x0, 0x0, 0x0, 0x0, 0x0, 0xFFFFFFFFFFFFFFFF, 0x0⟩,
    ⟨"DT_FRAC", 0, 0, 0x8, 0x0, 1, 0x0, 0x0, 0x0, 0x0, 0x0, 0xFFFF, 0x0⟩,
    ⟨"DT_STATE", 0, 0, 0x10, 0x0, 1, 0x0, 0x0, 0x8, 0x0, 0x0, 0xFFFF0007, 0x0⟩,
    ⟨"DT_CFG", 0, 0, 0x18, 0x0, 1, 0xFF0FFF43, 0x0, 0x0, 0x0, 0x0, 0x0, 0x33000⟩,
    ⟨"DT_PTPEN", 0, 0, 0x20, 0x0, 1, 0x3FF, 0x0, 0x0, 0x0, 0x0, 0x0, 0x0⟩,
    ⟨"DT_RATE", 0, 0, 0x28, 0x0, 1, 0x0, 0x0, 0x0, 0x0, 0x0, 0xFFFFFFFFFFFF, 0x0⟩,
    ⟨"DT_OFFSET", 0, 0, 0x30, 0x0, 1, 0x0, 0x0, 0x0, 0x0, 0x0, 0xFFFFFFFFFFFFFFFF, 0x0⟩,
    ⟨"DT_HOLD", 0, 0, 0x38, 0x0, 1, 0x0, 0x0, 0x0, 0x0, 0x0, 0xFFFFFFFFFFFFFFFF, 0x0⟩,
    ⟨"DT_CPER", 0, 0, 0x40, 0x0, 1, 0xFFFFFFFFFFFFFFFF, 0x0, 0x0, 0x0, 0x0, 0x0, 0xF4240⟩,
    ⟨"DT_XOFF", 0, 0, 0x48, 0x0, 1, 0x0, 0x0, 0x0, 0x0, 0x0, 0xFFFFFFFFFFFFFFFF, 0x0⟩,
    ⟨"DT_XCFG", 0, 0, 0x50, 0x0, 1, 0xFFFFFFFFFFFFFFFF, 0x0, 0x0, 0x0, 0x0, 0x0, 0x2710000001F4⟩,
    ⟨"DT_XCNT", 0, 0, 0x58, 0x0, 1, 0x0, 0x0, 0x0, 0x0, 0xFFFFFFFFFFFF0000, 0x0, 0x0⟩,
    ⟨"DT_PPS", 0, 0, 0x60, 0x0, 1, 0x0, 0x0, 0x0, 0x0, 0x0, 0xFFFFFFFFFFFFFFFF, 0x0⟩,
    ⟨"DT_TOD", 0, 0, 0x68, 0x0, 1, 0xFFFFFFFFFFFFFFFF, 0x0, 0x0, 0x0, 0x0, 0x0, 0x0⟩,
    ⟨"DT_CTRL", 0, 0, 0x70, 0x0, 1, 0x0, 0x1, 0x0, 0x0, 0x0, 0x0, 0x0⟩ ]

/-- The registers of unit 0x04. -/
def regTable04 : List RegSpec :=
  [ ⟨"LG_CTRL", 0, 0, 0x0, 0x0, 1, 0x1, 0x0, 0x8, 0x0, 0x0, 0x6, 0x0⟩,
    ⟨"LG_WATCH", 0, 0, 0x8, 0x0, 1, 0x3FFF, 0x0, 0x0, 0x0, 0x0, 0x0, 0x0⟩,
    ⟨"LG_RPT_BASE", 0, 0, 0x10, 0x0, 1, 0xFFFFFFFFFFFFFFE0, 0x0, 0x0, 0x0, 0x0, 0x0, 0x0⟩,
    ⟨"LG_RPT_CFG", 0, 0, 0x18, 0x0, 1, 0x3FFF0F, 0x0, 0x0, 0x0, 0x0, 0x0, 0x0⟩,
    ⟨"LG_RPT_HEAD", 0, 0, 0x20, 0x0, 1, 0x0, 0x0, 0x0, 0x0, 0x0, 0xFFFFFFFF, 0x0⟩,
    ⟨"LG_COUNT", 0, 0, 0x28, 0x0, 1, 0x0, 0x0, 0x0, 0x0, 0xFFFFFFFFFFFFFFFF, 0x0, 0x0⟩,
    ⟨"LG_SENT", 0, 0, 0x30, 0x0, 1, 0x0, 0x0, 0x0, 0x0, 0xFFFFFFFF, 0x0, 0x0⟩,
    ⟨"LG_STORE", 0, 0, 0x38, 0x0, 1, 0x0, 0x0, 0x0, 0x0, 0x0, 0x3FF0007FFFF, 0x0⟩,
    ⟨"LG_TOL_p", 0, 0, 0x40, 0x8, 14, 0x1FFFF, 0x0, 0x0, 0x0, 0x0, 0x0, 0x0⟩ ]

/-- The registers of unit 0x05. -/
def regTable05 : List RegSpec :=
  [ ⟨"IN_STATUS", 0, 0, 0x0, 0x0, 1, 0x0, 0x0, 0x1, 0x0, 0x0, 0x0, 0x0⟩,
    ⟨"IN_APHY_r", 0, 0, 0x100, 0x8, 16, 0xF, 0x0, 0x0, 0x0, 0xFFFFFFFF00000000, 0x1F0, 0x0⟩,
    ⟨"IN_EPORT_p", 0, 0, 0x200, 0x8, 10, 0x0, 0x0, 0x0, 0x0, 0xFFFFFFFFFFFF0000, 0x0, 0x0⟩,
    ⟨"IN_CANB_b", 0, 0, 0x300, 0x8, 4, 0x10307, 0x0, 0x0, 0x0, 0xFFFFFFFF00000000, 0x20000, 0x0⟩,
    ⟨"IN_SPIB_i", 0, 0, 0x340, 0x8, 2, 0x3, 0x0, 0x0, 0x0, 0xFFFF000000000000, 0x0, 0x0⟩,
    ⟨"IN_SCFG_s", 0, 0, 0x1000, 0x80, 32, 0xFFFE0001, 0x0, 0x0, 0x0, 0x0, 0x0, 0x0⟩,
    ⟨"IN_CAM_s", 0, 0, 0x1008, 0x80, 32, 0xFFFFFFFF0000FFFF, 0x0, 0x0, 0x0, 0x0, 0x0, 0x0⟩,
    ⟨"IN_TRIG_s", 0, 0, 0x1010, 0x80, 32, 0xFFFFFFFFFFFFFFFF, 0x0, 0x0, 0x0, 0x0, 0x0, 0x0⟩,
    ⟨"IN_ADJ_s", 0, 0, 0x1018, 0x80, 32, 0xFFFFFFFF, 0x0, 0x0, 0x0, 0x0, 0x0, 0x0⟩,
    ⟨"IN_ETH_s", 0, 0, 0x1020, 0x80, 32, 0xFFFFFFFF0FFFFFFF, 0x0, 0x0, 0x0, 0x0, 0x0, 0xFFF0000⟩,
    ⟨"IN_CAN_s", 0, 0, 0x1028, 0x80, 32, 0x1FFFFFFF9FFFFFFF, 0x0, 0x0, 0x0, 0x0, 0x0, 0x0⟩,
    ⟨"IN_SPI_s", 0, 0, 0x1030, 0x80, 32, 0x3F03FF0001FF, 0x0, 0x0, 0x0, 0x0, 0x0, 0x0⟩,
    ⟨"IN_LBASE_s", 0, 0, 0x1038, 0x80, 32, 0xFFFFFFFFFFFFFFC0, 0x0, 0x0, 0x0, 0x0, 0x0, 0x0⟩,
    ⟨"IN_LSIZE_s", 0, 0, 0x1040, 0x80, 32, 0xFFFFFFFF0000001F, 0x0, 0x0, 0x0, 0x0, 0x0, 0x0⟩,
    ⟨"IN_LPTR_s", 0, 0, 0x1048, 0x80, 32, 0xFFFFFFFF00000000, 0x0, 0x0, 0x0, 0x0, 0xFFFFFFFF, 0x0⟩,
    ⟨"IN_SSTAT_s", 0, 0, 0x1050, 0x80, 32, 0x0, 0x0, 0x0, 0x0, 0xFFFFFFFFFFFFFFFF, 0x0, 0x0⟩,
    ⟨"IN_SCHAIN_s", 0, 0, 0x1058, 0x80, 32, 0x0, 0x0, 0x0, 0x0, 0x0, 0xFFFFFFFF, 0x0⟩,
    ⟨"IN_RACE_s", 0, 0, 0x1060, 0x80, 32, 0x0, 0x0, 0x0, 0x0, 0x0, 0x1FF01FF01FF, 0x0⟩ ]

/-- The registers of unit 0x06. -/
def regTable06 : List RegSpec :=
  [ ⟨"TR_CTRL", 0, 0, 0x0, 0x0, 1, 0x1, 0x0, 0x8, 0x0, 0x0, 0x0, 0x0⟩,
    ⟨"TR_FRAME", 0, 0, 0x8, 0x0, 1, 0xFFFFFFFFFFFFFFFF, 0x0, 0x0, 0x0, 0x0, 0x0, 0x1312D00007A1200⟩,
    ⟨"TR_PHASE", 0, 0, 0x10, 0x0, 1, 0xFFFFFFFF, 0x0, 0x0, 0x0, 0x0, 0x0, 0x0⟩,
    ⟨"TR_REV", 0, 0, 0x18, 0x0, 1, 0xFFFFFFFF, 0x0, 0x0, 0x0, 0x0, 0x0, 0x0⟩,
    ⟨"TR_OBASE_c", 0, 0, 0x20, 0x10, 4, 0xFFFFFFFFFFFFF000, 0x0, 0x0, 0x0, 0x0, 0x0, 0x0⟩,
    ⟨"TR_OCFG_c", 0, 0, 0x28, 0x10, 4, 0xFFFE1F, 0x0, 0x0, 0x0, 0x0, 0x0, 0x0⟩,
    ⟨"TR_SEQ", 0, 0, 0x60, 0x0, 1, 0x0, 0x0, 0x0, 0x0, 0x0, 0xFFFFFFFF, 0x0⟩,
    ⟨"TR_SCFG_s", 0, 0, 0x1000, 0x40, 32, 0xF01F03, 0x0, 0x0, 0x0, 0x0, 0x0, 0x0⟩,
    ⟨"TR_STIME_s", 0, 0, 0x1008, 0x40, 32, 0xFFFFFFFFF000FFFF, 0x0, 0x0, 0x0, 0x0, 0x0, 0x30000000⟩,
    ⟨"TR_SSTAT_s", 0, 0, 0x1010, 0x40, 32, 0x0, 0x0, 0x0, 0x0, 0x0, 0x31F, 0x0⟩,
    ⟨"TR_SFILT_s", 0, 0, 0x1018, 0x40, 32, 0x0, 0x0, 0x0, 0x0, 0x0, 0xFFFFFFFFFFFFFFFF, 0x0⟩,
    ⟨"TR_SCNT_s", 0, 0, 0x1020, 0x40, 32, 0x0, 0x0, 0x0, 0x0, 0xFFFFFFFFFFFFFFFF, 0x0, 0x0⟩,
    ⟨"TR_SCNT2_s", 0, 0, 0x1028, 0x40, 32, 0x0, 0x0, 0x0, 0x0, 0xFFFFFFFFFFFF0000, 0x0, 0x0⟩ ]

/-- The registers of unit 0x07. -/
def regTable07 : List RegSpec :=
  [ ⟨"GT_CTRL", 0, 0, 0x0, 0x0, 1, 0x1, 0x0, 0x4, 0x0, 0x0, 0x0, 0x0⟩,
    ⟨"GT_PER", 0, 0, 0x8, 0x0, 1, 0xFFFFFFFFFFFFFFFF, 0x0, 0x0, 0x0, 0x0, 0x0, 0x7A12000030D40⟩,
    ⟨"GT_PHASE", 0, 0, 0x10, 0x0, 1, 0xFFFFFFFF, 0x0, 0x0, 0x0, 0x0, 0x0, 0x0⟩,
    ⟨"GT_IN", 0, 0, 0x18, 0x0, 1, 0xFFFFFFFF009F009F, 0x0, 0x0, 0x0, 0x0, 0x0, 0x0⟩,
    ⟨"GT_VEH", 0, 0, 0x20, 0x0, 1, 0xFFFFFFFF, 0x0, 0x0, 0x0, 0x0, 0x0, 0x0⟩,
    ⟨"GT_GAIN", 0, 0, 0x28, 0x0, 1, 0xFFFFFFFF00000F0F, 0x0, 0x0, 0x0, 0x0, 0x0, 0x4E2000000403⟩,
    ⟨"GT_BIAS0", 0, 0, 0x30, 0x0, 1, 0xFFFFFFFFFFFFFFFF, 0x0, 0x0, 0x0, 0x0, 0x0, 0x0⟩,
    ⟨"GT_BIAS1", 0, 0, 0x38, 0x0, 1, 0xFFFFFFFFFFFFFFFF, 0x0, 0x0, 0x0, 0x0, 0x0, 0x3F80000000000000⟩,
    ⟨"GT_HIST", 0, 0, 0x40, 0x0, 1, 0xFFFFFFFFFFFE0000, 0x0, 0x0, 0x0, 0x0, 0x0, 0x0⟩,
    ⟨"GT_SEQ", 0, 0, 0x48, 0x0, 1, 0x0, 0x0, 0x0, 0x0, 0x0, 0xFFFFFFFF, 0x0⟩,
    ⟨"GT_CNT", 0, 0, 0x50, 0x0, 1, 0x0, 0x0, 0x0, 0x0, 0xFFFFFFFFFFFFFFFF, 0x0, 0x0⟩ ]

/-- The registers of unit 0x08. -/
def regTable08 : List RegSpec :=
  [ ⟨"PL_CTRL", 0, 0, 0x0, 0x0, 1, 0x1, 0x0, 0x2, 0x0, 0x0, 0x4, 0x0⟩,
    ⟨"PL_TBASE", 0, 0, 0x8, 0x0, 1, 0xFFFFFFFFFFF00000, 0x0, 0x0, 0x0, 0x0, 0x0, 0x300000000000⟩,
    ⟨"PL_OPENT", 0, 0, 0x10, 0x0, 1, 0x0, 0x0, 0x0, 0x0, 0x0, 0xFFFFFFFFFFFFFFFF, 0x0⟩,
    ⟨"PL_LIVE", 0, 0, 0x18, 0x0, 1, 0x0, 0x0, 0x0, 0x0, 0x0, 0xFFFFFFFFFFFFFFFF, 0x0⟩,
    ⟨"PL_THIN", 0, 0, 0x20, 0x0, 1, 0xFFFFFFFF, 0x0, 0x0, 0x0, 0x0, 0x0, 0xEA60⟩,
    ⟨"PL_CNT", 0, 0, 0x28, 0x0, 1, 0x0, 0x0, 0x0, 0x0, 0xFFFFFFFFFFFFFFFF, 0x0, 0x0⟩ ]

/-- The registers of unit 0x09. -/
def regTable09 : List RegSpec :=
  [ ⟨"PT_CTRL", 0, 0, 0x0, 0x0, 1, 0x1, 0x0, 0x8, 0x0, 0x0, 0x6, 0x0⟩,
    ⟨"PT_GEOM", 0, 0, 0x8, 0x0, 1, 0xFFFFFFFFFFFF07FF, 0x0, 0x0, 0x0, 0x0, 0x0, 0x200020000C80000⟩,
    ⟨"PT_ORIGIN", 0, 0, 0x10, 0x0, 1, 0xFFFFFFFFFFFFFFFF, 0x0, 0x0, 0x0, 0x0, 0x0, 0xFFFF3800FFFF3800⟩,
    ⟨"PT_TIME", 0, 0, 0x18, 0x0, 1, 0xFFFFFFFFFFFFFFFF, 0x0, 0x0, 0x0, 0x0, 0x0, 0xE4E1C000DD40A0⟩,
    ⟨"PT_SLICE", 0, 0, 0x20, 0x0, 1, 0xFFFF, 0x0, 0x0, 0x0, 0x0, 0x0, 0x64⟩,
    ⟨"PT_TRACK", 0, 0, 0x28, 0x0, 1, 0xFFFFFFFF, 0x0, 0x0, 0x0, 0x0, 0x0, 0x7D0⟩,
    ⟨"PT_HBASE_h", 0, 0, 0x40, 0x8, 2, 0xFFFFFFFFFFFFFFC0, 0x0, 0x0, 0x0, 0x0, 0x0, 0x0⟩,
    ⟨"PT_RXBASE_h", 0, 0, 0x50, 0x8, 2, 0xFFFFFFFFFFFFFFC0, 0x0, 0x0, 0x0, 0x0, 0x0, 0x0⟩,
    ⟨"PT_PBASE_b", 0, 0, 0x60, 0x8, 2, 0xFFFFFFFFFFFFFFC0, 0x0, 0x0, 0x0, 0x0, 0x0, 0x0⟩,
    ⟨"PT_EPOCH", 0, 0, 0x70, 0x0, 1, 0x0, 0x0, 0x0, 0x0, 0x0, 0xFFFFFFFFFFFFFFFF, 0x0⟩,
    ⟨"PT_CNT", 0, 0, 0x78, 0x0, 1, 0x0, 0x0, 0x0, 0x0, 0xFFFFFFFFFFFFFFFF, 0x0, 0x0⟩,
    ⟨"PT_CNT2", 0, 0, 0x80, 0x0, 1, 0x0, 0x0, 0x0, 0x0, 0xFFFFFFFFFFFFFFFF, 0x0, 0x0⟩,
    ⟨"PT_OBASE_c", 0, 0, 0x90, 0x10, 4, 0xFFFFFFFFFFFFFE00, 0x0, 0x0, 0x0, 0x0, 0x0, 0x0⟩,
    ⟨"PT_OCFG_c", 0, 0, 0x98, 0x10, 4, 0x3FFF1F, 0x0, 0x0, 0x0, 0x0, 0x0, 0x0⟩,
    ⟨"PT_LAYER_l", 0, 0, 0x100, 0x8, 16, 0xFF, 0x0, 0x0, 0x0, 0x0, 0x0, 0x3⟩ ]

/-- The registers of unit 0x0A. -/
def regTable0A : List RegSpec :=
  [ ⟨"TV_CTRL", 0, 0, 0x0, 0x0, 1, 0x1, 0x0, 0x8, 0x0, 0x0, 0x6, 0x0⟩,
    ⟨"TV_RMAP", 0, 0, 0x8, 0x0, 1, 0xFFFFFFFFFFFFF000, 0x0, 0x0, 0x0, 0x0, 0x1, 0x0⟩,
    ⟨"TV_RSIZE", 0, 0, 0x10, 0x0, 1, 0x0, 0x0, 0x0, 0x0, 0x0, 0xFFFFFFFFFFFFFFFF, 0x0⟩,
    ⟨"TV_DYN", 0, 0, 0x18, 0x0, 1, 0xFFFFFFFFFFFFF000, 0x0, 0x0, 0x0, 0x0, 0x0, 0x0⟩,
    ⟨"TV_DCAP", 0, 0, 0x20, 0x0, 1, 0xFFFFFFFFFFFFFFFF, 0x0, 0x0, 0x0, 0x0, 0x0, 0x0⟩,
    ⟨"TV_DUSE", 0, 0, 0x28, 0x0, 1, 0x0, 0x0, 0x0, 0x0, 0x0, 0xFFFFFFFFFFFFFFFF, 0x0⟩,
    ⟨"TV_CMAP", 0, 0, 0x30, 0x0, 1, 0xFFFFFFFFFFFFFFC0, 0x0, 0x0, 0x0, 0x0, 0x0, 0x0⟩,
    ⟨"TV_CMSIZE", 0, 0, 0x38, 0x0, 1, 0xFFFFFFFF, 0x0, 0x0, 0x0, 0x0, 0x0, 0x0⟩,
    ⟨"TV_PIN", 0, 0, 0x40, 0x0, 1, 0x0, 0x0, 0x0, 0x0, 0x0, 0xFFFFFFFFFFFFFFFF, 0x0⟩,
    ⟨"TV_PBASE_b", 0, 0, 0x48, 0x8, 2, 0xFFFFFFFFFFFFFFC0, 0x0, 0x0, 0x0, 0x0, 0x0, 0x0⟩,
    ⟨"TV_MBASE_b", 0, 0, 0x58, 0x8, 2, 0xFFFFFFFFFFFFFFC0, 0x0, 0x0, 0x0, 0x0, 0x0, 0x0⟩,
    ⟨"TV_MRS", 0, 0, 0x68, 0x0, 1, 0xFFFFFFFFFFFFFFFF, 0x0, 0x0, 0x0, 0x0, 0x0, 0x12C01F4003203E8⟩,
    ⟨"TV_SEQ", 0, 0, 0x70, 0x0, 1, 0x0, 0x0, 0x0, 0x0, 0x0, 0xFFFFFFFFFFFFFFFF, 0x0⟩,
    ⟨"TV_CHAIN", 0, 0, 0x78, 0x0, 1, 0x0, 0x0, 0x0, 0x0, 0x0, 0x1FFF, 0x1000⟩,
    ⟨"TV_CNT", 0, 0, 0x80, 0x0, 1, 0x0, 0x0, 0x0, 0x0, 0xFFFFFFFFFFFFFFFF, 0x0, 0x0⟩,
    ⟨"TV_CNT2", 0, 0, 0x88, 0x0, 1, 0x0, 0x0, 0x0, 0x0, 0xFFFFFFFFFFFFFFFF, 0x0, 0x0⟩,
    ⟨"TV_PASSES", 0, 0, 0x90, 0x0, 1, 0x0, 0x0, 0x0, 0x0, 0xFFFFFFFFFFFFFFFF, 0x0, 0x0⟩ ]

/-- The registers of unit 0x0B. -/
def regTable0B : List RegSpec :=
  [ ⟨"BR_CTRL", 0, 0, 0x0, 0x0, 1, 0x1, 0x0, 0x4, 0x0, 0x0, 0x2, 0x0⟩,
    ⟨"BR_IMG_i", 0, 0, 0x8, 0x8, 8, 0xFFFFFFFFFFFFF000, 0x0, 0x0, 0x0, 0x0, 0x1, 0x0⟩,
    ⟨"BR_SSIG_s", 0, 0, 0x48, 0x18, 4, 0x0, 0x0, 0x0, 0x0, 0x0, 0xFFFFFFFFFFFFFFFF, 0x0⟩,
    ⟨"BR_SSTAT_s", 0, 0, 0x50, 0x18, 4, 0x0, 0x0, 0x0, 0x0, 0x0, 0xFFFFFFFFFF000007, 0x0⟩,
    ⟨"BR_STIME_s", 0, 0, 0x58, 0x18, 4, 0x0, 0x0, 0x0, 0x0, 0x0, 0xFFFFFFFFFFFFFFFF, 0x0⟩,
    ⟨"BR_CNT", 0, 0, 0xA8, 0x0, 1, 0x0, 0x0, 0x0, 0x0, 0xFFFFFFFFFFFFFFFF, 0x0, 0x0⟩,
    ⟨"BR_CNT2", 0, 0, 0xB0, 0x0, 1, 0x0, 0x0, 0x0, 0x0, 0xFFFFFFFFFFFF0000, 0x0, 0x0⟩,
    ⟨"BR_WORK", 0, 0, 0xB8, 0x0, 1, 0x0, 0x0, 0x0, 0x0, 0x0, 0xFFFFFFFF, 0x0⟩ ]

/-- The registers of unit 0x0C. -/
def regTable0C : List RegSpec :=
  [ ⟨"OR_CTRL", 0, 1, 0x0, 0x0, 1, 0x1, 0x0, 0x2, 0x0, 0x0, 0x0, 0x0⟩,
    ⟨"OR_TALLY", 0, 1, 0x8, 0x0, 1, 0x0, 0x0, 0x0, 0x0, 0xFFFFFFFFFFFFFFFF, 0x0, 0x0⟩,
    ⟨"OR_CNT", 0, 1, 0x10, 0x0, 1, 0x0, 0x0, 0x0, 0x0, 0xFFFFFFFFFFFFFFFF, 0x0, 0x0⟩,
    ⟨"OR_HELD", 0, 1, 0x18, 0x0, 1, 0x0, 0x0, 0x0, 0x0, 0x0, 0xFFFFFFFF, 0x0⟩,
    ⟨"OR_CLS_c", 0, 1, 0x100, 0x40, 4, 0xFFFF00FF, 0x0, 0x0, 0x0, 0x0, 0x0, 0x0⟩,
    ⟨"OR_NBASE_c", 0, 1, 0x108, 0x40, 4, 0xFFFFFFFFFFFFFFF8, 0x0, 0x0, 0x0, 0x0, 0x0, 0x0⟩,
    ⟨"OR_FBASE_c", 0, 1, 0x110, 0x40, 4, 0xFFFFFFFFFFFFFFF8, 0x0, 0x0, 0x0, 0x0, 0x0, 0x0⟩,
    ⟨"OR_NPUSH_c", 0, 1, 0x118, 0x40, 4, 0x0, 0xFFFFFFFFFFFFFFFF, 0x0, 0x0, 0x0, 0x0, 0x0⟩,
    ⟨"OR_FPUSH_c", 0, 1, 0x120, 0x40, 4, 0x0, 0xFFFFFFFFFFFFFFFF, 0x0, 0x0, 0x0, 0x0, 0x0⟩,
    ⟨"OR_NSTAT_c", 0, 1, 0x128, 0x40, 4, 0x0, 0x0, 0x0, 0x0, 0x0, 0xFFFFFFFFFFFFFFFF, 0x0⟩,
    ⟨"OR_FSTAT_c", 0, 1, 0x130, 0x40, 4, 0x0, 0x0, 0x0, 0x0, 0x0, 0xFFFFFFFFFFFFFFFF, 0x0⟩ ]

/-- The registers of unit 0x0D. -/
def regTable0D : List RegSpec :=
  [ ⟨"RL_STATE", 0, 7, 0x0, 0x0, 1, 0x0, 0x0, 0x0, 0x0, 0x0, 0x1, 0x0⟩,
    ⟨"RL_CNT", 0, 7, 0x8, 0x0, 1, 0x0, 0x0, 0x0, 0x0, 0xFFFFFFFF00000000, 0x0, 0x0⟩,
    ⟨"RL_LAST", 0, 7, 0x10, 0x0, 1, 0x0, 0x0, 0x0, 0x0, 0x0, 0xFFFFFFFF0000003F, 0x0⟩ ]

/-- The registers of unit 0x0E. -/
def regTable0E : List RegSpec :=
  [ ⟨"DR_STATE", 0, 23, 0x0, 0x0, 1, 0x0, 0x0, 0x0, 0x0, 0x0, 0x7, 0x0⟩,
    ⟨"DR_VET", 0, 23, 0x8, 0x0, 1, 0x0, 0x0, 0x0, 0x0, 0xFFFFFFFFFFFFFFFF, 0x0, 0x0⟩,
    ⟨"DR_VET_WHERE", 0, 23, 0x10, 0x0, 1, 0x0, 0x0, 0x0, 0x0, 0x0, 0xFFFFFFFFFFFFFFFF, 0x0⟩,
    ⟨"DR_VET_POS", 0, 23, 0x18, 0x0, 1, 0x0, 0x0, 0x0, 0x0, 0x0, 0x3F0000017F, 0x0⟩,
    ⟨"DR_VET_DELTA", 0, 23, 0x20, 0x0, 1, 0x0, 0x0, 0x0, 0x0, 0x0, 0xFFFFFFFFFFFFFFFF, 0x0⟩,
    ⟨"DR_MANGER", 0, 23, 0x28, 0x0, 1, 0x0, 0x0, 0x0, 0x0, 0xFFFFFFFF00000000, 0x0, 0x0⟩ ]

/-- The registers of unit 0x0F. -/
def regTable0F : List RegSpec :=
  [ ⟨"ST_STATE", 0, 3, 0x0, 0x0, 1, 0x0, 0x0, 0x0, 0x0, 0x0, 0x3, 0x0⟩,
    ⟨"ST_CHK", 0, 3, 0x8, 0x0, 1, 0x0, 0x0, 0x0, 0x0, 0xFFFFFFFFFFFFFFFF, 0x0, 0x0⟩,
    ⟨"ST_WHERE", 0, 3, 0x10, 0x0, 1, 0x0, 0x0, 0x0, 0x0, 0x0, 0xFFFFFFFFFFFFFFFF, 0x0⟩,
    ⟨"ST_WHERE2", 0, 3, 0x18, 0x0, 1, 0x0, 0x0, 0x0, 0x0, 0x0, 0x3F0000017F, 0x0⟩,
    ⟨"ST_DELTA", 0, 3, 0x20, 0x0, 1, 0x0, 0x0, 0x0, 0x0, 0x0, 0xFFFFFFFFFFFFFFFF, 0x0⟩,
    ⟨"ST_SRAM", 0, 3, 0x28, 0x0, 1, 0x0, 0x0, 0x0, 0x0, 0xFFFFFFFF00000000, 0x0, 0x0⟩,
    ⟨"ST_CNT", 0, 3, 0x30, 0x0, 1, 0x0, 0x0, 0x0, 0x0, 0xFFFFFFFF00000000, 0x0, 0x0⟩ ]

/-- The registers of unit 0x10. -/
def regTable10 : List RegSpec :=
  [ ⟨"GR_STATE", 0, 111, 0x0, 0x0, 1, 0x0, 0x0, 0x0, 0x0, 0x0, 0xFF0703, 0x202⟩,
    ⟨"GR_ROLE", 0, 111, 0x8, 0x0, 1, 0x0, 0x0, 0x0, 0x0, 0x0, 0xFFFFFFFF, 0x0⟩,
    ⟨"GR_CTRL", 0, 111, 0x10, 0x0, 1, 0x0, 0x3, 0x0, 0x0, 0x0, 0x0, 0x0⟩,
    ⟨"GR_BOOT", 0, 111, 0x18, 0x0, 1, 0xFFFFFFFFFFFFFFFC, 0x0, 0x0, 0x0, 0x0, 0x0, 0x8000000000000000⟩,
    ⟨"GR_MSGCNT", 0, 111, 0x20, 0x0, 1, 0x0, 0x0, 0x0, 0x0, 0xFFFFFFFFFFFFFFFF, 0x0, 0x0⟩ ]

/-- The registers of unit 0x11. -/
def regTable11 : List RegSpec :=
  [ ⟨"TE_VALUE_t", 0, 0, 0x0, 0x8, 8192, 0xFFFFFFFFFFFFFFFF, 0x0, 0x0, 0x0, 0x0, 0x0, 0x0⟩,
    ⟨"TE_ADD_t", 1, 1, 0x0, 0x8, 8192, 0x0, 0xFFFFFFFFFFFFFFFF, 0x0, 0x0, 0x0, 0x0, 0x0⟩ ]

/-- The registers of unit 0x12. -/
def regTable12 : List RegSpec :=
  [ ⟨"CQ_CFG", 0, 63, 0x0, 0x0, 1, 0xF0F, 0x0, 0x0, 0x0, 0x0, 0x0, 0x7⟩,
    ⟨"CQ_RING", 0, 63, 0x8, 0x0, 1, 0xFFFFFFFFFFFFFFC0, 0x0, 0x0, 0x0, 0x0, 0x0, 0x0⟩,
    ⟨"CQ_CPL", 0, 63, 0x10, 0x0, 1, 0xFFFFFFFFFFFFFFE0, 0x0, 0x0, 0x0, 0x0, 0x0, 0x0⟩,
    ⟨"CQ_TAIL", 0, 63, 0x18, 0x0, 1, 0xFFFFFFFF, 0x0, 0x0, 0x0, 0x0, 0x0, 0x0⟩,
    ⟨"CQ_HEAD", 0, 63, 0x20, 0x0, 1, 0x0, 0x0, 0x0, 0x0, 0x0, 0xFFFFFFFF, 0x0⟩,
    ⟨"CQ_CPLREAD", 0, 63, 0x28, 0x0, 1, 0xFFFFFFFF, 0x0, 0x0, 0x0, 0x0, 0x0, 0x0⟩,
    ⟨"CQ_STAT", 0, 63, 0x30, 0x0, 1, 0x0, 0x0, 0x2, 0x0, 0xFFFFFFFF00000000, 0x1, 0x0⟩,
    ⟨"CQ_INFLIGHT", 64, 64, 0x0, 0x0, 1, 0x0, 0x0, 0x0, 0x0, 0x0, 0x3FFF, 0x0⟩,
    ⟨"CQ_CEILING", 64, 64, 0x8, 0x0, 1, 0x0, 0x0, 0x0, 0x0, 0xFFFF, 0x0, 0x0⟩,
    ⟨"CQ_RAGGED", 64, 64, 0x10, 0x0, 1, 0x0, 0x0, 0x0, 0x0, 0xFFFFFFFF00000000, 0x3FFF, 0x0⟩ ]

/-- The registers of unit 0x13. -/
def regTable13 : List RegSpec :=
  [ ⟨"PM_CTRL", 1, 255, 0x0, 0x0, 1, 0xFC1, 0x0, 0x20, 0x0, 0x0, 0xF000, 0x8000⟩,
    ⟨"PM_CYCLES", 1, 255, 0x8, 0x0, 1, 0xFFFFFFFFFFFFFFFF, 0x0, 0x0, 0x0, 0x0, 0x0, 0x0⟩,
    ⟨"PM_SLOT_k", 1, 255, 0x10, 0x8, 4, 0xFFFFFFFFFFFFFFFF, 0x0, 0x0, 0x0, 0x0, 0x0, 0x0⟩,
    ⟨"PM_EVSEL_i", 1, 255, 0x40, 0x8, 8, 0xFFFFF, 0x0, 0x0, 0x0, 0x0, 0x0, 0x0⟩,
    ⟨"PM_COUNT_i", 1, 255, 0x80, 0x8, 8, 0xFFFFFFFFFFFFFFFF, 0x0, 0x0, 0x0, 0x0, 0x0, 0x0⟩,
    ⟨"PM_FPL", 1, 255, 0xC0, 0x0, 1, 0x7, 0x0, 0x0, 0x0, 0x0, 0x0, 0x7⟩,
    ⟨"PM_FMID", 1, 255, 0xC8, 0x0, 1, 0xFFF0FFF, 0x0, 0x0, 0x0, 0x0, 0x0, 0x0⟩,
    ⟨"PM_FCLASS", 1, 255, 0xD0, 0x0, 1, 0xFF, 0x0, 0x0, 0x0, 0x0, 0x0, 0xFF⟩,
    ⟨"PM_FLO", 1, 255, 0xD8, 0x0, 1, 0xFFFFFFFFFFFFFFFF, 0x0, 0x0, 0x0, 0x0, 0x0, 0x0⟩,
    ⟨"PM_FHI", 1, 255, 0xE0, 0x0, 1, 0xFFFFFFFFFFFFFFFF, 0x0, 0x0, 0x0, 0x0, 0x0, 0xFFFFFFFFFFFFFFFF⟩,
    ⟨"PM_TAG", 1, 255, 0xE8, 0x0, 1, 0xFFFFFFFFFFFFFFFF, 0x0, 0x0, 0x0, 0x0, 0x0, 0x180001000⟩,
    ⟨"PM_DCFG", 0, 0, 0x0, 0x0, 1, 0x1F1F, 0x0, 0x0, 0x0, 0x0, 0x0, 0xA00⟩,
    ⟨"PM_DBASE", 0, 0, 0x8, 0x0, 1, 0xFFFFFFFFFFFFFFC0, 0x0, 0x0, 0x0, 0x0, 0x0, 0x0⟩,
    ⟨"PM_DSEQ", 0, 0, 0x10, 0x0, 1, 0x0, 0x0, 0x0, 0x0, 0x0, 0xFFFFFFFFFFFFFFFF, 0x0⟩,
    ⟨"PM_DCNT", 0, 0, 0x18, 0x0, 1, 0x0, 0x0, 0x1, 0x0, 0xFFFF000000000000, 0x0, 0x0⟩,
    ⟨"PM_TBASE", 0, 0, 0x20, 0x0, 1, 0xFFFFFFFFFFFFFFC0, 0x0, 0x0, 0x0, 0x0, 0x0, 0x0⟩,
    ⟨"PM_TCFG", 0, 0, 0x28, 0x0, 1, 0x3FFF0F, 0x0, 0x0, 0x0, 0x0, 0x0, 0x0⟩,
    ⟨"PM_TCNT", 0, 0, 0x30, 0x0, 1, 0x0, 0x0, 0x0, 0x0, 0xFFFFFFFF00000000, 0x0, 0x0⟩ ]

/-- The registers of unit 0x14. -/
def regTable14 : List RegSpec :=
  [ ⟨"KP_STATE", 0, 0, 0x0, 0x0, 1, 0x0, 0x0, 0x20, 0x0, 0x0, 0x3D8, 0x0⟩,
    ⟨"KP_VREQ", 0, 0, 0x8, 0x0, 1, 0x0, 0xFF, 0x0, 0x0, 0x0, 0x0, 0x0⟩,
    ⟨"KP_VSTAT", 0, 0, 0x10, 0x0, 1, 0x0, 0x0, 0x0, 0x0, 0x0, 0xFFFF01, 0x0⟩,
    ⟨"KP_VCFG", 0, 0, 0x18, 0x0, 1, 0x3FFF00, 0x0, 0x0, 0x0, 0x0, 0x0, 0x0⟩,
    ⟨"KP_ROLL", 0, 0, 0x20, 0x0, 1, 0x0, 0xFFFF, 0x0, 0x0, 0x0, 0x0, 0x0⟩,
    ⟨"KP_ROLLCNT", 0, 0, 0x28, 0x0, 1, 0x0, 0x0, 0x0, 0x0, 0x0, 0x3FFFFFFFFFF, 0x0⟩,
    ⟨"KP_IDPUB_w", 0, 0, 0x40, 0x8, 8, 0x0, 0x0, 0x0, 0x0, 0x0, 0xFFFFFFFFFFFFFFFF, 0x0⟩,
    ⟨"KP_DEVICE_w", 0, 0, 0x80, 0x8, 2, 0x0, 0x0, 0x0, 0x0, 0x0, 0xFFFFFFFFFFFFFFFF, 0x0⟩,
    ⟨"KP_OWNER_w", 0, 0, 0x90, 0x8, 8, 0x0, 0xFFFFFFFFFFFFFFFF, 0x0, 0x0, 0x0, 0x0, 0x0⟩,
    ⟨"KP_GRAPH_g", 0, 0, 0xD0, 0x8, 16, 0xFFFFFFFFFFFFF000, 0x0, 0x0, 0x0, 0x0, 0x1, 0x0⟩,
    ⟨"KP_NONCE_w", 0, 0, 0x150, 0x8, 4, 0xFFFFFFFFFFFFFFFF, 0x0, 0x0, 0x0, 0x0, 0x0, 0x0⟩,
    ⟨"KP_QREQ", 0, 0, 0x170, 0x0, 1, 0x0, 0xFFFFFFFFFFFFFFC0, 0x0, 0x0, 0x0, 0x0, 0x0⟩,
    ⟨"KP_QSTAT", 0, 0, 0x178, 0x0, 1, 0x0, 0x0, 0x0, 0x0, 0x0, 0xFFFFFFFF00000001, 0x0⟩,
    ⟨"KP_DCHAL_w", 0, 0, 0x180, 0x8, 4, 0x0, 0x0, 0x0, 0x0, 0x0, 0xFFFFFFFFFFFFFFFF, 0x0⟩,
    ⟨"KP_DTOK_w", 0, 0, 0x1A0, 0x8, 15, 0x0, 0xFFFFFFFFFFFFFFFF, 0x0, 0x0, 0x0, 0x0, 0x0⟩,
    ⟨"KP_HOBBLE", 0, 0, 0x218, 0x0, 1, 0x0, 0xFFFF, 0x0, 0x0, 0x0, 0x0, 0x0⟩,
    ⟨"KP_CNT", 0, 0, 0x220, 0x0, 1, 0x0, 0x0, 0x0, 0x0, 0xFFFFFFFFFFFF0000, 0x0, 0x0⟩ ]

/-- The registers of unit 0x15. -/
def regTable15 : List RegSpec :=
  [ ⟨"FT_STATE", 0, 0, 0x0, 0x0, 1, 0x0, 0x0, 0x0, 0x0, 0x0, 0xFF01, 0x0⟩,
    ⟨"FT_ERR", 0, 0, 0x8, 0x0, 1, 0x0, 0x0, 0x0, 0x0, 0xFFFFFFFFFFFFFFFF, 0x0, 0x0⟩,
    ⟨"FT_BAD", 0, 0, 0x10, 0x0, 1, 0x0, 0x0, 0x0, 0x0, 0x0, 0xFFFFFFFFFFFFFFFF, 0x0⟩,
    ⟨"FT_SCRUB", 0, 0, 0x18, 0x0, 1, 0xFF, 0x0, 0x0, 0x0, 0x0, 0x0, 0x18⟩ ]

/-- The registers of unit 0x16. -/
def regTable16 : List RegSpec :=
  [ ⟨"NT_STATE", 0, 3, 0x0, 0x0, 1, 0x0, 0x0, 0x0, 0x0, 0x0, 0xFF00FF03, 0x0⟩,
    ⟨"NT_ERR", 0, 3, 0x8, 0x0, 1, 0x0, 0x0, 0x0, 0x0, 0xFFFFFFFFFFFFFFFF, 0x0, 0x0⟩,
    ⟨"NT_BAD", 0, 3, 0x10, 0x0, 1, 0x0, 0x0, 0x0, 0x0, 0x0, 0xFFFFFFFFFFFFFFFF, 0x0⟩,
    ⟨"NT_MAP", 0, 0, 0x18, 0x0, 1, 0xFF, 0x0, 0x20000, 0x10000, 0x0, 0x0, 0x0⟩ ]

/-- The registers of unit 0x17. -/
def regTable17 : List RegSpec :=
  [ ⟨"ET_SEC", 0, 9, 0x100, 0x0, 1, 0xF, 0x0, 0x20, 0x0, 0x0, 0x10, 0x4⟩,
    ⟨"ET_SECWIN", 0, 9, 0x108, 0x0, 1, 0xFFFFFFFF, 0x0, 0x0, 0x0, 0x0, 0x0, 0x0⟩,
    ⟨"ET_SECCNT", 0, 9, 0x110, 0x0, 1, 0x0, 0x0, 0x0, 0x0, 0xFFFFFFFFFFFFFFFF, 0x0, 0x0⟩,
    ⟨"ET_PORT", 0, 9, 0x0, 0x0, 1, 0xFFFFFFFFFFFF0003, 0x0, 0x8, 0x0, 0x0, 0x4, 0x0⟩,
    ⟨"HP_CFG", 16, 16, 0x0, 0x0, 1, 0xF03, 0x0, 0x4, 0x0, 0x0, 0x0, 0x0⟩,
    ⟨"HP_ADDR_w", 16, 16, 0x8, 0x8, 2, 0xFFFFFFFFFFFFFFFF, 0x0, 0x0, 0x0, 0x0, 0x0, 0x0⟩,
    ⟨"HP_PEER_n_w", 16, 16, 0x20, 0x8, 8, 0xFFFFFFFFFFFFFFFF, 0x0, 0x0, 0x0, 0x0, 0x0, 0x0⟩,
    ⟨"HP_PORT", 16, 16, 0x60, 0x0, 1, 0xFFFF, 0x0, 0x0, 0x0, 0x0, 0x0, 0x1D9C⟩,
    ⟨"HP_CNT", 16, 16, 0x68, 0x0, 1, 0x0, 0x0, 0x0, 0x0, 0xFFFFFFFFFFFFFFFF, 0x0, 0x0⟩,
    ⟨"HP_SUB", 16, 16, 0x70, 0x0, 1, 0x0, 0x0, 0x0, 0x0, 0x0, 0xFFFF, 0x0⟩,
    ⟨"QP_STATE_q", 17, 17, 0x0, 0x10, 16, 0x0, 0x0, 0x0, 0x0, 0x0, 0xFFFFFFFF00000003, 0x0⟩,
    ⟨"QP_CNT_q", 17, 17, 0x8, 0x10, 16, 0x0, 0x0, 0x0, 0x0, 0xFFFFFFFFFFFF0000, 0x0, 0x0⟩,
    ⟨"MR_BASE_m", 17, 17, 0x100, 0x10, 16, 0x0, 0x0, 0x0, 0x0, 0x0, 0xFFFFFFFFFFFFF007, 0x0⟩,
    ⟨"MR_LEN_m", 17, 17, 0x108, 0x10, 16, 0x0, 0x0, 0x0, 0x0, 0x0, 0xFFFFFFFFFF, 0x0⟩ ]

/-- The registers of unit 0x18. -/
def regTable18 : List RegSpec :=
  [ ⟨"PW_REQ", 0, 0, 0x0, 0x0, 1, 0x3, 0x0, 0x0, 0x0, 0x0, 0x0, 0x0⟩,
    ⟨"PW_STATE", 0, 0, 0x8, 0x0, 1, 0x0, 0x0, 0x200, 0x0, 0x0, 0x1FF, 0x60⟩,
    ⟨"PW_EFFECT", 0, 0, 0x10, 0x0, 1, 0x0, 0x0, 0x0, 0x0, 0x0, 0xFFFFFFFFFFFFFFFF, 0x0⟩,
    ⟨"PW_THERM", 0, 0, 0x18, 0x0, 1, 0xFFFFFF, 0x0, 0x0, 0x0, 0x0, 0xFFFFFF0000000000, 0x415F6E⟩,
    ⟨"PW_IN", 0, 0, 0x20, 0x0, 1, 0x0, 0x0, 0x0, 0x0, 0x0, 0xFFFFFFFF0003FFFF, 0x0⟩,
    ⟨"PW_ENG", 0, 0, 0x28, 0x0, 1, 0x0, 0x0, 0x0, 0x0, 0x0, 0xFFFFFFF, 0x0⟩,
    ⟨"PW_CNT", 0, 0, 0x30, 0x0, 1, 0x0, 0x0, 0x0, 0x0, 0xFFFFFFFFFFFFFFFF, 0x0, 0x0⟩ ]

/-- The registers of a unit (R742). -/
def regTable (unit : Nat) : List RegSpec :=
  match unit with
  | 0x01 => regTable01
  | 0x02 => regTable02
  | 0x03 => regTable03
  | 0x04 => regTable04
  | 0x05 => regTable05
  | 0x06 => regTable06
  | 0x07 => regTable07
  | 0x08 => regTable08
  | 0x09 => regTable09
  | 0x0A => regTable0A
  | 0x0B => regTable0B
  | 0x0C => regTable0C
  | 0x0D => regTable0D
  | 0x0E => regTable0E
  | 0x0F => regTable0F
  | 0x10 => regTable10
  | 0x11 => regTable11
  | 0x12 => regTable12
  | 0x13 => regTable13
  | 0x14 => regTable14
  | 0x15 => regTable15
  | 0x16 => regTable16
  | 0x17 => regTable17
  | 0x18 => regTable18
  | _ => []

end Sys2Proof.Machine
end

