-- ==== Sys2Proof/Machine/Ops.lean ====
section
/-!
DEFINITION. Machine/Ops.lean: the named operations over the state: the sparse lists, the register file, device memory
with poison and protected extents, tethers, Steward events, completion records.
-/
namespace Sys2Proof.Machine

/-! ### Sorted lists of key and value -/

/-- The value at a key, or `d` where the list has none. -/
def alGet {β : Type} (d : β) : List (Nat × β) → Nat → β
  | [], _ => d
  | (k, v) :: r, a => if a = k then v else alGet d r a

/-- The list without a key. -/
def alDel {β : Type} : List (Nat × β) → Nat → List (Nat × β)
  | [], _ => []
  | (k, v) :: r, a => if a = k then alDel r a else (k, v) :: alDel r a

/-- A key put in its place among rising keys. -/
def alIns {β : Type} : List (Nat × β) → Nat → β → List (Nat × β)
  | [], a, b => [(a, b)]
  | (k, v) :: r, a, b => if a < k then (a, b) :: (k, v) :: r else (k, v) :: alIns r a b

/-- The list with a key set, keys kept rising. -/
def alSet {β : Type} (l : List (Nat × β)) (a : Nat) (b : β) : List (Nat × β) := alIns (alDel l a) a b

/-- A write that keeps the canonical form: a value equal to the default is not listed. -/
def alPut {β : Type} [DecidableEq β] (d : β) (l : List (Nat × β)) (a : Nat) (b : β) : List (Nat × β) :=
  if b = d then alDel l a else alSet l a b

/-- The canonical form of a sparse list: keys strictly rising, no value equal to the default. -/
def alWf {β : Type} [DecidableEq β] (d : Nat → β) : List (Nat × β) → Bool
  | [] => true
  | [(k, v)] => decide (v ≠ d k)
  | (k, v) :: (k', v') :: r => decide (v ≠ d k) && decide (k < k') && alWf d ((k', v') :: r)

/-- A number added to a sorted list without repeats. -/
def nsAdd : List Nat → Nat → List Nat
  | [], a => [a]
  | k :: r, a => if a = k then k :: r else if a < k then a :: k :: r else k :: nsAdd r a

/-- A number taken from a sorted list. -/
def nsDel : List Nat → Nat → List Nat
  | [], _ => []
  | k :: r, a => if a = k then nsDel r a else k :: nsDel r a

/-! ### Stores: bytes with poisoned lines (R443) -/

/-- The byte at an address; memory that nothing has written reads 0x00 (DESIGN CHOICE, log entry 3). -/
def Store.get (m : Store) (a : Nat) : Byte := alGet 0 m.cells a

/-- One byte stored, the canonical form kept. -/
def Store.put (m : Store) (a : Nat) (b : Byte) : Store := { m with cells := alPut 0 m.cells a b }

/-- `n` bytes from an address. -/
def Store.bytes (m : Store) (a : Nat) : Nat → List Byte
  | 0 => []
  | n + 1 => m.get a :: m.bytes (a + 1) n

/-- `n` bytes from an address as a little-endian number (R15). -/
def Store.num (m : Store) (a n : Nat) : Nat := fromBytes (m.bytes a n)

/-- Whether any byte of an extent lies in a poisoned line. -/
def Store.poisoned (m : Store) (a n : Nat) : Bool :=
  decide (0 < n) && m.bad.any (fun l => decide (a / 64 ≤ l) && decide (l ≤ (a + n - 1) / 64))

/-- The lines of a set of byte writes, each once. -/
def linesOf (ws : List (Nat × Byte × Bool)) : List Nat :=
  ws.foldl (fun ls w => if ls.head? = some (w.1 / 64) then ls else if ls.contains (w.1 / 64) then ls else w.1 / 64 :: ls) []

/-- The poison of one line after writes (R443): a bad byte poisons it, 64 good bytes clear it, fewer leave it. -/
def lineAfter (ws : List (Nat × Byte × Bool)) (bad : List Nat) (l : Nat) : List Nat :=
  let here := ws.filter (fun w => w.1 / 64 == l)
  if here.any (fun w => w.2.2) then nsAdd bad l
  else if (here.map (fun w => w.1)).eraseDups.length == 64 then nsDel bad l else bad

/-- One command's byte writes: address, byte, and whether the byte is poisoned (R443). -/
def Store.scatter (m : Store) (ws : List (Nat × Byte × Bool)) : Store :=
  let cells := ws.foldl (fun c w => alPut 0 c w.1 w.2.1) m.cells
  { cells := cells, bad := (linesOf ws).foldl (lineAfter ws) m.bad }

/-- Consecutive good bytes as byte writes. -/
def goodAt : Nat → List Byte → List (Nat × Byte × Bool)
  | _, [] => []
  | a, b :: bs => (a, b, false) :: goodAt (a + 1) bs

/-- Consecutive poisoned bytes as byte writes; the stored values are left at 0x00. -/
def badAt (a n : Nat) : List (Nat × Byte × Bool) := (upTo n).map (fun i => (a + i, 0, true))

/-- Every line of an extent poisoned, its bytes as they are. -/
def Store.poisonLines (m : Store) (a n : Nat) : Store :=
  if n = 0 then m else
  { m with bad := (upTo ((a + n - 1) / 64 - a / 64 + 1)).foldl (fun b i => nsAdd b (a / 64 + i)) m.bad }

/-- The canonical form of a store. -/
def Store.wf (m : Store) : Bool := alWf (fun _ => (0 : Byte)) m.cells

/-! ### The parts (R2, R10, R28, R29, R50) -/

/-- Stacks of a side (R28). -/
def Part.stacks : Part → Nat
  | .cjm7480 => 4 | .cjm7460 => 2 | .cjm7420 => 1

/-- Draft dies of a side (R28). -/
def Part.dies : Part → Nat
  | .cjm7480 => 2 | .cjm7460 => 1 | .cjm7420 => 1

/-- Draft engines of a side (R29). -/
def Part.engines : Part → Nat
  | .cjm7480 => 24 | .cjm7460 => 12 | .cjm7420 => 6

/-- Grooms of a side (R29). -/
def Part.grooms : Part → Nat
  | .cjm7480 => 112 | .cjm7460 => 64 | .cjm7420 => 40

/-- Stalls of a side (R29). -/
def Part.stalls : Part → Nat
  | .cjm7480 => 4 | .cjm7460 => 2 | .cjm7420 => 0

/-- NEAR_GB (R10). -/
def Part.nearGB : Part → Nat
  | .cjm7480 => 144 | .cjm7460 => 72 | .cjm7420 => 36

/-- FAR_GB (R10). -/
def Part.farGB : Part → Nat
  | .cjm7480 => 128 | .cjm7460 => 64 | .cjm7420 => 0

/-- Loft of a Draft die in MiB (R2). -/
def Part.loftMiB : Part → Nat
  | .cjm7420 => 48 | _ => 96

/-- Relays of a side (R29). -/
def Part.relays (p : Part) : Nat := 4 * p.dies

/-- The part number of CAP_PART (R8). -/
def Part.number : Part → Nat
  | .cjm7480 => 0x7480 | .cjm7460 => 0x7460 | .cjm7420 => 0x7420

/-- The instances of a unit on a side (R29, R742); those of units 0x13 and 0x17 are not contiguous. -/
def Part.hasInst (p : Part) (unit i : Nat) : Bool :=
  match unit with
  | 0x01 | 0x03 | 0x04 | 0x05 | 0x06 | 0x07 | 0x08 | 0x09 | 0x0A | 0x0B | 0x14 | 0x18 => i == 0
  | 0x02 => decide (i ≤ 3)
  | 0x0C => decide (i < p.dies)
  | 0x0D => decide (i < p.relays)
  | 0x0E => decide (i < p.engines)
  | 0x0F => decide (i < p.stalls)
  | 0x10 => decide (i < p.grooms)
  | 0x11 => decide (i ≤ 1)
  | 0x12 => decide (i ≤ 64)
  | 0x13 => i == 0 || (decide (1 ≤ i) && decide (i < 1 + p.grooms)) || (decide (0x80 ≤ i) && decide (i < 0x80 + p.engines))
      || (decide (0x98 ≤ i) && decide (i < 0x98 + p.stalls)) || (decide (0xA0 ≤ i) && decide (i < 0xA0 + p.relays))
      || (decide (0xA8 ≤ i) && decide (i < 0xA8 + p.dies)) || (decide (0xB0 ≤ i) && decide (i ≤ 0xB7))
      || (decide (0xB8 ≤ i) && decide (i < 0xB8 + p.stacks)) || (i == 0xBC && p.farGB != 0) || i == 0xBD
      || (decide (0xC0 ≤ i) && decide (i ≤ 0xFF))
  | 0x15 => i == 0 && p.farGB != 0
  | 0x16 => decide (i < p.stacks)
  | 0x17 => decide (i ≤ 9) || i == 16 || i == 17
  | _ => false

/-- Whether a register belongs to an optional unit that the part is without: the ragged scheduler (R12, R535), and the far-tier
registers of an Outrider (R493). It reads zero and discards every write. -/
def Part.lacksReg (p : Part) (k : Nat) : Bool :=
  (k == Reg.CQ_RAGGED && p != .cjm7480) ||
    (p.farGB == 0 && k / 0x1000000 == 0x0C && decide (0x100 ≤ k % 0x10000) && [0x10, 0x20, 0x30].contains ((k % 0x10000 - 0x100) % 0x40))

/-- The populated region that holds a side-local address: its first byte and the byte after its last (R48, R50). -/
def Part.region (p : Part) (a : Nat) : Option (Nat × Nat) :=
  let mib := 2 ^ 20
  if a < p.nearGB * 2 ^ 30 then some (0, p.nearGB * 2 ^ 30)
  else if 0x2000_0000_0000 ≤ a ∧ a < 0x2000_0000_0000 + p.farGB * 2 ^ 30 then
    some (0x2000_0000_0000, 0x2000_0000_0000 + p.farGB * 2 ^ 30)
  else if 0x3000_0000_0000 ≤ a ∧ a < 0x3000_0000_0000 + 64 * mib then some (0x3000_0000_0000, 0x3000_0000_0000 + 64 * mib)
  else if 0x3001_0000_0000 ≤ a ∧ a < 0x3001_0000_0000 + p.loftMiB * mib then
    some (0x3001_0000_0000, 0x3001_0000_0000 + p.loftMiB * mib)
  else if p.dies = 2 ∧ 0x3002_0000_0000 ≤ a ∧ a < 0x3002_0000_0000 + p.loftMiB * mib then
    some (0x3002_0000_0000, 0x3002_0000_0000 + p.loftMiB * mib)
  else none

/-- Whether `n` bytes from a side-local address lie wholly in one populated region (R49). -/
def Part.populated (p : Part) (a n : Nat) : Bool :=
  n == 0 || match p.region a with
    | some (_, hi) => decide (a + n ≤ hi)
    | none => false

/-- Whether an extent lies wholly in the populated near tier. -/
def Part.inNear (p : Part) (a n : Nat) : Bool := decide (a + n ≤ p.nearGB * 2 ^ 30)

/-! ### Addresses of a side (R47, R53) -/

/-- The side-local part of a device address that names this side. -/
def Side.loc (s : Side) (a : Nat) : Option Nat :=
  if a < 2 ^ 47 ∧ a / 2 ^ 46 = s.id then some (a % 2 ^ 46) else none

/-- A side-local address as a device address of this side. -/
def Side.device (s : Side) (a : Nat) : Nat := a % 2 ^ 46 + s.id * 2 ^ 46

/-- Whether `n` bytes from a device address lie wholly in a populated region of this side. -/
def Side.extentOk (s : Side) (a n : Nat) : Bool :=
  n == 0 || match s.loc a with
    | some l => s.part.populated l n
    | none => false

/-! ### Register file (R16, R19, R20) -/

/-- The values a register resets to where its table says "per part", "per side", "from fuses" (R8 to R10, R207, R675,
R705, R741). -/
def specialReset (p : Part) (id k : Nat) : Option Nat :=
  if k = Reg.CAP_PART then some (p.number * 0x10000 + 0x0100 + id)
  else if k = Reg.CAP_UNITS then some (match p with | .cjm7480 => 7 | .cjm7460 => 3 | .cjm7420 => 8)
  else if k = Reg.CAP_SCALE then
    some (match p with | .cjm7480 => 0x0090_0080_6070_1842 | .cjm7460 => 0x0048_0040_6040_0C21 | .cjm7420 => 0x0024_0000_3028_0611)
  else if k = Reg.LG_CTRL then some (if id = 0 then 2 else 0)
  else if k / 0x1000000 = 0x13 ∧ k % 0x10000 = 0 ∧ k ≠ Reg.PM_DCFG then
    some (if 1 ≤ k / 0x10000 % 0x100 ∧ k / 0x10000 % 0x100 < 0x98 then 0x8000 else 0x4000)
  else if k / 0x1000000 = 0x17 ∧ k / 0x10000 % 0x100 ≤ 9 ∧ k % 0x10000 = 0 then
    some ((Config.fuseMac id (k / 0x10000 % 0x100)) % 2 ^ 48 * 0x10000 + if k / 0x10000 % 0x100 ≤ 1 then 1 else 0)
  else if Reg.KP_DEVICE 0 ≤ k ∧ k ≤ Reg.KP_DEVICE 1 then some (Config.fuseDevice >>> (64 * ((k - Reg.KP_DEVICE 0) / 8)) % 2 ^ 64)
  else none

/-- The row of the register map that a key falls under. -/
def specOf (k : Nat) : Option RegSpec :=
  let inst := k / 0x10000 % 0x100
  let off := k % 0x10000
  (regTable (k / 0x1000000)).find? fun r =>
    decide (r.instLo ≤ inst) && decide (inst ≤ r.instHi) && decide (r.base ≤ off) &&
      (if r.count ≤ 1 then off == r.base
       else (off - r.base) % r.stride == 0 && decide ((off - r.base) / r.stride < r.count))

/-- The reset value of the register with a key. -/
def regDefault (p : Part) (id k : Nat) : Word :=
  BitVec.ofNat 64 (match specialReset p id k with
    | some v => v
    | none => match specOf k with
      | some r => r.reset
      | none => 0)

/-- The value a register holds. -/
def Side.rd (s : Side) (k : Nat) : Word :=
  match s.regs.find? (fun e => e.1 == k) with
  | some e => e.2
  | none => regDefault s.part s.id k

/-- A register set to a value, whatever its access type: the operation of the unit that owns it. -/
def Side.wr (s : Side) (k : Nat) (v : Word) : Side :=
  { s with regs := alPut (regDefault s.part s.id k) s.regs k v }

/-- A field of a register. -/
def Side.fld (s : Side) (k lo n : Nat) : Nat := (s.rd k).fld lo n

/-- One bit of a register. -/
def Side.flag (s : Side) (k i : Nat) : Bool := (s.rd k).flag i

/-- A field of a register replaced by its unit. -/
def Side.put (s : Side) (k lo n v : Nat) : Side := s.wr k ((s.rd k).put lo n v)

/-- A counter field that saturates, raised by `d`. -/
def Side.count (s : Side) (k lo n : Nat) (d : Nat := 1) : Side :=
  s.put k lo n (min (2 ^ n - 1) (s.fld k lo n + d))

/-- The canonical form of the register file. -/
def Side.regsWf (s : Side) : Bool := alWf (regDefault s.part s.id) s.regs

/-! ### Time -/

/-- The side's Datum time, its nanosecond part (R167, R168). -/
def Side.now (s : Side) : Nat := s.datum.ns

/-- The effective mode (R706, R722). -/
def Side.mode (s : Side) : Nat := s.fld Reg.PW_STATE 0 2

/-! ### Free values -/

/-- A fresh index for a free value. -/
def Side.draw (s : Side) : Nat × Side := (2 * s.fresh + s.id, { s with fresh := s.fresh + 1 })

/-! ### Where a near-tier address lands (R434, R435) -/

/-- The bytes of each stack that the near tier above SPLIT fills (R434). -/
def Part.nearShare (p : Part) (split : Nat) : Nat := (p.nearGB * 2 ^ 30 - split) / p.stacks

/-- The stack on which a near-tier address lands (R434). -/
def Part.nearStack (p : Part) (split a : Nat) : Nat :=
  if a < split then (a / 4096) % p.stacks else (a - split) / p.nearShare split

/-- The offset in its stack at which a near-tier address lands (R434). -/
def Part.nearOffset (p : Part) (split a : Nat) : Nat :=
  if a < split then (a / 4096 / p.stacks) * 4096 + a % 4096 else split / p.stacks + (a - split) % p.nearShare split

/-- The place of a near-tier address: its stack, and the offset in it (R434). -/
def Part.nearPlace (p : Part) (split a : Nat) : Nat × Nat := (p.nearStack split a, p.nearOffset split a)

/-- The near-tier address of an offset in a stack (R434). -/
def Part.nearAddr (p : Part) (split : Nat) (place : Nat × Nat) : Nat :=
  let n := p.stacks
  if place.2 < split / n then (place.2 / 4096 * n + place.1) * 4096 + place.2 % 4096
  else split + place.1 * p.nearShare split + (place.2 - split / n)

/-- SPLIT in bytes. -/
def Side.split (s : Side) : Nat := s.fld Reg.NT_MAP 0 8 * 2 ^ 30

/-- The stack on which a near-tier address lands (R434). -/
def Side.stackOf (s : Side) (a : Nat) : Nat := s.part.nearStack s.split a

/-- The near tier under another SPLIT: no data moves, so what stood at a location is found at the address that the new map gives
for it (R435). -/
def Store.remap (m : Store) (p : Part) (old new : Nat) : Store :=
  let near := p.nearGB * 2 ^ 30
  let move (a : Nat) : Nat := if a < near then p.nearAddr new (p.nearPlace old a) else a
  { cells := m.cells.foldl (fun l c => alPut 0 l (move c.1) c.2) [],
    bad := m.bad.foldl (fun l k => nsAdd l (move (k * 64) / 64)) [] }

/-! ### Links of a side (R29, R31, R33) -/

/-- Whether a link is present on the part (R31). -/
def Part.hasLink (p : Part) (n : Nat) : Bool := if n = 0 ∨ n = 3 then true else decide (n < 3) && p.dies == 2

/-- The die of an instance of a unit (R28, R29): 0 the hub die, 1 + d Draft die d. -/
def Part.dieOf (p : Part) (unit inst : Nat) : Nat :=
  match unit with
  | 0x0C => 1 + inst
  | 0x0D => 1 + inst / 4
  | 0x0E => 1 + inst / 12
  | 0x0F => 1 + inst / 2
  | 0x10 => if inst < 16 then 0 else 1 + (inst - 16) / (if p = .cjm7420 then 24 else 48)
  | _ => 0

/-- The die whose memory a side-local address is in; a stack is reached through the Draft die it serves (R29, R439). -/
def Side.placeDie (s : Side) (a : Nat) : Nat :=
  if a < 0x2000_0000_0000 then 1 + s.stackOf a / 2
  else if a < 0x3001_0000_0000 then 0
  else if a < 0x3002_0000_0000 then 1
  else 2

/-- The link that joins two dies (R31). -/
def linkOf (d e : Nat) : Option Nat := if d = e then none else if d = 0 ∨ e = 0 then some (d + e - 1) else some 2

/-- Whether a link of the side is down for the acting agent, and was when its command started (R33). -/
def Side.linkCut (s : Side) (n : Nat) : Bool :=
  decide (n < 3) && s.part.hasLink n && !(s.flag Reg.BN_STATE n) &&
    !(s.acts.since.any (fun t => s.sw.fell.any (fun f => f.1 == n && decide (t ≤ f.2))))

/-- The dies that the acting agent reaches only over a link that is down. -/
def Side.cutDies (s : Side) : List Nat :=
  (upTo (1 + s.part.dies)).filter (fun e => (linkOf s.acts.die e).any s.linkCut)

/-- Whether an extent holds a byte whose transfer to the acting agent is cut (R33). -/
def Side.lostRead (s : Side) (a n : Nat) : Bool :=
  let ds := s.cutDies
  decide (0 < n) && !(ds.isEmpty && s.acts.lost.isEmpty) &&
    (upTo ((a + n - 1) / 64 - a / 64 + 1)).any (fun i => s.acts.lost.contains (a / 64 + i) || ds.contains (s.placeDie ((a / 64 + i) * 64)))

/-- Whether an extent touches a stack of the side that is paused (R441). -/
def Side.paused (s : Side) (a n : Nat) : Bool :=
  decide (0 < n) && (upTo s.part.stacks).any (fun k => s.flag (Reg.NT_STATE k) 1) &&
    (upTo ((a + n - 1) / 64 - a / 64 + 1)).any (fun i =>
      let b := (a / 64 + i) * 64
      decide (b < s.part.nearGB * 2 ^ 30) && s.flag (Reg.NT_STATE (s.stackOf b)) 1)

/-! ### Protected extents and memory -/

/-- A protected extent lifted by its key. -/
def Side.dropGuard (s : Side) (key : Nat) : Side := { s with guards := s.guards.filter (fun g => g.key != key) }

/-- A protected extent set. -/
def Side.addGuard (s : Side) (g : Guard) : Side := { s with guards := g :: (s.dropGuard g.key).guards }

/-- Whether a protected extent holds at a time. -/
def Guard.holds (g : Guard) (now : Nat) : Bool := match g.till with | some e => decide (now < e) | none => true

/-- Whether a write by `owner` to a side-local extent meets an extent protected from it (R760). -/
def Side.writeGuarded (s : Side) (owner a n : Nat) : Bool :=
  decide (0 < n) && s.guards.any (fun g => g.holds s.now && g.owner != owner && decide (a < g.hi) && decide (g.lo < a + n))

/-- Whether a read by `owner` meets an extent that no other agent may read (R291). -/
def Side.readGuarded (s : Side) (owner a n : Nat) : Bool :=
  decide (0 < n) && s.guards.any (fun g => g.holds s.now && g.noRead && g.owner != owner && decide (a < g.hi) && decide (g.lo < a + n))

/-- `n` bytes of device memory from a side-local address. -/
def Side.bytes (s : Side) (a n : Nat) : List Byte := s.mem.bytes a n

/-- `n` bytes of device memory as a little-endian number. -/
def Side.num (s : Side) (a n : Nat) : Nat := s.mem.num a n

/-- Whether an extent of device memory holds a byte that is poisoned, or that reaches the acting agent poisoned (R33). -/
def Side.poisoned (s : Side) (a n : Nat) : Bool := s.mem.poisoned a n || s.lostRead a n

/-- Byte writes as they arrive at their memory: poisoned where they cross a link that is down (R33), and all of them where the
command has been stopped (R134). -/
def Side.carried (s : Side) (ws : List (Nat × Byte × Bool)) : List (Nat × Byte × Bool) :=
  if s.acts.spoil then ws.map (fun w => (w.1, w.2.1, true))
  else
    let ds := s.cutDies
    if ds.isEmpty then ws else ws.map (fun w => (w.1, w.2.1, w.2.2 || ds.contains (s.placeDie w.1)))

/-- Byte writes to device memory by one command or access of `owner`: lines of a protected extent are not written
(R760). Answers whether one was met. -/
def Side.scatter (s : Side) (owner : Nat) (ws : List (Nat × Byte × Bool)) : Side × Bool :=
  let free := ws.filter (fun w => !(s.writeGuarded owner (w.1 / 64 * 64) 64))
  ({ s with mem := s.mem.scatter (s.carried free) }, free.length != ws.length)

/-- Good bytes written from a side-local address by an access that no protection stops. -/
def Side.store (s : Side) (a : Nat) (bs : List Byte) : Side := { s with mem := s.mem.scatter (s.carried (goodAt a bs)) }

/-- An entry of a ring that a register places (R761): written only where its slot lies wholly in populated memory and
meets no extent protected from `owner`, of 0 any protected extent. Bit 46 of the register is not looked at: the ring is the side's own (DESIGN CHOICE, log entry 28). -/
def Side.ringEntry (s : Side) (owner a : Nat) (bs : List Byte) : Side :=
  let l := a % 2 ^ 46
  if decide (a < 2 ^ 47) && s.part.populated l bs.length && !(s.writeGuarded owner l bs.length) && !s.acts.spoil then
    s.store l bs else s

/-! ### Tethers (R154) -/

/-- A signal to a tether: its amount is added modulo 2^64. -/
def Side.signal (s : Side) (t amount : Nat) : Side :=
  s.wr (Reg.TE_VALUE t) (s.rd (Reg.TE_VALUE t) + BitVec.ofNat 64 amount)

/-! ### Steward events (R628) -/

/-- An event sent to the Steward of the side. -/
def Side.raise (s : Side) (code unit inst : Nat) (cmd : Option (Nat × Nat) := none) (detail flags : Nat := 0)
    (pattern : Option (Nat × Nat) := none) : Side :=
  { s with events := s.events ++ [⟨s.now, code, unit, inst, cmd, detail, flags, pattern⟩] }

/-! ### Performance monitor (R665 to R671) -/

/-- The monitor of a unit's instance (R665); 0, that of the side-wide registers, where it has none. -/
def monitorOf (unit inst : Nat) : Nat :=
  match unit with
  | 0x10 => 0x01 + inst
  | 0x0E => 0x80 + inst
  | 0x0F => 0x98 + inst
  | 0x0D => 0xA0 + inst
  | 0x0C => 0xA8 + inst
  | 0x05 => 0xB0
  | 0x04 => 0xB1
  | 0x06 => 0xB2
  | 0x07 => 0xB3
  | 0x08 => 0xB4
  | 0x09 => 0xB5
  | 0x0A => 0xB6
  | 0x0B => 0xB7
  | 0x16 => 0xB8 + inst
  | 0x15 => 0xBC
  | 0x17 => 0xBD
  | 0x12 => if inst < 64 then 0xC0 + inst else 0
  | _ => 0

/-- Whether a Draft engine or a Stall is powered (R722); every other unit is. -/
def Side.powered (s : Side) (unit inst : Nat) : Bool :=
  if unit = 0x0E then s.flag Reg.PW_ENG inst else if unit = 0x0F then s.flag Reg.PW_ENG (24 + inst) else true

/-- Whether the unit of a monitor is powered. -/
def Side.monitorPowered (s : Side) (m : Nat) : Bool :=
  if 0x80 ≤ m ∧ m < 0x98 then s.powered 0x0E (m - 0x80) else if 0x98 ≤ m ∧ m < 0x9C then s.powered 0x0F (m - 0x98) else true

/-- What the filters of R669 look at: privilege level, master, address, class, each where the event has it. -/
structure PmAttr where
  pl : Option Nat := none
  mid : Option Nat := none
  addr : Option Nat := none
  cls : Option Nat := none
  deriving DecidableEq, Repr

/-- R669: whether an event passes the filters set in a mask: PL, MID, ADDR, CLASS from bit 0. -/
def Side.pmPass (s : Side) (m filters : Nat) (a : PmAttr) : Bool :=
  (!(bitAt filters 0) || a.pl.any (fun l => s.flag (Reg.PM_FPL m) l)) &&
  (!(bitAt filters 1) || a.mid.any (fun v =>
      v.land (s.fld (Reg.PM_FMID m) 16 12) == (s.fld (Reg.PM_FMID m) 0 12).land (s.fld (Reg.PM_FMID m) 16 12))) &&
  (!(bitAt filters 2) || a.addr.any (fun x => decide ((s.rd (Reg.PM_FLO m)).toNat ≤ x) && decide (x ≤ (s.rd (Reg.PM_FHI m)).toNat))) &&
  (!(bitAt filters 3) || a.cls.any (fun c => s.flag (Reg.PM_FCLASS m) c))

/-- R666, R668: `n` events of a code on a monitor, if there is one. -/
def Side.pmCount (s : Side) (m event n : Nat) (a : PmAttr := {}) : Side :=
  if m ≠ 0 ∧ s.flag (Reg.PM_CTRL m) 0 ∧ s.monitorPowered m then
    (upTo (s.fld (Reg.PM_CTRL m) 12 4)).foldl (fun s i =>
      let e := Reg.PM_EVSEL m (i + 1)
      if s.fld e 0 16 = event ∧ s.pmPass m (s.fld e 16 4) a then
        s.wr (Reg.PM_COUNT m (i + 1)) (s.rd (Reg.PM_COUNT m (i + 1)) + BitVec.ofNat 64 n) else s) s
  else s

/-- The next value of the 32-bit Galois LFSR (R670). -/
def lfsrNext (x : Nat) : Nat := if x % 2 = 1 then (x / 2).xor 0x80000057 else x / 2

/-- The tagging monitors with one of them updated. -/
def Side.onTag (s : Side) (m : Nat) (f : PmTag → PmTag) : Side :=
  { s with pm := { s.pm with tags := s.pm.tags.map (fun t => if t.mon == m then f t else t) } }

/-- R670: a new gap is drawn. -/
def Side.tagGap (s : Side) (m : Nat) : Side :=
  s.onTag m (fun t =>
    let x := lfsrNext t.lfsr
    { t with lfsr := x, gap := s.fld (Reg.PM_TAG m) 0 28 + x % 2 ^ s.fld (Reg.PM_TAG m) 28 4 })

/-- R670: an item of a tagging monitor is reached; answers whether it is tagged. -/
def Side.tagItem (s : Side) (m : Nat) (a : PmAttr) : Bool × Side :=
  match s.pm.tags.find? (fun t => t.mon == m) with
  | none => (false, s)
  | some t =>
      if s.pmPass m (s.fld (Reg.PM_CTRL m) 8 4) a = false then (false, s)
      else if t.gap ≠ 0 then (false, s.onTag m (fun t => { t with gap := t.gap - 1 }))
      else if t.chain.isSome then (false, (s.count Reg.PM_TCNT 48 16).tagGap m)
      else (true, s.tagGap m)

/-- R671: the record of a tagged command that has left flight. -/
def Side.tagCommand (s : Side) (queue chain unit inst status ready started : Nat) : Side :=
  let m := monitorOf 0x12 queue
  match s.pm.tags.find? (fun t => t.mon == m) with
  | none => s
  | some t =>
      if t.chain = some chain then
        let entry := [1, BitVec.ofNat 8 queue] ++ toBytes 2 m ++ toBytes 4 chain ++ toBytes 1 unit ++ toBytes 1 0 ++ toBytes 2 inst ++
          toBytes 4 0 ++ toBytes 8 t.fetched ++ toBytes 8 ready ++ toBytes 8 started ++ toBytes 8 s.now ++ toBytes 2 status ++ toBytes 14 0
        s.onTag m (fun t => { t with chain := none, ready := t.ready ++ [entry] })
      else s

/-! ### Commands (R125, R147 to R151) -/

/-- A field of the command slot: `w` bits from bit `lo` of byte `o`. -/
def Op.f (o : Op) (byte lo w : Nat) : Nat := sfld o.cmd byte lo w

/-- The opcode of a command. -/
def Op.opcode (o : Op) : Nat := o.f 0 0 8

/-- The unit of a command. -/
def Op.unit (o : Op) : Nat := o.f 1 0 8

/-- A structure read at admission (R126), by its device address. -/
def Op.block (o : Op) (a : Nat) : Nat :=
  match o.blocks.find? (fun b => b.addr == a) with
  | some b => b.val
  | none => 0

/-- Whether an instance of a unit is UNVERIFIED (R640). -/
def Side.unverified (s : Side) (unit inst : Nat) : Bool := s.unver.any (fun u => u == (unit, inst))

/-- The PHASE bit of entry `k` of a ring of `n` slots (R147). -/
def phaseBit (k n : Nat) : Nat := 1 - (k / n) % 2

/-- The 32 bytes of a completion record (R147). -/
def completionBytes (chain status unit slots : Nat) (reqNs : Bool) (required result stamp : Nat) : List Byte :=
  toBytes 4 chain ++ toBytes 2 status ++ toBytes 1 unit ++
    toBytes 1 (phaseBit chain slots + if reqNs then 2 else 0) ++ toBytes 8 required ++ toBytes 8 result ++ toBytes 8 stamp

/-- A completion record written to its slot (R148, R761), and the counts of CQ_STAT (R166). -/
def Side.record (s : Side) (queue chain slots status unit : Nat) (reqNs : Bool) (required result : Nat) : Side :=
  let base := s.fld (Reg.CQ_CPL queue) 5 59 * 32
  s.ringEntry 0x12 (base + chain % slots * 32) (completionBytes chain status unit slots reqNs required result s.now)

/-- Status codes (R743). -/
def stDone : Nat := 0x0000
@[inherit_doc stDone] def stFlagged : Nat := 0x0001
@[inherit_doc stDone] def stBadOpcode : Nat := 0x0101
@[inherit_doc stDone] def stReserved : Nat := 0x0102
@[inherit_doc stDone] def stLength : Nat := 0x0103
@[inherit_doc stDone] def stAliasing : Nat := 0x0104
@[inherit_doc stDone] def stZeroStride : Nat := 0x0105
@[inherit_doc stDone] def stBadFormat : Nat := 0x0106
@[inherit_doc stDone] def stAddress : Nat := 0x0201
@[inherit_doc stDone] def stPoison : Nat := 0x0202
@[inherit_doc stDone] def stPageFault : Nat := 0x0203
@[inherit_doc stDone] def stDeadline : Nat := 0x0301
@[inherit_doc stDone] def stLate : Nat := 0x0302
@[inherit_doc stDone] def stTimeout : Nat := 0x0303
@[inherit_doc stDone] def stCheck : Nat := 0x0401
@[inherit_doc stDone] def stUnverified : Nat := 0x0402
@[inherit_doc stDone] def stDegraded : Nat := 0x0403
@[inherit_doc stDone] def stAbsent : Nat := 0x0501
@[inherit_doc stDone] def stCapacity : Nat := 0x0502
@[inherit_doc stDone] def stRole : Nat := 0x0503
@[inherit_doc stDone] def stEpoch : Nat := 0x0504
@[inherit_doc stDone] def stExhausted : Nat := 0x0601
@[inherit_doc stDone] def stPathTimeout : Nat := 0x0602
@[inherit_doc stDone] def stSolverDeadline : Nat := 0x0701
@[inherit_doc stDone] def stInFactor : Nat := 0x0702
@[inherit_doc stDone] def stWarmDiscard : Nat := 0x0703
@[inherit_doc stDone] def stPivot : Nat := 0x0704

/-- Status DONE or DONE_FLAGGED becomes UNVERIFIED while the unit's Trot-up is undecided (R640). -/
def Side.verifiedStatus (s : Side) (unit inst status : Nat) : Nat :=
  if (status = 0x0000 ∨ status = 0x0001) ∧ s.unverified unit inst = true then stUnverified else status

/-- The instance on which an operation runs, 0 for one that has not started. -/
def Op.inst (o : Op) : Nat := match o.run with | some (i, _) => i | none => 0

/-- The same operation in the list of operations in flight. -/
def Op.same (a b : Op) : Bool := a.queue == b.queue && a.chain == b.chain && a.parent == b.parent && a.fetched == b.fetched

/-- Whether an operation obtained a translation: its pages below 2^128 are the entries obtained at its start (R504). -/
def Op.hasPage (o : Op) : Bool := o.pages.any (fun e => decide (e < 2 ^ 128))

/-- The name under which an operation holds translations (R471): sub-commands of one parent are told apart. -/
def Op.reader (o : Op) : Nat × Nat :=
  (o.queue + 64 * (match o.parent with | none => 0 | some (_, _, e) => e + 1), o.chain)

/-- An Outrider without a reader: pages it no longer holds become poppable (R471). -/
def Outrider.dropReader (u : Outrider) (reader : Nat × Nat) : Outrider :=
  let held := u.held.map (fun h => { h with readers := h.readers.filter (fun r => r != reader) })
  let free := held.filter (fun h => h.readers.isEmpty)
  let rings := free.foldl (fun (rs : List OrRings) h =>
    setAt rs h.cls { rs.getD h.cls OrRings.empty with near := (rs.getD h.cls OrRings.empty).near ++ [h.page] }) u.rings
  { u with held := held.filter (fun h => !h.readers.isEmpty), rings := rings }

/-- An operation that leaves the operations in flight, releasing what it holds. -/
def Side.leave (s : Side) (o : Op) : Side :=
  { s with ops := s.ops.filter (fun p => !(p.same o)), outriders := s.outriders.map (fun u => u.dropReader o.reader) }

/-- What the filters of R669 see of an event that a command causes: the master and the class. -/
def Op.pmAttr (o : Op) : PmAttr := { mid := some (o.unit * 128 + if o.unit = 0x17 then 17 else o.inst), cls := some o.cls }

/-- The end of a command of a queue (R150, R151): its record, then its tether; it leaves the operations in flight. -/
def Side.endCommand (s : Side) (o : Op) (st result : Nat) : Side :=
  let s := (s.leave o).record o.queue o.chain o.slots st o.unit false 0 result
  let s := if o.run.isSome = true ∨ (o.unit = 0x04 ∧ st = stDone) then
      s.pmCount (monitorOf o.unit o.inst) 0x0002 1 o.pmAttr
    else s
  let s := s.tagCommand o.queue o.chain o.unit o.inst st (o.readyAt.getD 0) (match o.run with | some (_, t) => t | none => 0)
  let s := if st = stDeadline ∨ st = stTimeout then s.count (Reg.CQ_STAT o.queue) 32 16 else s
  if o.f 6 15 1 = 1 then s.signal (o.f 6 0 13) (o.f 12 0 32) else s

/-- R529: the end of CQ_RAGGED, once it has issued all (`resv` 1) and none is left: the entries' statuses (2 and up in
`pages`; 0 an entry that issued nothing, 1 one still running), then its own record. -/
def Side.endRagged (s : Side) (o : Op) : Side :=
  if o.resv = 1 ∧ o.pages.all (fun x => x != 1) = true then
    let sts := o.pages.map (fun x => x - 2)
    let bad := (o.pages.filter (fun x => decide (2 < x) && x != 2 + stFlagged)).map (fun x => x - 2)
    let st := match bad with
      | [] => if o.pages.any (fun x => x == 2 + stFlagged) then stFlagged else stDone
      | b :: _ => b
    let issued := (o.pages.filter (fun x => x != 0)).length
    let a := o.f 48 0 64
    let (s, met) := if a = 0 then (s, false) else s.scatter 0x12 (goodAt (a % 2 ^ 46) (sts.map (fun v => toBytes 2 v)).flatten)
    s.endCommand o (if met then stAddress else st) (issued + bad.length % 2 ^ 16 * 2 ^ 32)
  else s

/-- What the register block of a Relay or a Stall counts at every completion of a command of its own (R430, R534). -/
def Side.tally (s : Side) (o : Op) (st : Nat) : Side :=
  let i := if o.run.isSome then o.inst else o.f 4 0 16
  if s.part.hasInst o.unit i = false then s
  else if o.unit = 0x0D then
    let s := s.count (Reg.RL_CNT i) 48 16
    let s := if st = stPoison then s.count (Reg.RL_CNT i) 32 16 else s
    s.wr (Reg.RL_LAST i) (BitVec.ofNat 64 (o.chain * 2 ^ 32 + o.queue))
  else if o.unit = 0x0F then
    let s := s.count (Reg.ST_CNT i) 48 16
    if st = stPageFault ∨ st = stAddress then s.count (Reg.ST_CNT i) 32 16 else s
  else s

/-- The end of an admitted command. A sub-command of CQ_RAGGED has no record and no tether of its own (R528): its status
goes to its parent. -/
def Side.complete (s : Side) (o : Op) (status : Nat) (result : Nat := 0) : Side :=
  let st := s.verifiedStatus o.unit o.inst status
  let s := s.tally o st
  match o.parent with
  | none => s.endCommand o st result
  | some (q, c, e) =>
      let s := s.leave o
      let s := s.put Reg.CQ_RAGGED 0 14 (s.fld Reg.CQ_RAGGED 0 14 - 1)
      match s.ops.find? (fun p => p.queue == q && p.chain == c && p.parent.isNone) with
      | none => s
      | some p =>
          let p := { p with pages := setAt p.pages e (2 + st) }
          ({ s with ops := s.ops.map (fun (x : Op) => if x.same p then p else x) }).endRagged p

/-- The operation running on an instance of a unit with an opcode. -/
def Side.running (s : Side) (unit inst opcode : Nat) : Option Op :=
  s.ops.find? (fun o => o.unit == unit && o.opcode == opcode && (match o.run with | some (i, _) => i == inst | none => false))

/-- Whether any operation runs on an instance of a unit. -/
def Side.busy (s : Side) (unit inst : Nat) : Bool :=
  s.ops.any (fun o => o.unit == unit && (match o.run with | some (i, _) => i == inst | none => false))

/-! ### Memory errors (R444, R445, R759) -/

/-- The controller of a side-local address: its unit and instance for events (R759), its error counter register, and
its BAD register. -/
def Side.controller (s : Side) (a : Nat) : Nat × Nat × Nat × Nat :=
  if a < 0x2000_0000_0000 then let k := s.stackOf a; (0x16, k, Reg.NT_ERR k, Reg.NT_BAD k)
  else if a < 0x3000_0000_0000 then (0x15, 0, Reg.FT_ERR, Reg.FT_BAD)
  else if a < 0x3001_0000_0000 then (0x02, 2, Reg.SR_HUB, Reg.SR_BAD)
  else if a < 0x3002_0000_0000 then (0x02, 2, Reg.SR_LOFT 0, Reg.SR_BAD)
  else (0x02, 2, Reg.SR_LOFT 1, Reg.SR_BAD)

/-- Where an error counter register of R455 to R457 keeps a count. -/
def errField (unit : Nat) (k : ErrKind) : Nat :=
  match k with
  | .readBad | .retryFail | .cut => 48
  | .fix => if unit = 0x02 then 32 else 16
  | .retry => 32
  | .parity => if unit = 0x02 then 16 else 0

/-- A line marked poisoned by its controller (R445). -/
def Side.markBad (s : Side) (a : Nat) : Side :=
  Side.wr { s with mem := { s.mem with bad := nsAdd s.mem.bad (a / 64) } } (s.controller a).2.2.2
    (BitVec.ofNat 64 (s.device (a / 64 * 64)))

/-- A transfer of a line that a link going down has cut (R33), where the command was running at the time: what it reads arrives
poisoned, and what it writes is stored poisoned. -/
def Side.lineCut (s : Side) (e : LineErr) : Side :=
  let n := linkOf s.acts.die (s.placeDie e.line)
  if s.acts.since.any (fun t => s.sw.fell.any (fun f => n == some f.1 && decide (t ≤ f.2))) then
    if e.onWrite then { s with mem := { s.mem with bad := nsAdd s.mem.bad (e.line / 64) } }
    else { s with acts := { s.acts with lost := nsAdd s.acts.lost (e.line / 64) } }
  else s

/-- One error that an access meets (R444): its count, the line's poison and the memory-fault event. -/
def Side.lineError (s : Side) (cmd : Option (Nat × Nat)) (e : LineErr) : Side :=
  if e.kind = .cut then s.lineCut e
  else if s.part.populated (e.line / 64 * 64) 64 then
    let (unit, inst, cnt, _) := s.controller e.line
    let s := if unit = 0x02 ∧ (e.kind = .retry) then s else s.count cnt (errField unit e.kind) 16
    match e.kind with
    | .fix | .retry | .cut => s
    | .readBad | .retryFail | .parity =>
        (s.markBad e.line).raise 0x06 unit inst cmd (s.device (e.line / 64 * 64))
  else s

/-- The errors that a command's reads meet, before its effect, or its writes meet, after it (R444). -/
def Side.lineErrors (s : Side) (cmd : Option (Nat × Nat)) (es : List LineErr) (onWrite : Bool) : Side :=
  (es.filter (fun e => e.onWrite == onWrite)).foldl (fun s e => s.lineError cmd e) s

/-- An effect that belongs to no command, with the memory errors its accesses meet (R444). -/
def Side.meeting (errs : List LineErr) (f : Side → Side) (s : Side) : Side :=
  (f (s.lineErrors none errs false)).lineErrors none errs true

/-- The side as an instance on its own die meets it, for a command that started at `since` if it has one (R33). -/
def Side.agent (s : Side) (unit inst : Nat) (since : Option Nat) : Side :=
  { s with acts := ⟨s.part.dieOf unit inst, since, [], s.acts.spoil⟩ }

/-- An effect of an instance on its own die, of a command that started at `since` if it has one. -/
def Side.acting (s : Side) (unit inst : Nat) (since : Option Nat) (f : Side → Side) : Side :=
  { f (s.agent unit inst since) with acts := s.acts }

end Sys2Proof.Machine
end

