-- ==== Sys2Proof/Machine/Queue.lean ====
section
/-!
DEFINITION. Machine/Queue.lean: admitted commands waiting and starting (R128 to R131, R156), and what a command's end
shares between units.
-/
namespace Sys2Proof.Machine

/-- The operations of a queue, in chain order (R128). -/
def Side.opsOf (s : Side) (q : Nat) : List Op := s.ops.filter (fun o => o.queue == q && o.parent.isNone)

/-- The operations of the same queue admitted before this one and not yet completed. -/
def Side.earlier (s : Side) (o : Op) : List Op := (s.opsOf o.queue).takeWhile (fun p => !(p.same o))

/-- Whether a command's wait tether condition holds now (R127, R155). -/
def Side.waitHolds (s : Side) (o : Op) : Bool :=
  o.f 8 15 1 == 0 || decide (o.f 16 0 64 ≤ (s.rd (Reg.TE_VALUE (o.f 8 0 13))).toNat)

/-- Whether every earlier command of its queue has started (R128), and CQ_RAGGED has issued its last sub-command (R530). -/
def Side.atHead (s : Side) (o : Op) : Bool := (s.earlier o).all (fun p => p.run.isSome && (p.unit != 0x12 || p.resv == 1))

/-- R130: admitted, its wait condition has held while it was at the head, every earlier command has started, and with
FENCE every earlier command has completed. A sub-command of CQ_RAGGED is ready once issued (R528). -/
def Side.ready (s : Side) (o : Op) : Bool :=
  o.run.isNone && (o.parent.isSome ||
    (o.waitMet && s.atHead o && (o.f 2 0 1 == 0 || (s.earlier o).isEmpty)))

/-- Whether a deadline has passed: a later Datum time than a deadline that is not 0 (R161, R162). -/
def past (now deadline : Nat) : Bool := deadline != 0 && decide (deadline < now)

/-- R156: the commands at the head of their queues whose wait condition holds are latched satisfied. -/
def Side.latchWaits (s : Side) : Side :=
  { s with ops := s.ops.map (fun o =>
      if !o.waitMet && o.run.isNone && s.atHead o && s.waitHolds o then { o with waitMet := true } else o) }

/-- R82: a blocked TWAIT whose tether has reached its target no later than its deadline is latched met. -/
def Side.latchTwaits (s : Side) : Side :=
  { s with grooms := s.grooms.map (fun g =>
      match g.wait with
      | .twait rd t v d false =>
          if v ≤ (s.rd (Reg.TE_VALUE t)).toNat ∧ past s.now d = false then { g with wait := .twait rd t v d true } else g
      | _ => g) }

/-- The times at which commands become ready (R130, R671). -/
def Side.latchReady (s : Side) : Side :=
  { s with ops := s.ops.map (fun o => if o.readyAt.isNone && s.ready o then { o with readyAt := some s.now } else o) }

/-- What holds continuously while commands wait: the wait conditions of commands (R156) and of Grooms (R82). -/
def Side.settle (s : Side) : Side := s.latchWaits.latchReady.latchTwaits

/-- An operation replaced by an updated one. -/
def Side.setOp (s : Side) (o : Op) : Side := { s with ops := s.ops.map (fun p => if p.same o then o else p) }

/-- The queues in the order in which a unit serves them in a class: from the one after the queue last served (R131); after
reset from queue 0 (DESIGN CHOICE, log entry 5). -/
def Side.queueOrder (s : Side) (unit cls : Nat) : List Nat :=
  let last := alGet 63 s.rr (unit * 8 + cls)
  (upTo 64).map (fun i => (last + 1 + i) % 64)

/-- R131: the command chosen among several: of the lowest class that has one, of the first queue in that class's order. -/
def Side.pick (s : Side) (unit : Nat) (cands : List Op) : Option Op :=
  match (upTo 8).find? (fun c => cands.any (fun o => o.cls == c)) with
  | none => none
  | some c =>
      let mine := cands.filter (fun o => o.cls == c)
      match (s.queueOrder unit c).find? (fun q => mine.any (fun o => o.queue == q)) with
      | none => none
      | some q => mine.find? (fun o => o.queue == q)

/-- A meaning of a running command: the operation that runs on an instance of its unit with its opcode, if there is
one, gets its effect; with none the row changes nothing. -/
def Side.onRunning (s : Side) (unit inst opcode : Nat) (env : Env) (f : Op → Side → Side) : Side :=
  match s.running unit inst opcode with
  | none => s
  | some o => s.acting unit inst (o.run.map (fun r => r.2)) (fun s =>
      (f o (s.lineErrors (some (o.chain, o.queue)) env.errs false)).lineErrors (some (o.chain, o.queue)) env.errs true)

/-- The command's end under R760: an effect that met a protected extent completes with ADDRESS_FAULT. -/
def Side.finish (s : Side) (o : Op) (met : Bool) (status result : Nat) : Side :=
  s.complete o (if met then stAddress else status) result

end Sys2Proof.Machine
end

