-- ==== Sys2Proof/Machine/Checks.lean ====
section
/-!
DEFINITION. Machine/Checks.lean: what a unit's chapter says of the admission of a command (R135), and the structures that
admission reads (R126).
-/
namespace Sys2Proof.Machine

/-- What a chapter says of one command at admission: which checks of R135 fail, the structures to read (address, bytes,
alignment), whether it names an
absent unit, whether check 10 fails, a CAPACITY refusal for space with its REQUIRED, and the worst-case run time in ns as a fraction. -/
structure Checks where
  reserved : Bool := false
  opcode : Bool := false
  blocks : List (Nat × Nat × Nat) := []
  format : Bool := false
  stride : Bool := false
  aliasing : Bool := false
  length : Bool := false
  address : Bool := false
  space : Option Nat := none
  absent : Bool := false
  degraded : Bool := false
  worst : Nat × Nat := (0, 1)
  deriving DecidableEq, Repr

/-- Whether a field of a structure that should be zero is not: byte, lowest bit, width (R17). -/
def anySet (v : Nat) (l : List (Nat × Nat × Nat)) : Bool := l.any (fun f => sfld v f.1 f.2.1 f.2.2 != 0)

/-- A range of whole bytes of a structure, last byte included. -/
def byteRange (a b : Nat) : Nat × Nat × Nat := (a, 0, 8 * (b + 1 - a))

/-- R126: a structure is read at admission only where it is aligned and lies in populated memory of this side. -/
def Side.structOk (s : Side) (a n align : Nat) : Bool := decide (a % align = 0) && s.extentOk a n

/-- A structure whose contents admission can check: read, and without poison. -/
def Side.readable (s : Side) (a n align : Nat) : Bool := s.structOk a n align && !(s.poisoned (a % 2 ^ 46) n)

/-- The contents of a structure at admission, 0 where it is not read. -/
def Side.struct (s : Side) (a n align : Nat) : Nat := if s.structOk a n align then s.num (a % 2 ^ 46) n else 0

/-- Whether an extent of a buffer fails check 9 of R135. -/
def Side.badExtent (s : Side) (a n : Nat) : Bool := !(s.extentOk a n)

/-- Whether a buffer lies outside the near tier of this side. -/
def Side.notNear (s : Side) (a n : Nat) : Bool :=
  match s.loc a with
  | some l => !(s.part.inNear l n)
  | none => true

/-- The poisoned end of a command whose chapter defines no other way of carrying the poison (R446): whether the writes it
was due are made poisoned or not made is open, and is a free choice. -/
def Side.poisonEnd (s : Side) (o : Op) (owner : Nat) (ws : List (Nat × Byte × Bool)) (result : Nat := 0) : Side :=
  let (n, s) := s.draw
  let (s, met) := if Config.freeBool n then s.scatter owner (ws.map (fun w => (w.1, w.2.1, true))) else (s, false)
  s.finish o met stPoison result

/-- What a command reads before its effect: an extent that no other agent may read ends it with ADDRESS_FAULT (R291), a
poisoned byte with POISON_CONSUMED (R446), and otherwise it has its effect. `ws` are the writes it is due. -/
def Side.consume (s : Side) (o : Op) (owner : Nat) (reads : List (Nat × Nat)) (ws : List (Nat × Byte × Bool))
    (k : Side → Side) : Side :=
  if reads.any (fun r => s.readGuarded owner r.1 r.2) then s.complete o stAddress
  else if reads.any (fun r => s.poisoned r.1 r.2) then s.poisonEnd o owner ws
  else k s

/-- The side-local part of a device address. -/
def local46 (a : Nat) : Nat := a % 2 ^ 46

end Sys2Proof.Machine
end

