-- ==== Sys2Proof/Machine/Shake.lean ====
section
/-!
DEFINITION. Machine/Shake.lean: SHAKE256 (FIPS 202), with which images, seals and records are digested (R590, R655, R683).
-/
namespace Sys2Proof.Machine

/-- A 64-bit lane rotated left. -/
def rotl64 (v n : Nat) : Nat := if n % 64 = 0 then v else (v <<< (n % 64) ||| v >>> (64 - n % 64)) % 2 ^ 64

/-- The rotation offsets of ρ by lane 5y + x (FIPS 202, 3.2.2). -/
def keccakRho : List Nat :=
  [0, 1, 62, 28, 27, 36, 44, 6, 55, 20, 3, 10, 43, 25, 39, 41, 45, 15, 21, 8, 18, 2, 61, 56, 14]

/-- The round constants of ι (FIPS 202, 3.2.5). -/
def keccakRc : List Nat :=
  [0x0000000000000001, 0x0000000000008082, 0x800000000000808A, 0x8000000080008000, 0x000000000000808B, 0x0000000080000001,
   0x8000000080008081, 0x8000000000008009, 0x000000000000008A, 0x0000000000000088, 0x0000000080008009, 0x000000008000000A] ++
  [0x000000008000808B, 0x800000000000008B, 0x8000000000008089, 0x8000000000008003, 0x8000000000008002, 0x8000000000000080,
   0x000000000000800A, 0x800000008000000A, 0x8000000080008081, 0x8000000000008080, 0x0000000080000001, 0x8000000080008008]

/-- A lane of a state. -/
def lane25 (a : List Nat) (x y : Nat) : Nat := a.getD (5 * (y % 5) + x % 5) 0

/-- One round of Keccak-f[1600]. -/
def keccakRound (a : List Nat) (rc : Nat) : List Nat :=
  let c := (upTo 5).map (fun x => (upTo 5).foldl (fun v y => v ^^^ lane25 a x y) 0)
  let d := (upTo 5).map (fun x => c.getD ((x + 4) % 5) 0 ^^^ rotl64 (c.getD ((x + 1) % 5) 0) 1)
  let t := (upTo 25).map (fun i => a.getD i 0 ^^^ d.getD (i % 5) 0)
  let b := (upTo 25).map (fun i =>
    let x := i % 5
    let y := i / 5
    let sx := (x + 3 * y) % 5
    let sy := x
    rotl64 (lane25 t sx sy) (keccakRho.getD (5 * sy + sx) 0))
  (upTo 25).map (fun i =>
    let x := i % 5
    let y := i / 5
    let v := lane25 b x y ^^^ ((lane25 b (x + 1) y ^^^ (2 ^ 64 - 1)) &&& lane25 b (x + 2) y)
    if i = 0 then v ^^^ rc else v)

/-- Keccak-f[1600]. -/
def keccakF (a : List Nat) : List Nat := keccakRc.foldl keccakRound a

/-- The message absorbed block by block (rate 136 bytes), with fuel. -/
def keccakAbsorb : Nat → List Nat → List Byte → List Nat
  | 0, a, _ => a
  | f + 1, a, m =>
      if m.isEmpty then a
      else
        let blk := m.take 136
        let a := (upTo 25).map (fun i => a.getD i 0 ^^^ if i < 17 then fromBytes ((blk.drop (8 * i)).take 8) else 0)
        keccakAbsorb f (keccakF a) (m.drop 136)

/-- `n` bytes squeezed, with fuel. -/
def keccakSqueeze : Nat → List Nat → Nat → List Byte
  | 0, _, _ => []
  | f + 1, a, n =>
      let blk := ((a.take 17).map (fun l => toBytes 8 l)).flatten
      if n ≤ 136 then blk.take n else blk ++ keccakSqueeze f (keccakF a) (n - 136)

/-- SHAKE256 of a message to `n` bytes. -/
def shake256 (m : List Byte) (n : Nat) : List Byte :=
  let pad := 136 - m.length % 136
  let tail := if pad = 1 then [BitVec.ofNat 8 0x9F] else BitVec.ofNat 8 0x1F :: List.replicate (pad - 2) 0 ++ [BitVec.ofNat 8 0x80]
  keccakSqueeze (n / 136 + 1) (keccakAbsorb (m.length / 136 + 1) (List.replicate 25 0) (m ++ tail)) n

end Sys2Proof.Machine
end

