-- ==== Sys2Proof/Machine/Num.lean ====
section
/-!
DEFINITION. Machine/Num.lean: numbers of the formats of R369 as exact values, exact arithmetic on them, and rounding to
nearest even into a format. Every rounded operation of the units is an exact one followed by one rounding.
-/
namespace Sys2Proof.Machine

/-- A value: NaN, an infinity, or (-1)^neg · m · 2^e exactly. -/
inductive FVal where
  | nan
  | inf (neg : Bool)
  | fin (neg : Bool) (m : Nat) (e : Int)
  deriving DecidableEq, Repr

/-- A binary floating format: exponent bits, mantissa bits, bias (R369). -/
structure Flt where
  ebits : Nat
  mbits : Nat
  bias : Nat
  deriving DecidableEq, Repr

/-- IEEE 754 binary64. -/
def flt64 : Flt := ⟨11, 52, 1023⟩
/-- FP32 (R369). -/
def flt32 : Flt := ⟨8, 23, 127⟩
/-- FP19 without its ignored low bits (R369). -/
def flt19 : Flt := ⟨8, 10, 127⟩
/-- BF16 (R369). -/
def fltB16 : Flt := ⟨8, 7, 127⟩
/-- FP16 (R369). -/
def flt16 : Flt := ⟨5, 10, 15⟩
/-- FP8 E4M3 (R369). -/
def fltE4M3 : Flt := ⟨4, 3, 7⟩
/-- FP8 E5M2 (R369). -/
def fltE5M2 : Flt := ⟨5, 2, 15⟩
/-- FP6 E3M2 (R369). -/
def fltE3M2 : Flt := ⟨3, 2, 3⟩
/-- FP6 E2M3 (R369). -/
def fltE2M3 : Flt := ⟨2, 3, 1⟩
/-- FP4 E2M1 (R369). -/
def fltE2M1 : Flt := ⟨2, 1, 1⟩

/-- The value of a code whose format keeps the all-ones exponent for infinity and NaN. -/
def Flt.ieee (f : Flt) (b : Nat) : FVal :=
  let m := b % 2 ^ f.mbits
  let e := b / 2 ^ f.mbits % 2 ^ f.ebits
  let s := bitAt b (f.ebits + f.mbits)
  if e = 2 ^ f.ebits - 1 then (if m = 0 then .inf s else .nan)
  else if e = 0 then .fin s m (1 - (f.bias : Int) - f.mbits)
  else .fin s (m + 2 ^ f.mbits) ((e : Int) - f.bias - f.mbits)

/-- The value of a code of a format without infinity or NaN. -/
def Flt.plain (f : Flt) (b : Nat) : FVal :=
  let m := b % 2 ^ f.mbits
  let e := b / 2 ^ f.mbits % 2 ^ f.ebits
  let s := bitAt b (f.ebits + f.mbits)
  if e = 0 then .fin s m (1 - (f.bias : Int) - f.mbits)
  else .fin s (m + 2 ^ f.mbits) ((e : Int) - f.bias - f.mbits)

/-- The number of bits of a number. -/
def bitLen (n : Nat) : Nat := if n = 0 then 0 else Nat.log2 n + 1

/-- An integer value. -/
def FVal.ofInt (i : Int) : FVal := .fin (decide (i < 0)) i.natAbs 0

/-- Zero. -/
def FVal.zero : FVal := .fin false 0 0

/-- A value times 2^k. -/
def FVal.scale2 (v : FVal) (k : Int) : FVal :=
  match v with
  | .fin s m e => .fin s m (e + k)
  | v => v

/-- The opposite value. -/
def FVal.neg (v : FVal) : FVal :=
  match v with
  | .nan => .nan
  | .inf s => .inf (!s)
  | .fin s m e => .fin (!s) m e

/-- The magnitude. -/
def FVal.abs (v : FVal) : FVal :=
  match v with
  | .nan => .nan
  | .inf _ => .inf false
  | .fin _ m e => .fin false m e

/-- Whether a value is NaN. -/
def FVal.isNan (v : FVal) : Bool := v == .nan

/-- Whether a value is finite. -/
def FVal.isFin (v : FVal) : Bool := match v with | .fin _ _ _ => true | _ => false

/-- Whether a value is a zero of either sign. -/
def FVal.isZero (v : FVal) : Bool := match v with | .fin _ m _ => m == 0 | _ => false

/-- The signed integer `x` for which the finite value is `x · 2^e`, for an `e` at or below the value's exponent. -/
def FVal.atExp (s : Bool) (m : Nat) (e goal : Int) : Int :=
  let k := m * 2 ^ (e - goal).toNat
  if s then -(k : Int) else k

/-- The exact sum (R371 for the special values). -/
def FVal.add (a b : FVal) : FVal :=
  match a, b with
  | .nan, _ => .nan
  | _, .nan => .nan
  | .inf s, .inf t => if s = t then .inf s else .nan
  | .inf s, _ => .inf s
  | _, .inf t => .inf t
  | .fin s m e, .fin t n f =>
      let q := min e f
      let r := FVal.atExp s m e q + FVal.atExp t n f q
      if r = 0 then .fin (s && t) 0 q else .fin (decide (r < 0)) r.natAbs q

/-- The exact difference. -/
def FVal.sub (a b : FVal) : FVal := a.add b.neg

/-- The exact product (R371). -/
def FVal.mul (a b : FVal) : FVal :=
  match a, b with
  | .nan, _ => .nan
  | _, .nan => .nan
  | .inf s, .inf t => .inf (s != t)
  | .inf s, .fin t n _ => if n = 0 then .nan else .inf (s != t)
  | .fin s m _, .inf t => if m = 0 then .nan else .inf (s != t)
  | .fin s m e, .fin t n f => .fin (s != t) (m * n) (e + f)

/-- The quotient to 200 bits and a sticky bit, so that one rounding of it to any format is the rounded quotient. -/
def FVal.div (a b : FVal) : FVal :=
  match a, b with
  | .nan, _ => .nan
  | _, .nan => .nan
  | .inf _, .inf _ => .nan
  | .inf s, .fin t _ _ => .inf (s != t)
  | .fin s _ _, .inf t => .fin (s != t) 0 0
  | .fin s m e, .fin t n f =>
      if n = 0 then (if m = 0 then .nan else .inf (s != t))
      else
        let k := 200 + bitLen n - min (200 + bitLen n) (bitLen m)
        let q := m * 2 ^ k / n
        let r := m * 2 ^ k % n
        .fin (s != t) (2 * q + (if r = 0 then 0 else 1)) (e - f - k - 1)

/-- The integer square root by bisection of its bits. -/
def isqrtGo (n : Nat) : Nat → Nat → Nat
  | 0, r => r
  | k + 1, r => let c := r + 2 ^ k; isqrtGo n k (if c * c ≤ n then c else r)

/-- The integer square root. -/
def isqrt (n : Nat) : Nat := isqrtGo n (bitLen n / 2 + 1) 0

/-- The square root to 200 bits and a sticky bit. -/
def FVal.sqrt (a : FVal) : FVal :=
  match a with
  | .nan => .nan
  | .inf s => if s then .nan else .inf false
  | .fin s m e =>
      if m = 0 then .fin s 0 e
      else if s then .nan
      else
        let k := 400 + (e % 2).toNat
        let x := m * 2 ^ k
        let r := isqrt x
        .fin false (2 * r + (if r * r = x then 0 else 1)) ((e - k) / 2 - 1)

/-- `m · 2^e` rounded to nearest even to a multiple of 2^q, as that multiple. -/
def roundAt (m : Nat) (e q : Int) : Nat :=
  if q ≤ e then m * 2 ^ (e - q).toNat
  else
    let d := (q - e).toNat
    let k := m / 2 ^ d
    let r := m % 2 ^ d
    if 2 * r > 2 ^ d ∨ (2 * r = 2 ^ d ∧ k % 2 = 1) then k + 1 else k

/-- The exponent of the last place of `m · 2^e` in a format. -/
def Flt.ulp (f : Flt) (m : Nat) (e : Int) : Int :=
  max ((bitLen m : Int) + e - (f.mbits + 1)) (1 - (f.bias : Int) - f.mbits)

/-- A finite value rounded to nearest even to the precision of a format, its range unbounded above. -/
def Flt.quant (f : Flt) (s : Bool) (m : Nat) (e : Int) : FVal :=
  let q := f.ulp m e
  .fin s (roundAt m e q) q

/-- Whether a magnitude reaches 2^k. -/
def geTwoPow (m : Nat) (e k : Int) : Bool := decide ((bitLen m : Int) + e > k)

/-- A value rounded to nearest even into an IEEE-like format, overflow to infinity (R72, R377). -/
def Flt.round (f : Flt) (v : FVal) : FVal :=
  match v with
  | .fin s m e =>
      match f.quant s m e with
      | .fin s k q => if geTwoPow k q ((2 ^ f.ebits : Nat) - 1 - (f.bias : Int)) then .inf s else .fin s k q
      | v => v
  | v => v

/-- The code of a value that is exactly representable in a format, an infinity and the canonical quiet NaN included. -/
def Flt.code (f : Flt) (v : FVal) : Nat :=
  let top := 2 ^ (f.ebits + f.mbits)
  match v with
  | .nan => (2 ^ f.ebits - 1) * 2 ^ f.mbits + 2 ^ (f.mbits - 1)
  | .inf s => (if s then top else 0) + (2 ^ f.ebits - 1) * 2 ^ f.mbits
  | .fin s m e =>
      let sb := if s then top else 0
      if m = 0 then sb
      else
        let q := f.ulp m e
        let k := roundAt m e q
        if k < 2 ^ f.mbits then sb + k
        else
          let (k, q) := if k ≥ 2 ^ (f.mbits + 1) then (k / 2, q + 1) else (k, q)
          sb + ((q + f.bias + f.mbits).toNat) * 2 ^ f.mbits + (k - 2 ^ f.mbits)

/-- A value rounded into a format and encoded. -/
def Flt.enc (f : Flt) (v : FVal) : Nat := f.code (f.round v)

/-- Order of two values, false where either is NaN. -/
def FVal.lt (a b : FVal) : Bool :=
  match a, b with
  | .nan, _ => false
  | _, .nan => false
  | .inf s, .inf t => s && !t
  | .inf s, _ => s
  | _, .inf t => !t
  | .fin s m e, .fin t n f =>
      let q := min e f
      decide (FVal.atExp s m e q < FVal.atExp t n f q)

/-- Order of two values, false where either is NaN. -/
def FVal.le (a b : FVal) : Bool := !a.isNan && !b.isNan && !(b.lt a)

/-- The greatest integer at or below a finite value. -/
def FVal.floor (v : FVal) : Option Int :=
  match v with
  | .fin s m e =>
      if 0 ≤ e then some (FVal.atExp s m e 0)
      else
        let x : Int := if s then -(m : Int) else m
        some (x.fdiv ((2 ^ (-e).toNat : Nat) : Int))
  | _ => none

/-- A finite value rounded to the nearest integer, ties to even. -/
def FVal.rint (v : FVal) : Option Int :=
  match v with
  | .fin s m e => let k := roundAt m e 0; some (if s then -(k : Int) else k)
  | _ => none

/-- A finite value truncated toward zero. -/
def FVal.trunc (v : FVal) : Option Int :=
  match v with
  | .fin s m e =>
      let k := if 0 ≤ e then m * 2 ^ e.toNat else m / 2 ^ (-e).toNat
      some (if s then -(k : Int) else k)
  | _ => none

/-- An exact fraction as a value to 200 bits and a sticky bit. -/
def FVal.ratio (a : Int) (b : Nat) : FVal := (FVal.ofInt a).div (FVal.ofInt b)

/-! ### FP64 arithmetic: one operation, one rounding to nearest even -/

/-- Rounded to FP64. -/
def r64 (v : FVal) : FVal := flt64.round v
/-- FP64 sum. -/
def add64 (a b : FVal) : FVal := r64 (a.add b)
/-- FP64 difference. -/
def sub64 (a b : FVal) : FVal := r64 (a.sub b)
/-- FP64 product. -/
def mul64 (a b : FVal) : FVal := r64 (a.mul b)
/-- FP64 quotient. -/
def div64 (a b : FVal) : FVal := r64 (a.div b)
/-- FP64 square root. -/
def sqrt64 (a : FVal) : FVal := r64 a.sqrt

/-- The value of an FP64 code. -/
def of64 (b : Nat) : FVal := flt64.ieee b
/-- The FP64 code of a value, rounded. -/
def to64 (v : FVal) : Nat := flt64.enc v
/-- The value of an FP32 code. -/
def of32 (b : Nat) : FVal := flt32.ieee b
/-- The FP32 code of a value, rounded to nearest even. -/
def to32 (v : FVal) : Nat := flt32.enc v
/-- Rounded to FP32. -/
def r32 (v : FVal) : FVal := flt32.round v

/-! ### The formats of R369 -/

/-- Whether a format code is assigned (R369). -/
def fmtAssigned (f : Nat) : Bool := decide (f ≤ 0xD)

/-- The bits an element of a format takes in storage (R369). -/
def fmtBits (f : Nat) : Nat :=
  match f with
  | 0x0 | 0x1 | 0xB => 32
  | 0x2 | 0x3 => 16
  | 0x4 | 0x5 | 0x9 | 0xD => 8
  | 0x6 | 0x7 => 6
  | 0x8 | 0xA => 4
  | 0xC => 64
  | _ => 8

/-- The value of an element of a format (R369, R371). -/
def fmtVal (f b : Nat) : FVal :=
  match f with
  | 0x0 => flt32.ieee b
  | 0x1 => flt19.ieee (b / 2 ^ 13)
  | 0x2 => fltB16.ieee b
  | 0x3 => flt16.ieee b
  | 0x4 => if b % 128 = 127 then .nan else fltE4M3.plain b
  | 0x5 => fltE5M2.ieee b
  | 0x6 => fltE3M2.plain b
  | 0x7 => fltE2M3.plain b
  | 0x8 => fltE2M1.plain b
  | 0x9 => FVal.ofInt (signed 8 b)
  | 0xA => FVal.ofInt (signed 4 b)
  | 0xB => FVal.ofInt (signed 32 b)
  | 0xD => if b = 0xFF then .nan else .fin false 1 ((b : Int) - 127)
  | _ => .fin false 0 0

/-! ### Elementary functions to any accuracy, on fixed point

Values are integers in units of 2^-P. They serve the results the manual states to the nearest value (R305, R506). -/

/-- The fractional bits of the fixed-point functions. -/
def fxP : Nat := 256

/-- A finite value in fixed point, rounded down. -/
def toFx (v : FVal) : Int :=
  match v with
  | .fin s m e =>
      let k : Int := e + fxP
      let u : Int := if 0 ≤ k then ((m * 2 ^ k.toNat : Nat) : Int) else ((m / 2 ^ (-k).toNat : Nat) : Int)
      if s then -u else u
  | _ => 0

/-- A fixed-point number as a value. -/
def ofFx (x : Int) : FVal := .fin (decide (x < 0)) x.natAbs (-(fxP : Int))

/-- The arctangent of 1/n in fixed point, by its series. -/
def fxAtanInv (n : Nat) : Nat → Nat → Int → Int → Int
  | 0, _, _, acc => acc
  | fuel + 1, k, pw, acc =>
      let t := pw / ((2 * k + 1 : Nat) : Int)
      fxAtanInv n fuel (k + 1) (pw / ((n * n : Nat) : Int)) (if k % 2 = 0 then acc + t else acc - t)

/-- π in fixed point (Machin's formula). -/
def fxPi : Int :=
  let one : Int := (2 ^ fxP : Nat)
  4 * (4 * fxAtanInv 5 130 0 (one / 5) 0 - fxAtanInv 239 40 0 (one / 239) 0)

/-- The series of sine (from term x) or cosine (from term 1) in fixed point, alternating. -/
def fxSeries (x2 : Int) : Nat → Nat → Int → Int → Int
  | 0, _, _, acc => acc
  | fuel + 1, k, t, acc =>
      fxSeries x2 fuel (k + 2) (-(t * x2 / (2 ^ fxP : Nat)) / (((k + 1) * (k + 2) : Nat) : Int)) (acc + t)

/-- Sine of a fixed-point angle. -/
def fxSin (x : Int) : Int :=
  let tp := 2 * fxPi
  let y := (x + fxPi) % tp - fxPi
  fxSeries (y * y / (2 ^ fxP : Nat)) 60 1 y 0

/-- Cosine of a fixed-point angle. -/
def fxCos (x : Int) : Int :=
  let tp := 2 * fxPi
  let y := (x + fxPi) % tp - fxPi
  fxSeries (y * y / (2 ^ fxP : Nat)) 60 0 (2 ^ fxP : Nat) 0

/-- The exponential series of a fixed-point number in magnitude at most 1. -/
def fxExpGo (x : Int) : Nat → Nat → Int → Int → Int
  | 0, _, _, acc => acc
  | fuel + 1, k, t, acc => fxExpGo x fuel (k + 1) (t * x / (2 ^ fxP : Nat) / ((k + 1 : Nat) : Int)) (acc + t)

/-- Ln 2 in fixed point: the sum of 1/(k·2^k). -/
def fxLn2 : Int := (upTo 256).foldl (fun a i => a + ((2 ^ fxP : Nat) : Int) / (((i + 1) * 2 ^ (i + 1) : Nat) : Int)) 0

/-- e to a finite value, to about 200 bits: a reduced series and a power of two. -/
def expVal (v : FVal) : FVal :=
  match v with
  | .nan => .nan
  | .inf s => if s then .fin false 0 0 else .inf false
  | .fin s m e =>
      if geTwoPow m e 12 then (if s then .fin false 0 0 else .inf false)
      else
        let x := toFx (.fin s m e)
        let k := x / fxLn2
        let r := x - k * fxLn2
        let y := fxExpGo r 80 0 (2 ^ fxP : Nat) 0
        .fin false y.natAbs (k - fxP)

end Sys2Proof.Machine
end

