-- ==== Sys2Proof/Machine/Vec.lean ====
section
/-!
DEFINITION. Machine/Vec.lean: three-vectors and quaternions in FP64 (R278, R340), and the interpolation of R258 and R259.
-/
namespace Sys2Proof.Machine

/-- A three-vector. -/
structure V3 where
  x : FVal
  y : FVal
  z : FVal
  deriving DecidableEq, Repr

/-- A quaternion (w, x, y, z). -/
structure Quat where
  w : FVal
  x : FVal
  y : FVal
  z : FVal
  deriving DecidableEq, Repr

/-- A vector from codes of a format. -/
def V3.of (f : Flt) (l : List Nat) : V3 := ⟨f.ieee (l.getD 0 0), f.ieee (l.getD 1 0), f.ieee (l.getD 2 0)⟩

/-- A vector as codes of a format. -/
def V3.codes (f : Flt) (v : V3) : List Nat := [f.enc v.x, f.enc v.y, f.enc v.z]

/-- A quaternion from codes of a format. -/
def Quat.of (f : Flt) (l : List Nat) : Quat :=
  ⟨f.ieee (l.getD 0 0), f.ieee (l.getD 1 0), f.ieee (l.getD 2 0), f.ieee (l.getD 3 0)⟩

/-- A quaternion as codes of a format. -/
def Quat.codes (f : Flt) (q : Quat) : List Nat := [f.enc q.w, f.enc q.x, f.enc q.y, f.enc q.z]

/-- FP64 vector sum. -/
def V3.add (a b : V3) : V3 := ⟨add64 a.x b.x, add64 a.y b.y, add64 a.z b.z⟩
/-- FP64 vector difference. -/
def V3.sub (a b : V3) : V3 := ⟨sub64 a.x b.x, sub64 a.y b.y, sub64 a.z b.z⟩
/-- FP64 vector times a number. -/
def V3.scale (a : V3) (k : FVal) : V3 := ⟨mul64 a.x k, mul64 a.y k, mul64 a.z k⟩
/-- FP64 length. -/
def V3.len (a : V3) : FVal := sqrt64 (add64 (add64 (mul64 a.x a.x) (mul64 a.y a.y)) (mul64 a.z a.z))

/-- FP64 Hamilton product. -/
def Quat.mul (a b : Quat) : Quat :=
  let s (p q r t : FVal) : FVal := add64 (add64 (add64 p q) r) t
  ⟨s (mul64 a.w b.w) (mul64 a.x b.x).neg (mul64 a.y b.y).neg (mul64 a.z b.z).neg,
   s (mul64 a.w b.x) (mul64 a.x b.w) (mul64 a.y b.z) (mul64 a.z b.y).neg,
   s (mul64 a.w b.y) (mul64 a.x b.z).neg (mul64 a.y b.w) (mul64 a.z b.x),
   s (mul64 a.w b.z) (mul64 a.x b.y) (mul64 a.y b.x).neg (mul64 a.z b.w)⟩

/-- The inverse of a unit quaternion. -/
def Quat.conj (a : Quat) : Quat := ⟨a.w, a.x.neg, a.y.neg, a.z.neg⟩

/-- FP64 normalisation. -/
def Quat.norm (a : Quat) : Quat :=
  let n := sqrt64 (add64 (add64 (add64 (mul64 a.w a.w) (mul64 a.x a.x)) (mul64 a.y a.y)) (mul64 a.z a.z))
  ⟨div64 a.w n, div64 a.x n, div64 a.y n, div64 a.z n⟩

/-- A vector rotated by a quaternion, in FP64. -/
def Quat.rotate (q : Quat) (v : V3) : V3 :=
  let r := (q.mul ⟨FVal.zero, v.x, v.y, v.z⟩).mul q.conj
  ⟨r.x, r.y, r.z⟩

/-- The product of fixed-point numbers. -/
def fxMul (a b : Int) : Int := a * b / (2 ^ fxP : Nat)

/-- The quotient of fixed-point numbers. -/
def fxDiv (a b : Int) : Int := if b = 0 then 0 else (a * (2 ^ fxP : Nat)).tdiv b

/-- The square root of a fixed-point number. -/
def fxSqrt (a : Int) : Int := (isqrt (a.toNat * 2 ^ fxP) : Nat)

/-! ### Sine, cosine, tangent and arctangent in FP64

No rule states their accuracy. Each is the exact value rounded to FP64, moved by a free offset of at most 2 units in the last
place (DEDUCED, log entry 95). -/

/-- A value rounded to FP64 and moved by the free offset of function `fn` for the arguments `args`; a zero stays. -/
def nudge64 (fn : Nat) (args : Nat × Nat) (v : FVal) : FVal :=
  let c := to64 v
  let m := c % 2 ^ 63
  let off := Config.trigUlp fn args.1 args.2 % 5
  if m = 0 ∨ v.isFin = false then v
  else of64 (c / 2 ^ 63 * 2 ^ 63 + if off ≤ 2 then m + off else m + 2 - off)

/-- A function of an angle: `small` where the angle is below 2^-40, `f` of it in fixed point where it is below 2^64, free
beyond; NaN of what is not finite. -/
def angle64 (fn : Nat) (small : FVal → FVal) (f : Int → FVal) (far : Nat → Nat) (v : FVal) : FVal :=
  match v with
  | .fin _ m e =>
      if geTwoPow m e 64 then of64 (far (to64 v))
      else nudge64 fn (to64 v, 0) (if geTwoPow m e (-40) then f (toFx v) else small v)
  | _ => .nan

/-- Sine (R278, R340, R551). -/
def sinV (v : FVal) : FVal := angle64 0 id (fun x => ofFx (fxSin x)) Config.sin64 v

/-- Cosine (R278, R340, R551). -/
def cosV (v : FVal) : FVal := angle64 1 (fun _ => FVal.ofInt 1) (fun x => ofFx (fxCos x)) Config.cos64 v

/-- Tangent (R278). -/
def tanV (v : FVal) : FVal := angle64 2 id (fun x => FVal.div (ofFx (fxSin x)) (ofFx (fxCos x))) Config.tan64 v

/-- The angle of which sine and cosine are `s` and `c` in fixed point, from a first guess. -/
def fxAngle (s c : Int) : Nat → Int → Int
  | 0, x => x
  | n + 1, x => fxAngle s c n (x + (fxMul s (fxCos x) - fxMul c (fxSin x)))

/-- The arctangent of a number from 0 to 1: itself where it is below 2^-40. -/
def atanUnit (r : FVal) : FVal :=
  match r with
  | .fin _ m e =>
      if geTwoPow m e (-40) then
        let x := toFx r
        let one : Int := (2 ^ fxP : Nat)
        let h := fxSqrt (one + fxMul x x)
        ofFx (fxAngle (fxDiv x h) (fxDiv one h) 12 x)
      else r
  | v => v

/-- The angle of the point (x, y), from -π to π (R285, R340, R565); free where both are zero or one is infinite. -/
def atan2V (y x : FVal) : FVal :=
  match y, x with
  | .nan, _ => .nan
  | _, .nan => .nan
  | .fin sy my _, .fin sx mx _ =>
      if my = 0 ∧ mx = 0 then of64 (Config.atan2 (to64 y) (to64 x))
      else
        let steep := !(y.abs.le x.abs)
        let a := atanUnit (if steep then x.abs.div y.abs else y.abs.div x.abs)
        let a := if steep then (ofFx (fxPi / 2)).sub a else a
        let a := if sx then (ofFx fxPi).sub a else a
        nudge64 3 (to64 y, to64 x) (if sy then a.neg else a)
  | _, _ => of64 (Config.atan2 (to64 y) (to64 x))

/-- The quaternion of a rotation vector. -/
def quatFromRotvec (v : V3) : Quat :=
  let a := v.len
  if a.isZero then ⟨FVal.ofInt 1, FVal.zero, FVal.zero, FVal.zero⟩
  else
    let h := mul64 a (.fin false 1 (-1))
    let c := cosV h
    let k := div64 (sinV h) a
    ⟨c, mul64 v.x k, mul64 v.y k, mul64 v.z k⟩

/-- The rotation vector of a quaternion. -/
def rotvecOf (q : Quat) : V3 :=
  let v : V3 := ⟨q.x, q.y, q.z⟩
  let n := v.len
  if n.isZero then ⟨FVal.zero, FVal.zero, FVal.zero⟩
  else
    let a := mul64 (FVal.ofInt 2) (atan2V n q.w)
    v.scale (div64 a n)

/-- R258: v_a + w · (v_b - v_a): the difference rounded, then one fused multiply-add, both in a format. -/
def lerp (f : Flt) (w a b : FVal) : FVal := f.round (a.add (w.mul (f.round (b.sub a))))

/-- The weight of R258, rounded to FP32. -/
def weight (t ta tb : Int) : FVal := r32 (FVal.ratio (t - ta) (tb - ta).toNat)

/-- The angle in [0, π/2] with a given cosine, by Newton's iteration. -/
def fxAcos (d : Int) : Nat → Int → Int
  | 0, x => x
  | n + 1, x => fxAcos d n (x + fxDiv (fxCos x - d) (fxSin x))

/-- R259: spherical-linear interpolation of two quaternions of FP32 values, each component as the exactly rounded FP32
value moved by the free offset of at most 2 units in the last place that the manual allows. -/
def slerp (w : FVal) (qa qb : Quat) : List Nat :=
  let l (q : Quat) : List Int := [toFx q.w, toFx q.x, toFx q.y, toFx q.z]
  let a := l qa
  let b0 := l qb
  let dot0 := (a.zip b0).foldl (fun s e => s + fxMul e.1 e.2) 0
  let b := if dot0 < 0 then b0.map (fun x => -x) else b0
  let dot := dot0.natAbs
  let wx := toFx w
  let one : Int := (2 ^ fxP : Nat)
  let th := fxAcos (min one (dot : Int)) 64 (fxPi / 2)
  let mix := if (dot : Int) ≥ one ∨ th < one / 1024 then
      (a.zip b).map (fun e => e.1 + fxMul wx (e.2 - e.1))
    else
      let sn := fxSin th
      let ka := fxDiv (fxSin (fxMul (one - wx) th)) sn
      let kb := fxDiv (fxSin (fxMul wx th)) sn
      (a.zip b).map (fun e => fxMul ka e.1 + fxMul kb e.2)
  let n := fxSqrt (mix.foldl (fun s x => s + fxMul x x) 0)
  mix.map (fun x =>
    let c := to32 (ofFx (fxDiv x n))
    let off := Config.slerpUlp c (to32 w) % 5
    if off ≤ 2 then c + off else c + 2 - off)

end Sys2Proof.Machine
end

