-- ==== Sys2Proof/Machine/Bridle.lean ====
section
/-!
DEFINITION. Machine/Bridle.lean: the QP solver (R582 to R614): FX64, images, the course of a solve, its outcomes.
-/
namespace Sys2Proof.Machine

/-! ### FX64 (R584 to R586) -/

/-- The value of a word at an exponent (R585). -/
def fxVal (x w : Int) : FVal := (FVal.ofInt (max w (-(2 ^ 63 - 1)))).scale2 x

/-- An exact value rounded to a word at an exponent, and whether it was clamped (R585). `nan` is what 0/0 leaves. -/
def fxWord (x : Int) (v : FVal) (nan : Int := 0) : Int × Bool :=
  let top : Int := 2 ^ 63 - 1
  match v with
  | .inf s => (if s then -top else top, true)
  | .nan => (max nan (-top), false)
  | v =>
      let w := (v.scale2 (-x)).rint.getD 0
      if top < w then (top, true) else if w < -top then (-top, true) else (w, false)

/-- The exact sum of values. -/
def fxSum (l : List FVal) : FVal := l.foldl FVal.add FVal.zero

/-- The words of a list, and whether any was clamped. -/
def fxWords (x : Int) (l : List FVal) : List Int × Bool :=
  let ws := l.map (fun v => fxWord x v)
  (ws.map (fun w => w.1), ws.any (fun w => w.2))

/-- A word of a list. -/
def wAt (l : List Int) (i : Nat) : Int := l.getD i 0

/-- The exponent of array `i` of R584. -/
def BrSlot.e (b : BrSlot) (i : Nat) : Int := b.exps.getD i 0

/-! ### Images (R588 to R591) -/

/-- The Bridle updated. -/
def Side.brSet (s : Side) (f : Bridle → Bridle) : Side := { s with br := f s.br }

/-- A slot. -/
def Side.brSlot (s : Side) (i : Nat) : Option BrSlot := s.br.slots.getD i none

/-- A slot set, with the registers that show it (R613). -/
def Side.setBrSlot (s : Side) (i : Nat) (b : Option BrSlot) : Side :=
  let s := s.brSet (fun r => { r with slots := setAt r.slots i b })
  let st (b : BrSlot) : Nat := b.work * 2 ^ 32 + unsigned 8 b.k * 2 ^ 24 + (if b.poisoned then 4 else 0) + (if b.factor.isSome then 2 else 0) + 1
  let w (k v : Nat) (s : Side) : Side := s.wr k (BitVec.ofNat 64 v)
  let s := w (Reg.BR_SSIG i) (b.elim 0 (fun b => b.sig)) s
  let s := w (Reg.BR_SSTAT i) (b.elim 0 st) s
  let s := w (Reg.BR_STIME i) (b.elim 0 (fun b => b.factorNs * 2 ^ 32 + b.iterNs)) s
  w Reg.BR_WORK (s.br.slots.foldl (fun a x => a + x.elim 0 (fun b => b.work)) 0) s

/-- A section of an image by its kind: offset and length; none where the kind is missing or repeated. -/
def brSection (dir : List (Nat × Nat × Nat)) (kind : Nat) : Option (Nat × Nat) :=
  match dir.filter (fun e => e.1 == kind) with
  | [e] => some e.2
  | _ => none

/-- `n` fields of `w` bytes from a side-local address. -/
def Side.nums (s : Side) (a w n : Nat) : List Nat := (upTo n).map (fun i => s.num (a + w * i) w)

/-- Whether column starts rise from 0 to the number of entries. -/
def startsOk (st : List Nat) (nnz : Nat) : Bool :=
  st.headD 1 == 0 && st.getLastD 0 == nnz && ((st.zip (st.drop 1)).all (fun p => decide (p.1 ≤ p.2)))

/-- The entries of compressed columns, by column. -/
def byColumn {α : Type} (st : List Nat) (l : List α) : List (List α) :=
  (st.zip (st.drop 1)).map (fun p => (l.drop p.1).take (p.2 - p.1))

/-- Compressed columns as (row, column) pairs. -/
def pairsOf (cols : List (List Nat)) : List (Nat × Nat) :=
  (((upTo cols.length).zip cols).map (fun c => c.2.map (fun r => (r, c.1)))).flatten

/-- The symbolic fill of the permuted K: the rows of each column of L (R591). -/
def symbolicFill (upper : List (List Nat)) : List (List Nat) :=
  let n := upper.length
  let lower (j : Nat) : List Nat := ((upTo n).filter (fun i => decide (j < i) && (upper.getD i []).contains j))
  (upTo n).foldl (fun (acc : List (List Nat)) j =>
    let kids := acc.filter (fun c => (c.foldl (fun m r => min m r) n) == j)
    let all := (lower j ++ (kids.flatten.filter (fun r => decide (j < r)))).eraseDups
    acc ++ [all.mergeSort]) []

/-- What a BR_BIND reads of an image: the slot it makes, or that the image is bad. -/
def Side.readImage (s : Side) (a len : Nat) : Option BrSlot :=
  let h := s.num a 128
  let n := sfld h 12 0 16
  let m := sfld h 14 0 16
  let nt := n + m
  let np := sfld h 16 0 32
  let na := sfld h 20 0 32
  let nk := sfld h 24 0 32
  let nl := sfld h 28 0 32
  let k := signed 8 (sfld h 44 0 8)
  let headOk := decide (1 ≤ n) && decide (n ≤ 1024) && decide (m ≤ 2048) && decide (nk ≤ 131072) && decide (nl ≤ 524288) &&
    decide (sfld h 32 0 32 ≤ 8388608) && decide (-24 ≤ k) && decide (k ≤ 24) && sfld h 45 0 8 == 9
  let dir := (upTo 9).map (fun i => (s.num (a + 128 + 16 * i) 4, s.num (a + 132 + 16 * i) 4, s.num (a + 136 + 16 * i) 4))
  let secs := (upTo 9).map (fun i => brSection dir (i + 1))
  let sec (i : Nat) : Nat × Nat := (secs.getD (i - 1) none).getD (0, 0)
  let at_ (i : Nat) : Nat := a + (sec i).1
  let want := [2 * nt, ceilDiv nt 8, 4 * (n + 1) + 2 * np, 4 * (n + 1) + 2 * na, 4 * (nt + 1) + 6 * nk, 4 * (nt + 1) + 2 * nl, 12,
    8 * (n + 2 * m + np + na)]
  let apart := ((upTo 9).all (fun i => (upTo 9).all (fun j => decide (j ≤ i) ||
    (let x := sec (i + 1); let y := sec (j + 1); decide (x.1 + x.2 ≤ y.1) || decide (y.1 + y.2 ≤ x.1) || x.2 == 0 || y.2 == 0))))
  let secsOk := secs.all (fun x => x.isSome) && ((upTo 8).all (fun i => (sec (i + 1)).2 == want.getD i 0)) && apart &&
    (upTo 9).all (fun i => decide (272 ≤ (sec (i + 1)).1) && decide ((sec (i + 1)).1 + (sec (i + 1)).2 ≤ len))
  if !(headOk && secsOk) then none
  else
    let perm := s.nums (at_ 1) 2 nt
    let signs := (upTo nt).map (fun j => bitAt (s.num (at_ 2 + j / 8) 1) (j % 8))
    let cols (o c w nnz : Nat) : List Nat × List Nat := (s.nums o 4 (c + 1), s.nums (o + 4 * (c + 1)) w nnz)
    let (ps, pr) := cols (at_ 3) n 2 np
    let (as_, ar) := cols (at_ 4) n 2 na
    let (ks, kr) := cols (at_ 5) nt 2 nk
    let src := s.nums (at_ 5 + 4 * (nt + 1) + 2 * nk) 4 nk
    let (ls, lr) := cols (at_ 6) nt 2 nl
    let pcols := byColumn ps pr
    let kcols := byColumn ks (kr.zip src)
    let krows := byColumn ks kr
    let lcols := byColumn ls lr
    let inRange := perm.all (fun r => decide (r < nt)) && perm.eraseDups.length == nt && startsOk ps np && startsOk as_ na && startsOk ks nk &&
      startsOk ls nl && (pairsOf pcols).all (fun e => decide (e.1 ≤ e.2)) && ar.all (fun r => decide (r < m)) &&
      (pairsOf krows).all (fun e => decide (e.1 ≤ e.2)) && (pairsOf lcols).all (fun e => decide (e.2 < e.1) && decide (e.1 < nt)) &&
      src.all (fun w => !(bitAt w 31) || decide (w % 2 ^ 30 < (if bitAt w 30 then na else np)))
    let diag := (upTo nt).all (fun j => (krows.getD j []).contains j)
    let sigBytes := s.bytes (a + 12) 20 ++ ((upTo 6).map (fun i => s.bytes (at_ (i + 1)) (sec (i + 1)).2)).flatten
    let sig := sfld h 0 0 64
    if !(inRange && diag && (lcols.map (fun c => c.mergeSort)) == symbolicFill krows && fromBytes (shake256 sigBytes 8) == sig) then none
    else
      let ex := (upTo 12).map (fun i => signed 8 (s.num (at_ 7 + i) 1))
      let init := (s.nums (at_ 8) 8 (n + 2 * m + np + na)).map (fun w => max (signed 64 w) (-(2 ^ 63 - 1)))
      let part (from' c : Nat) : List Int := (init.drop from').take c
      let lo := part n m
      let hi := part (n + m) m
      let z := (upTo m).map (fun i => max (wAt lo i) (min (wAt hi i) 0))
      some ⟨sig, sfld h 8 0 32, n, m, sfld h 32 0 32, sfld h 36 0 32, sfld h 40 0 32, ex, perm, signs, pairsOf pcols,
        pairsOf (byColumn as_ ar), kcols, lcols, part 0 n, lo, hi, part (n + 2 * m) np, part (n + 2 * m + np) na,
        List.replicate n 0, z, List.replicate m 0, k, none, false⟩

/-! ### Admission (R591, R594 to R597, R614) -/

/-- Whether an FP64 field is finite and above 0. -/
def pos64 (v : Nat) : Bool := (of64 v).isFin && FVal.zero.lt (of64 v)

/-- What the chapter says of the admission of a Bridle command. -/
def brChecks (s : Side) (cmd : Nat) : Checks :=
  let op := sfld cmd 0 0 8
  let closed : Option Nat := if s.flag Reg.BR_CTRL 0 then none else some 0
  if op = 1 then
    { reserved := anySet cmd [(32, 3, 5), (33, 2, 6), byteRange 34 63], space := closed, worst := (135000, 1) }
  else if op = 2 then
    let pa := sfld cmd 32 0 64
    let b := s.struct pa 128 8
    let ok := s.readable pa 128 8
    let nu := sfld b 100 0 16
    let ua := sfld b 16 0 64
    let list := ok && decide (nu ≤ 4096) && nu != 0
    let us := s.struct ua (16 * nu) 8
    let okU := list && s.readable ua (16 * nu) 8
    let tau := of64 (sfld b 80 0 64)
    let delta := of64 (sfld b 88 0 64)
    let k0 := signed 8 (sfld b 106 0 8)
    let kMin := signed 8 (sfld b 107 0 8)
    let kMax := signed 8 (sfld b 108 0 8)
    let kOk (k : Int) : Bool := decide (-24 ≤ k) && decide (k ≤ 24)
    let alpha := sfld b 104 0 16
    let alphaOk := decide (32768 ≤ alpha)
    let budget := sfld b 96 0 32
    let place (a n al : Nat) : Bool := a % al != 0 || s.badExtent a n
    { reserved := anySet cmd [(40, 2, 6), byteRange 41 63] || (ok && (anySet b [(110, 3, 5), byteRange 111 127] || sfld b 110 0 2 == 3)) ||
        (okU && (upTo nu).any (fun i => anySet us [(16 * i + 12, 3, 5), byteRange (16 * i + 13) (16 * i + 15)] || decide (5 ≤ sfld us (16 * i + 12) 0 3))),
      blocks := (pa, 128, 8) :: (if list then [(ua, 16 * nu, 8)] else []),
      length := ok && (!(pos64 (sfld b 56 0 64)) || !(pos64 (sfld b 64 0 64)) || !(pos64 (sfld b 72 0 64)) || !tau.isFin || !(FVal.zero.le tau) ||
        !(tau.le delta) || !(pos64 (sfld b 88 0 64)) || decide (budget < 1000) || decide (184000 < budget) || decide (4096 < nu) ||
        sfld b 102 0 16 == 0 || !alphaOk || !(kOk k0) || !(kOk kMin) || !(kOk kMax) || decide (kMax < kMin) ||
        (bitAt b (8 * 110 + 2) && (decide (k0 < kMin) || decide (kMax < k0)))),
      address := ok && (place ua (16 * nu) 8 || place (sfld b 24 0 64) 41088 64 || (sfld b 32 0 64 != 0 && s.badExtent (sfld b 32 0 64) 128) ||
        (sfld b 110 0 2 == 2 && s.badExtent (sfld b 48 0 64) 41088)),
      space := closed, worst := (16000 + 10 * nu + budget, 1) }
  else { opcode := true, space := closed }

/-! ### Products and residuals (R603) -/

/-- The rows of Ax, exact. -/
def BrSlot.ax (b : BrSlot) (x : List Int) : List FVal :=
  let ts := (b.a.zip b.av).map (fun e => (e.1.1, (fxVal (b.e 5) e.2).mul (fxVal (b.e 0) (wAt x e.1.2))))
  (upTo b.m).map (fun i => fxSum ((ts.filter (fun t => t.1 == i)).map (fun t => t.2)))

/-- The rows of Px + q + Aᵀy, exact. -/
def BrSlot.grad (b : BrSlot) (x y : List Int) : List FVal :=
  let pt := ((b.p.zip b.pv).map (fun e =>
    let v := fxVal (b.e 4) e.2
    let one := (e.1.1, v.mul (fxVal (b.e 0) (wAt x e.1.2)))
    if e.1.1 = e.1.2 then [one] else [one, (e.1.2, v.mul (fxVal (b.e 0) (wAt x e.1.1)))])).flatten
  let at_ := (b.a.zip b.av).map (fun e => (e.1.2, (fxVal (b.e 5) e.2).mul (fxVal (b.e 2) (wAt y e.1.1))))
  let ts := pt ++ at_
  (upTo b.n).map (fun i => (fxSum ((ts.filter (fun t => t.1 == i)).map (fun t => t.2))).add (fxVal (b.e 3) (wAt b.q i)))

/-- The greatest magnitude of words at an exponent, as FP64. -/
def normInf (x : Int) (ws : List Int) : FVal := r64 (fxVal x ((ws.foldl (fun m w => max m w.natAbs) 0 : Nat) : Int))

/-- An iterate with its residuals, and whether a word was clamped. -/
def BrSlot.iterate (b : BrSlot) (epsP epsD : FVal) (idx : Nat) (x z y : List Int) : BrIter × Bool :=
  let (rp, s1) := fxWords (b.e 10) (((b.ax x).zip z).map (fun e => e.1.sub (fxVal (b.e 1) e.2)))
  let (rd, s2) := fxWords (b.e 11) (b.grad x y)
  let p := normInf (b.e 10) rp
  let d := normInf (b.e 11) rd
  (⟨idx, x, z, y, to64 p, to64 d, to64 (maxMerit (div64 p epsP) (div64 d epsD))⟩, s1 || s2)
where
  maxMerit (a c : FVal) : FVal := if a.lt c then c else a

/-- Whether an iterate has converged (R603). -/
def BrIter.converged (i : BrIter) (epsP epsD : FVal) : Bool := (of64 i.prim).le epsP && (of64 i.dual).le epsD

/-- Π (R602). -/
def BrSlot.proj (b : BrSlot) (i : Nat) (v : FVal) : FVal :=
  let lo := fxVal (b.e 1) (wAt b.lo i)
  let hi := fxVal (b.e 1) (wAt b.hi i)
  let c := if hi.lt v then hi else v
  if c.lt lo then lo else c

/-! ### Factorisation and solution (R602, R605) -/

/-- The K values of a structure (R584, R583), by column, and whether one was clamped. -/
def BrSlot.kWords (b : BrSlot) (sigma k : Int) : List (List (Nat × Int)) × Bool :=
  let cols := (((upTo b.kkt.length).zip b.kkt).map (fun c =>
    c.2.map (fun e =>
      let src := e.2
      let mat := if bitAt src 31 then
          if bitAt src 30 then fxVal (b.e 5) (wAt b.av (src % 2 ^ 30)) else fxVal (b.e 4) (wAt b.pv (src % 2 ^ 30))
        else FVal.zero
      let v := if e.1 = c.1 then
          if b.perm.getD c.1 0 < b.n then mat.add (fxVal (b.e 6) sigma) else mat.sub ((FVal.ofInt 1).scale2 (-k))
        else mat
      (e.1, fxWord (b.e 6) v))))
  (cols.map (fun c => c.map (fun e => (e.1, e.2.1))), cols.any (fun c => c.any (fun e => e.2.2)))

/-- An entry of sparse columns, 0 where it is not stored. -/
def colAt (cols : List (List (Nat × Int))) (j i : Nat) : Int :=
  match (cols.getD j []).find? (fun e => e.1 == i) with
  | some e => e.2
  | none => 0

/-- A factorisation in progress. -/
structure BrFac where
  l : List (List (Nat × Int))
  d : List Int
  sat : Bool
  inertia : Bool
  pivot : Option Nat
  deriving DecidableEq, Repr

/-- Column `j` of the factor (R605). -/
def BrSlot.facColumn (b : BrSlot) (kw : List (List (Nat × Int))) (tau delta : Int) (f : BrFac) (j : Nat) : BrFac :=
  let lv (c i : Nat) : FVal := fxVal (b.e 7) (colAt f.l c i)
  let dv (c : Nat) : FVal := fxVal (b.e 8) (wAt f.d c)
  let ks := (upTo j).filter (fun c => (b.lpat.getD c []).contains j)
  let schur (i : Nat) : FVal := (fxVal (b.e 6) (colAt kw i j)).sub (fxSum (ks.map (fun c => ((lv c i).mul (lv c j)).mul (dv c))))
  let (w, s1) := fxWord (b.e 8) (schur j)
  let neg := b.signs.getD j false
  let small := decide ((w.natAbs : Int) < tau)
  let w' := if small then (if w < 0 ∨ (w = 0 ∧ neg = true) then -delta else delta) else w
  let inertia := !small && w != 0 && decide (w < 0) != neg
  let pd := fxVal (b.e 8) w'
  let col := (b.lpat.getD j []).map (fun i => (i, fxWord (b.e 7) ((schur i).div pd) (signed 64 (Config.zeroPivot j i))))
  ⟨f.l ++ [col.map (fun e => (e.1, e.2.1))], f.d ++ [w'], f.sat || s1 || col.any (fun e => e.2.2), f.inertia || inertia,
    f.pivot.or (if small then some j else none)⟩

/-- The factor of K at a σ and ρ exponent. -/
def BrSlot.factorise (b : BrSlot) (sigma k tau delta : Int) : BrFac :=
  let (kw, s) := b.kWords sigma k
  (upTo (b.n + b.m)).foldl (b.facColumn kw tau delta) ⟨[], [], s, false, none⟩

/-- The solution of K w = b (R602): every element of W an exact sum, rounded once. -/
def BrSlot.solveK (b : BrSlot) (f : BrFactor) (rhs : List Int) : List Int × Bool :=
  let n := b.n + b.m
  let wv (l : List Int) (i : Nat) : FVal := fxVal (b.e 9) (wAt l i)
  let start := (upTo n).map (fun j => wAt rhs (b.perm.getD j 0))
  let fwd := (upTo n).foldl (fun (acc : List Int × Bool) j =>
    let ks := (upTo j).filter (fun c => (b.lpat.getD c []).contains j)
    let v := (wv start j).sub (fxSum (ks.map (fun c => (fxVal (b.e 7) (colAt f.l c j)).mul (wv acc.1 c))))
    let (w, s) := fxWord (b.e 9) v
    (acc.1 ++ [w], acc.2 || s)) ([], false)
  let mid := (upTo n).map (fun j => fxWord (b.e 9) ((wv fwd.1 j).div (fxVal (b.e 8) (wAt f.d j))) (signed 64 (Config.zeroPivot j j)))
  let midw := mid.map (fun e => e.1)
  let bwd := (upTo n).foldl (fun (acc : List Int × Bool) r =>
    let j := n - 1 - r
    let v := (wv acc.1 j).sub (fxSum ((f.l.getD j []).map (fun e => (fxVal (b.e 7) e.2).mul (wv acc.1 e.1))))
    let (w, s) := fxWord (b.e 9) v
    (setAt acc.1 j w, acc.2 || s)) (midw, false)
  let back := (upTo n).foldl (fun (acc : List Int) j => setAt acc (b.perm.getD j 0) (wAt bwd.1 j)) (List.replicate n 0)
  (back, fwd.2 || mid.any (fun e => e.2) || bwd.2)

/-- One iteration (R602): the new x, z, y, and whether a word was clamped. -/
def BrSlot.iteration (b : BrSlot) (f : BrFactor) (sigma alpha : Int) (i : BrIter) : (List Int × List Int × List Int) × Bool :=
  let sg := fxVal (b.e 6) sigma
  let al : FVal := (FVal.ofInt alpha).scale2 (-16)
  let be : FVal := (FVal.ofInt (65536 - alpha)).scale2 (-16)
  let xv (j : Nat) : FVal := fxVal (b.e 0) (wAt i.x j)
  let zv (j : Nat) : FVal := fxVal (b.e 1) (wAt i.z j)
  let yv (j : Nat) : FVal := fxVal (b.e 2) (wAt i.y j)
  let rho (v : FVal) : FVal := v.scale2 f.k
  let inv (v : FVal) : FVal := v.scale2 (-f.k)
  let (rhs, s1) := fxWords (b.e 9) ((upTo b.n).map (fun j => (sg.mul (xv j)).sub (fxVal (b.e 3) (wAt b.q j))) ++
    (upTo b.m).map (fun j => (zv j).sub (inv (yv j))))
  let (w, s2) := b.solveK f rhs
  let wv (j : Nat) : FVal := fxVal (b.e 9) (wAt w j)
  let (x, s3) := fxWords (b.e 0) ((upTo b.n).map (fun j => (al.mul (wv j)).add (be.mul (xv j))))
  let mix (j : Nat) : FVal := (al.mul ((zv j).add (inv ((wv (b.n + j)).sub (yv j))))).add (be.mul (zv j))
  let (z, s4) := fxWords (b.e 1) ((upTo b.m).map (fun j => b.proj j ((mix j).add (inv (yv j)))))
  let (y, s5) := fxWords (b.e 2) ((upTo b.m).map (fun j => (yv j).add (rho ((mix j).sub (fxVal (b.e 1) (wAt z j))))))
  ((x, z, y), s1 || s2 || s3 || s4 || s5)

/-! ### Setup (R598 to R601) -/

/-- The flags of RESULT by their bit (R609). -/
def brFlag (bit : Nat) (on : Bool) : Nat := if on then 2 ^ bit else 0

/-- The updates of a solve applied in order (R599): the slot, how many were skipped, whether one was clamped, whether P or A
changed. -/
def BrSlot.update (b : BrSlot) (us n : Nat) : BrSlot × Nat × Bool × Bool :=
  (upTo n).foldl (fun (acc : BrSlot × Nat × Bool × Bool) i =>
    let b := acc.1
    let v := of64 (sfld us (16 * i) 0 64)
    let ix := sfld us (16 * i + 8) 0 32
    let t := sfld us (16 * i + 12) 0 3
    let len := if t = 0 then b.n else if t ≤ 2 then b.m else if t = 3 then b.pv.length else b.av.length
    let bound := t == 1 || t == 2
    if v.isNan || (!v.isFin && !bound) || decide (len ≤ ix) then (b, acc.2.1 + 1, acc.2.2)
    else
      let (w, s) := fxWord (b.e (if t = 0 then 3 else if bound then 1 else if t = 3 then 4 else 5)) v
      let b := if t = 0 then { b with q := setAt b.q ix w } else if t = 1 then { b with lo := setAt b.lo ix w }
        else if t = 2 then { b with hi := setAt b.hi ix w } else if t = 3 then { b with pv := setAt b.pv ix w } else { b with av := setAt b.av ix w }
      (b, acc.2.1, acc.2.2.1 || (s && v.isFin), acc.2.2.2 || decide (3 ≤ t))) (b, 0, false, false)

/-- The warm start of a solve (R601): x, y and the flags WS_DISCARDED and WS_POISON. -/
def Side.warmStart (s : Side) (b : BrSlot) (ws a : Nat) : List Int × List Int × Nat :=
  let cold := (List.replicate b.n (0 : Int), List.replicate b.m (0 : Int))
  if ws = 1 then (b.x, b.y, 0)
  else if ws = 0 then (cold.1, cold.2, 0)
  else
    let l := local46 a
    let size := 128 + 8 * (b.n + 2 * b.m)
    let h := s.num l 128
    if s.poisoned l size then (cold.1, cold.2, brFlag 5 true + brFlag 9 true)
    else if sfld h 0 0 64 ≠ b.sig ∨ sfld h 56 0 16 ≠ b.n ∨ sfld h 58 0 16 ≠ b.m ∨
        [signed 8 (sfld h 53 0 8), signed 8 (sfld h 54 0 8), signed 8 (sfld h 55 0 8)] ≠ [b.e 0, b.e 1, b.e 2] then
      (cold.1, cold.2, brFlag 5 true)
    else
      let word (o : Nat) : Int := max (signed 64 (s.num (l + o) 8)) (-(2 ^ 63 - 1))
      ((upTo b.n).map (fun i => word (128 + 8 * i)), (upTo b.m).map (fun i => word (128 + 8 * (b.n + b.m + i))), 0)

/-- The parameters of R594. -/
def brParam (o : Op) : Nat := o.block (o.f 32 0 64)
/-- EPS_P and EPS_D. -/
def brEps (b : Nat) : FVal × FVal := (of64 (sfld b 56 0 64), of64 (sfld b 64 0 64))

/-- The end of a Bridle command. -/
def Side.brEnd (s : Side) (o : Op) (met : Bool) (status result : Nat) : Side :=
  (s.brSet (fun r => { r with run := none })).finish o met status result

/-- The start of a solve, at most its setup's longest time after S (R598, steps 1 to 6). -/
def Side.brSetup (s : Side) (o : Op) (setup : Nat) : Side :=
  let b := brParam o
  let start := match o.run with | some (_, t) => t | none => s.now
  let tr := sfld b 32 0 64
  let tl := local46 tr
  let maxAge := sfld b 40 0 64
  let seq := s.num (tl + 64) 8
  let val := s.num tl 8
  let i := o.f 40 0 2
  let wl := local46 (sfld b 48 0 64)
  if tr ≠ 0 ∧ s.readGuarded 0x0B tl 128 = true then s.brEnd o false stAddress 0
  else if tr ≠ 0 ∧ s.poisoned tl 128 = true then s.brEnd o false stPoison 0
  else if tr ≠ 0 ∧ (seq = 0 ∨ (maxAge ≠ 0 ∧ val + maxAge < start)) then (s.count Reg.BR_CNT2 16 16).brEnd o false stEpoch 0
  else
    match s.brSlot i with
    | none => s.brEnd o false stFlagged (brFlag 10 true)
    | some sl =>
        if sl.poisoned then s.brEnd o false stPoison 0
        else if sfld b 0 0 64 ≠ 0 ∧ sfld b 0 0 64 ≠ sl.sig then s.brEnd o false stFlagged (brFlag 11 true)
        else if sfld b 110 0 2 = 2 ∧ s.readGuarded 0x0B wl (128 + 8 * (sl.n + 2 * sl.m)) = true then s.brEnd o false stAddress 0
        else
          let nu := sfld b 100 0 16
          let (sl, skipped, sat, mats) := sl.update (o.block (sfld b 16 0 64)) nu
          let crossed := (upTo sl.m).any (fun j => decide (wAt sl.hi j < wAt sl.lo j))
          let want := if bitAt b (8 * 110 + 2) then signed 8 (sfld b 106 0 8) else sl.k
          let (sigma, s0) := fxWord (sl.e 6) (of64 (sfld b 72 0 64))
          let (x, y, wf) := s.warmStart sl (sfld b 110 0 2) (sfld b 48 0 64)
          let (z, s1) := fxWords (sl.e 1) (((upTo sl.m).zip (sl.ax x)).map (fun e => sl.proj e.1 e.2))
          let (it, s2) := sl.iterate (brEps b).1 (brEps b).2 0 x z y
          let e := start + min setup (12000 + 10 * nu)
          let by_ := sfld b 8 0 64
          let d := if by_ = 0 then e + sfld b 96 0 32 else min by_ (e + sfld b 96 0 32)
          let flags := wf + brFlag 14 (skipped != 0) + brFlag 13 crossed + brFlag 8 (sat || s0 || s1 || s2)
          s.brSet (fun r => { r with run := some ⟨i, sl, d, e, decide (d < e), sigma, want, it, it, flags, 0, 0xFFFF, skipped, mats,
            if tr = 0 then (0, 0) else (val, seq)⟩ })

/-! ### Outcomes (R606 to R611) -/

/-- How a solve ends. -/
inductive BrOutcome where
  | converged
  | maxIter
  | deadline (inFactor : Bool)
  deriving DecidableEq, Repr

/-- Whether the next piece of work is a factorisation (R600). -/
def BrRun.needsFactor (r : BrRun) : Bool :=
  match r.work.factor with
  | none => true
  | some f => r.updated || f.k != r.want || f.sigma != r.sigma

/-- The iterate that an outcome records and leaves in its slot (R607 to R609). -/
def BrRun.kept (r : BrRun) (out : BrOutcome) : BrIter :=
  match out with
  | .converged => r.last
  | .maxIter => r.best
  | .deadline f => if f then r.last else r.best

/-- The flags of a solve that ends (R610). -/
def BrRun.endFlags (r : BrRun) (out : BrOutcome) : Nat :=
  let none_ := r.last.idx == 0
  let fl := match out with
    | .converged => brFlag 0 true
    | .maxIter => brFlag 1 true
    | .deadline f => brFlag 2 true + brFlag 3 f + brFlag 12 (f && !none_) + brFlag 4 none_
  r.flags ||| fl ||| brFlag 15 (r.refactors != 0) ||| brFlag 6 (r.pivot != 0xFFFF)

/-- The status of a solve that ends (R609). -/
def BrRun.endStatus (r : BrRun) (out : BrOutcome) : Nat :=
  let flags := r.endFlags out
  match out with
  | .deadline true => stInFactor
  | .deadline false => stSolverDeadline
  | _ => if bitAt flags 5 then stWarmDiscard else if bitAt flags 6 then stPivot else if flags % 2 ^ 15 / 2 ≠ 0 then stFlagged else stDone

/-- The exponent that a solve ends with. -/
def BrRun.endK (r : BrRun) : Int := match r.work.factor with | some f => f.k | none => r.want

/-- RESULT of a solve that ends (R610). -/
def BrRun.endResult (r : BrRun) (out : BrOutcome) : Nat :=
  r.endFlags out % 2 ^ 16 + min r.refactors 255 * 2 ^ 16 + unsigned 8 (r.endK) * 2 ^ 24 + r.pivot % 2 ^ 16 * 2 ^ 32 +
    min r.last.idx 65535 * 2 ^ 48

/-- The bytes of the record that a solve ends with (R611). -/
def Side.solution (s : Side) (o : Op) (r : BrRun) (out : BrOutcome) : List Byte :=
  let start := match o.run with | some (_, t) => t | none => s.now
  let it := r.kept out
  let decided := match out with | .deadline _ => r.due | _ => r.time
  let st := s.verifiedStatus o.unit o.inst (r.endStatus out)
  let b := r.work
  let header := toBytes 8 b.sig ++ toBytes 4 b.sched ++ toBytes 4 it.idx ++ toBytes 8 start ++ toBytes 8 decided ++ toBytes 8 it.prim ++
    toBytes 8 it.dual ++ toBytes 2 st ++ toBytes 2 (r.endFlags out % 2 ^ 16) ++ toBytes 1 (unsigned 8 (r.endK)) ++
    toBytes 1 (unsigned 8 (b.e 0)) ++ toBytes 1 (unsigned 8 (b.e 1)) ++ toBytes 1 (unsigned 8 (b.e 2)) ++ toBytes 2 b.n ++ toBytes 2 b.m ++
    toBytes 2 r.pivot ++ toBytes 2 (min r.skipped 65535) ++ toBytes 8 r.traj.1 ++ toBytes 8 r.traj.2 ++ toBytes 48 0
  let words (l : List Int) : List Byte := (l.map (fun w => toBytes 8 (unsigned 64 w))).flatten
  header ++ words it.x ++ words it.z ++ words it.y

/-- The outcome decided: the record, the resident iterate, the counters, the completion. -/
def Side.brDecide (s : Side) (o : Op) (r : BrRun) (out : BrOutcome) : Side :=
  let it := r.kept out
  let flags := r.endFlags out
  let st := s.verifiedStatus o.unit o.inst (r.endStatus out)
  let (s, met) := s.scatter 0x0B (goodAt (local46 (sfld (brParam o) 24 0 64)) (s.solution o r out))
  let s := match s.brSlot r.slot with
    | some old => s.setBrSlot r.slot (some { r.work with x := it.x, z := it.z, y := it.y, k := r.endK, poisoned := old.poisoned })
    | none => s
  let s := match out with
    | .converged => s.count Reg.BR_CNT 48 16
    | .deadline true => s.count Reg.BR_CNT 16 16
    | .deadline false => s.count Reg.BR_CNT 32 16
    | .maxIter => s
  let s := if bitAt flags 5 then s.count Reg.BR_CNT 0 16 else s
  let s := if bitAt flags 6 then s.count Reg.BR_CNT2 48 16 else s
  let s := if bitAt flags 8 then s.count Reg.BR_CNT2 32 16 else s
  s.brEnd o met st (r.endResult out)

/-- One piece of work completed: a factorisation or an iteration (R600, R602 to R605). -/
def BrRun.piece (r : BrRun) (b : Nat) (t : Nat) : BrRun :=
  let sat (fl : Nat) (x : Bool) : Nat := if x && !bitAt fl 8 then fl + brFlag 8 true else fl
  if r.needsFactor then
    let (tau, s1) := fxWord (r.work.e 8) (of64 (sfld b 80 0 64))
    let (delta, s2) := fxWord (r.work.e 8) (of64 (sfld b 88 0 64))
    let f := r.work.factorise r.sigma r.want tau delta
    let fl := if f.inertia && !bitAt r.flags 7 then r.flags + brFlag 7 true else r.flags
    { r with work := { r.work with factor := some ⟨f.l, f.d, r.want, r.sigma⟩ }, time := t, updated := false, refactors := r.refactors + 1,
             flags := sat fl (f.sat || s1 || s2), pivot := if r.pivot = 0xFFFF then f.pivot.getD 0xFFFF else r.pivot }
  else
    match r.work.factor with
    | none => r
    | some f =>
        let (n, s1) := r.work.iteration f r.sigma (sfld b 104 0 16 : Nat) r.last
        let (it, s2) := r.work.iterate (brEps b).1 (brEps b).2 (r.last.idx + 1) n.1 n.2.1 n.2.2
        let best := if (of64 r.best.merit).lt (of64 it.merit) then r.best else it
        let every := sfld b 109 0 8
        let p := of64 it.prim
        let d := of64 it.dual
        let sixteen (v : FVal) : FVal := mul64 (FVal.ofInt 16) v
        let k := if every ≠ 0 ∧ it.idx % every = 0 ∧ it.converged (brEps b).1 (brEps b).2 = false then
            let k := if (sixteen d).lt p then r.want + 1 else if (sixteen p).lt d then r.want - 1 else r.want
            max (signed 8 (sfld b 107 0 8)) (min (signed 8 (sfld b 108 0 8)) k)
          else r.want
        { r with last := it, best := best, time := t, flags := sat r.flags (s1 || s2), want := k }

/-- The outcome that the present iterate decides. -/
def BrRun.decided (r : BrRun) (b : Nat) : Option BrOutcome :=
  if r.late then some (.deadline false)
  else if r.last.converged (brEps b).1 (brEps b).2 then some .converged
  else if r.last.idx ≠ 0 ∧ sfld b 102 0 16 ≤ r.last.idx then some .maxIter
  else none

/-- Pieces of work by their times in ns: those that complete at or before D count (R606). -/
def brPieces (b : Nat) : List Nat → BrRun → BrRun × Option BrOutcome
  | l, r =>
      match r.decided b, l with
      | some out, _ => (r, some out)
      | none, [] => (r, none)
      | none, d :: rest => if r.due < r.time + d then (r, none) else brPieces b rest (r.piece b (r.time + d))

/-- The work of a solve carried on through some pieces; the iterations completed are counted (R668 event 0x0701). -/
def Side.brWork (s : Side) (o : Op) (pieces : List Nat) : Side :=
  match s.br.run with
  | none => s
  | some r =>
      let (w, out) := brPieces (brParam o) pieces r
      let s := s.pmCount (monitorOf 0x0B 0) 0x0701 (w.last.idx - r.last.idx) o.pmAttr
      match out with
      | some out => s.brDecide o w out
      | none => s.brSet (fun x => { x with run := some w })

/-- BR_SOLVE: setup where the solve has not begun, then pieces of work. -/
def brSolve (setup : Nat) (pieces : List Nat) (o : Op) (s : Side) : Side :=
  match s.br.run with
  | some _ => s.brWork o pieces
  | none => (s.brSetup o setup).brWork o pieces

/-- BR_SOLVE_DEADLINE (R606): after D, work in progress is abandoned and the outcome decided. -/
def Side.brDeadline (s : Side) : Side :=
  match s.br.run, s.ops.find? (fun o => o.unit == 0x0B && o.opcode == 2 && o.run.isSome) with
  | some r, some o => if r.due < s.now then s.brDecide o r (.deadline r.needsFactor) else s
  | _, _ => s

/-! ### BR_BIND, poison, enabling (R591 to R593, R614) -/

/-- Bytes of an image that are read, by the extent that its verification protects. -/
def Side.brImageLen (s : Side) (i : Nat) : Nat :=
  let a := local46 (s.fld (Reg.BR_IMG i) 12 52 * 4096)
  match s.guards.find? (fun g => g.owner == 0x14 && decide (g.lo ≤ a) && decide (a < g.hi)) with
  | some g => g.hi - a
  | none => 0

/-- BR_BIND. -/
def brBind (o : Op) (s : Side) : Side :=
  let i := o.f 32 0 3
  let sl := o.f 33 0 2
  let a := local46 (s.fld (Reg.BR_IMG i) 12 52 * 4096)
  let work := s.num (a + 32) 4
  if s.flag (Reg.BR_IMG i) 0 = false then s.brEnd o false stFlagged (work + 2 ^ 32)
  else if s.readGuarded 0x0B a (s.brImageLen i) then s.brEnd o false stAddress work
  else if s.poisoned a (s.brImageLen i) then (s.setBrSlot sl none).brEnd o false stPoison work
  else
    match s.readImage a (s.brImageLen i) with
    | none => s.brEnd o false stFlagged (work + 2 ^ 33)
    | some b =>
        let others := (upTo 4).foldl (fun acc k => if k = sl then acc else acc + (s.brSlot k).elim 0 (fun x => x.work)) 0
        if 16777216 < b.work + others then s.brEnd o false stFlagged (work + 2 ^ 34)
        else (s.setBrSlot sl (some b)).brEnd o false stDone work

/-- BR_SLOT_POISON (R593): the event names the command running on the slot, whose access found the error (R759). -/
def Side.brPoison (s : Side) (i : Nat) : Side :=
  match s.brSlot i with
  | none => s
  | some b =>
      let s := s.setBrSlot i (some { b with poisoned := true })
      match s.ops.find? (fun o => o.unit == 0x0B && o.opcode == 2 && o.run.isSome && o.f 40 0 2 == i) with
      | some o => s.raise 0x06 0x0B 0 (some (o.chain, o.queue))
      | none => s.raise 0x06 0x0B 0

/-- BR_CTRL.ENABLE written (R614). -/
def Side.brEnable (s : Side) (on : Bool) : Side :=
  let s := s.put Reg.BR_CTRL 0 1 (if on then 1 else 0)
  if on then s else (upTo 4).foldl (fun s i => s.setBrSlot i none) s

end Sys2Proof.Machine
end

