-- ==== Sys2Proof/Machine/Ctl.lean ====
section
/-!
DEFINITION. Machine/Ctl.lean: the registers of a Groom (R57, R75).
-/
namespace Sys2Proof.Machine

/-- A Groom of the side. -/
def Side.groom (s : Side) (g : Nat) : Groom := s.grooms.getD g Groom.reset

/-- A Groom of the side replaced. -/
def Side.setGroom (s : Side) (g : Nat) (r : Groom) : Side := { s with grooms := setAt s.grooms g r }

/-- A Groom of the side updated. -/
def Side.onGroom (s : Side) (g : Nat) (f : Groom → Groom) : Side := s.setGroom g (f (s.groom g))

/-- A general register; x0 reads zero (R57). -/
def Groom.rx (r : Groom) (i : Nat) : Word := if i = 0 then 0 else r.x.getD i 0

/-- A general register written; writes to x0 are discarded (R57). -/
def Groom.wx (r : Groom) (i : Nat) (v : Word) : Groom := if i = 0 then r else { r with x := setAt r.x i v }

/-- A vector register (R57). -/
def Groom.rv (r : Groom) (i : Nat) : BitVec 512 := r.v.getD i 0

/-- A vector register written (R57). -/
def Groom.wv (r : Groom) (i : Nat) (v : BitVec 512) : Groom := { r with v := setAt r.v i v }

/-- A predicate register; p0 reads all ones (R57). -/
def Groom.rp (r : Groom) (i : Nat) : Word := if i = 0 then BitVec.allOnes 64 else r.p.getD i 0

/-- A predicate register written; writes to p0 are discarded (R57). -/
def Groom.wp (r : Groom) (i : Nat) (v : Word) : Groom := if i = 0 then r else { r with p := setAt r.p i v }

/-- One ctl register of R75: who may read it, who may write it (none: nobody), the bits a write sets, the bits a write
leaves, and its reset value. Bits of neither mask are reserved. -/
structure CtlSpec where
  num : Nat
  readLvl : Nat
  writeLvl : Option Nat
  rw : Nat
  ro : Nat
  reset : Nat
  deriving DecidableEq, Repr

/-- The ctl registers (R75). -/
def ctlTable : List CtlSpec :=
  let all := 2 ^ 64 - 1
  let addr := 2 ^ 64 - 4
  [ ⟨0x000, 1, some 1, 0x3C, 0x03, 2⟩,
    ⟨0x001, 1, some 1, all, 0, 0⟩, ⟨0x002, 1, some 1, all, 0, 0⟩, ⟨0x003, 1, some 1, all, 0, 0⟩,
    ⟨0x004, 1, some 2, addr, 0, 0⟩, ⟨0x005, 1, some 1, all, 0, 0⟩,
    ⟨0x008, 2, some 2, all, 0, 0⟩, ⟨0x009, 2, some 2, all, 0, 0⟩, ⟨0x00A, 2, some 2, all, 0, 0⟩,
    ⟨0x00B, 2, some 2, addr, 0, 0⟩, ⟨0x00C, 2, some 2, all, 0, 0⟩,
    ⟨0x010, 0, some 1, 0xFFFF, 0xFFFF0000, 0⟩,
    ⟨0x011, 0, some 1, 0x3, 0, 0⟩, ⟨0x012, 0, some 1, all, 0, 0⟩, ⟨0x013, 0, some 1, 0xFFFFFFFF, 0, 0⟩,
    ⟨0x014, 0, some 1, 0x1FFF, 0, 0⟩, ⟨0x015, 0, some 1, 0x3FFF, 0, 0⟩,
    ⟨0x016, 1, some 1, 0xF, 0, 0⟩, ⟨0x017, 1, some 1, all, 0, 0⟩,
    ⟨0x018, 2, some 2, 0x1, 0xFFFFFFFF00000000, 0⟩,
    ⟨0x020, 0, some 0, all, 0, 0⟩, ⟨0x021, 0, none, 0, all, 0⟩, ⟨0x022, 0, none, 0, all, 0⟩ ]

/-- The row of R75 for a ctl number. -/
def ctlSpec (n : Nat) : Option CtlSpec := ctlTable.find? (fun c => c.num == n)

/-- The reset value of a ctl register. -/
def ctlDefault (n : Nat) : Word :=
  BitVec.ofNat 64 (match ctlSpec n with | some c => c.reset | none => 0)

/-- A ctl register's value. -/
def Groom.ctlGet (r : Groom) (n : Nat) : Word := alGet (ctlDefault n) r.ctl n

/-- A ctl register set by the Groom's own machinery. -/
def Groom.ctlSet (r : Groom) (n : Nat) (v : Word) : Groom := { r with ctl := alPut (ctlDefault n) r.ctl n v }

/-- The privilege level (R75 PL). -/
def Groom.pl (r : Groom) : Nat := (r.ctlGet 0).fld 0 2

/-- Interrupt enable (R75 IE). -/
def Groom.ie (r : Groom) : Bool := (r.ctlGet 0).flag 2

end Sys2Proof.Machine
end

