-- ==== Sys2Proof/Machine/Tensors.lean ====
section
/-!
DEFINITION. Machine/Tensors.lean: tensor descriptors and the Relay (R409 to R430).
-/
namespace Sys2Proof.Machine

/-! ### Descriptors (R409 to R419) -/

/-- A tensor descriptor as read (R409). -/
structure Desc where
  base : Nat
  fmt : Nat
  rank : Nat
  log0 : Nat
  log1 : Nat
  size : List Nat
  stride : List Int
  bufBase : Nat
  bufLen : Nat
  deriving DecidableEq, Repr

/-- The descriptor that 128 bytes spell. -/
def descOf (v : Nat) : Desc :=
  let r := sfld v 9 0 3
  ⟨sfld v 0 0 64, sfld v 8 0 4, r, sfld v 10 0 3, sfld v 11 0 3, (upTo r).map (fun d => sfld v (16 + 4 * d) 0 32),
    (upTo r).map (fun d => signed 64 (sfld v (48 + 8 * d) 0 64)), sfld v 96 0 64, sfld v 104 0 64⟩

/-- Whether a reserved field of a descriptor is set (R17, R410). -/
def descReserved (v : Nat) : Bool :=
  let r := sfld v 9 0 3
  anySet v [(8, 4, 4), (9, 3, 5), (10, 3, 5), (11, 3, 5), byteRange 12 15, byteRange 40 47, byteRange 112 127] ||
    (upTo 6).any (fun d => decide (r ≤ d) && (sfld v (16 + 4 * d) 0 32 != 0 || sfld v (48 + 8 * d) 0 64 != 0))

/-- Block extents B0 and B1. -/
def Desc.b0 (d : Desc) : Nat := 2 ^ d.log0
@[inherit_doc Desc.b0] def Desc.b1 (d : Desc) : Nat := 2 ^ d.log1

/-- Bits of an element. -/
def Desc.width (d : Desc) : Nat := fmtBits d.fmt

/-- Whether a descriptor is refused with BAD_FORMAT by R369, R410, R411 and R416. -/
def Desc.badFormat (d : Desc) : Bool :=
  d.rank == 0 || d.rank == 7 || decide (5 < d.log0) || decide (5 < d.log1) || !(fmtAssigned d.fmt) || d.fmt == 0xC ||
    d.b0 * d.b1 * d.width % 8 != 0 || (decide (1 < d.b1) && d.rank == 1)

/-- UB, the bytes of a unit (R411). -/
def Desc.ub (d : Desc) : Nat := d.b0 * d.b1 * d.width / 8

/-- The size of dimension `k`, 1 beyond the rank. -/
def Desc.sz (d : Desc) (k : Nat) : Nat := d.size.getD k 1

/-- The units along each dimension (R412). -/
def Desc.units (d : Desc) : List Nat :=
  (upTo d.rank).map (fun k => if k = 0 then d.sz 0 / d.b0 else if k = 1 then d.sz 1 / d.b1 else d.sz k)

/-- The product of a list. -/
def prod (l : List Nat) : Nat := l.foldl (fun a x => a * x) 1

/-- The elements of a tensor. -/
def Desc.count (d : Desc) : Nat := prod d.size

/-- The extent of a descriptor (R413): its first byte and the byte after its last. A size of 0 gives n_d − 1 = −1, and the
checks look at that extent like at any other (R143). -/
def Desc.extent (d : Desc) : Int × Int :=
  let spans : List Int := (d.stride.zip d.units).map (fun e => e.1 * ((e.2 : Int) - 1))
  let lo := spans.foldl (fun a x => a + min 0 x) 0
  let hi := spans.foldl (fun a x => a + max 0 x) 0
  ((d.base : Int) + d.ub * lo, (d.base : Int) + d.ub * (hi + 1))

/-- The length of the extent. -/
def Desc.bytes (d : Desc) : Nat := (d.extent.2 - d.extent.1).toNat

/-- Whether a descriptor is refused with LENGTH_BEYOND_EXTENT (R411, R413). -/
def Desc.badLength (d : Desc) : Bool :=
  d.sz 0 % d.b0 != 0 || (decide (1 < d.rank) && d.sz 1 % d.b1 != 0) ||
    (d.bufLen != 0 && d.bytes != 0 && (decide (d.extent.1 < d.bufBase) || decide ((d.bufBase + d.bufLen : Nat) < d.extent.2)))

/-- Whether BASE misses the alignment of R414. -/
def Desc.misaligned (d : Desc) : Bool := (d.ub == 2 || d.ub == 4 || d.ub == 8) && d.base % d.ub != 0

/-- Whether a descriptor of device memory is refused with ADDRESS_FAULT (R413, R414). -/
def Side.descAddress (s : Side) (d : Desc) : Bool :=
  d.misaligned || (d.bytes != 0 && (decide (d.extent.1 < 0) || s.badExtent d.extent.1.toNat d.bytes))

/-- R418: a written descriptor has a zero stride. -/
def Desc.zeroStride (d : Desc) : Bool := d.stride.any (fun x => x == 0)

/-- The fold of R419 over the sorted dimensions: whether a stride falls within the units covered so far. -/
def aliasGo : Nat → List (Nat × Nat) → Bool
  | _, [] => false
  | span, (st, m) :: r => if st < span then true else aliasGo (span + st * (m - 1)) r

/-- R419: a written descriptor fails the aliasing test. -/
def Desc.aliases (d : Desc) : Bool :=
  let dims := ((d.stride.map Int.natAbs).zip d.units).filter (fun e => decide (1 < e.2))
  aliasGo 1 (dims.mergeSort (fun a b => decide (a.1 ≤ b.1)))

/-- Whether two extents overlap. -/
def Desc.overlaps (a b : Desc) : Bool :=
  a.bytes != 0 && b.bytes != 0 && decide (a.extent.1 < b.extent.2) && decide (b.extent.1 < a.extent.2)

/-- Every index of a list of extents, the first dimension fastest. -/
def indices : List Nat → List (List Nat)
  | [] => [[]]
  | n :: r => ((indices r).map (fun t => (upTo n).map (fun i => i :: t))).flatten

/-- The first byte of the unit with an index (R412). -/
def Desc.unitAt (d : Desc) (u : List Nat) : Nat :=
  ((d.base : Int) + d.ub * (d.stride.zip u).foldl (fun (a : Int) e => a + e.1 * (e.2 : Int)) 0).toNat

/-- Where an element lies: the first byte of its unit and its position in the unit (R411, R412). -/
def Desc.locate (d : Desc) (ix : List Nat) : Nat × Nat :=
  let i0 := ix.getD 0 0
  let i1 := ix.getD 1 0
  let u := (upTo d.rank).map (fun k => if k = 0 then i0 / d.b0 else if k = 1 then i1 / d.b1 else ix.getD k 0)
  (d.unitAt u, (if 1 < d.rank then i1 % d.b1 * d.b0 else 0) + i0 % d.b0)

/-- A memory as a command sees it: the number that `n` bytes at an address spell, and whether one of them is poisoned. -/
abbrev View := (Nat → Nat → Nat) × (Nat → Nat → Bool)

/-- The view of device memory, by side-local address. -/
def Side.view (s : Side) : View := (fun a n => s.num (local46 a) n, fun a n => s.poisoned (local46 a) n)

/-- The bits of an element and whether a byte they lie in is poisoned. -/
def Desc.elem (d : Desc) (m : View) (ix : List Nat) : Nat × Bool :=
  let (a, p) := d.locate ix
  let b := p * d.width
  let n := (b % 8 + d.width + 7) / 8
  (bits (m.1 (a + b / 8) n) (b % 8) d.width, m.2 (a + b / 8) n)

/-- The bits of an element and the mask of those that lie in a poisoned byte (R421). -/
def Desc.elemMask (d : Desc) (m : View) (ix : List Nat) : Nat × Nat :=
  let (a, p) := d.locate ix
  let b := p * d.width
  let n := (b % 8 + d.width + 7) / 8
  let mask := (upTo n).foldl (fun v j => if m.2 (a + b / 8 + j) 1 then v + 255 * 256 ^ j else v) 0
  (bits (m.1 (a + b / 8) n) (b % 8) d.width, bits mask (b % 8) d.width)

/-- The bytes that elements of `w` bits make, each poisoned where a poisoned bit of an element lies in it. -/
def unitBytes (w : Nat) (vals : List (Nat × Nat)) (n : Nat) : List (Byte × Bool) :=
  let number (l : List Nat) : Nat := ((upTo l.length).zip l).foldl (fun a e => a + e.2 % 2 ^ w * 2 ^ (w * e.1)) 0
  let v := number (vals.map (fun e => e.1))
  let bad := number (vals.map (fun e => e.2))
  (upTo n).map (fun k => (BitVec.ofNat 8 (v / 256 ^ k), bad / 256 ^ k % 256 != 0))

/-- The byte writes that give every element of a tensor the bits and the poisoned bits of `val`, at addresses of its own space. -/
def Desc.writesMask (d : Desc) (val : List Nat → Nat × Nat) : List (Nat × Byte × Bool) :=
  ((indices d.units).map (fun u =>
    let u0 := u.getD 0 0
    let u1 := u.getD 1 0
    let one := decide (1 < d.rank)
    let vals := ((upTo (if one then d.b1 else 1)).map (fun j1 => (upTo d.b0).map (fun j0 =>
      val ((u0 * d.b0 + j0) :: (if one then [u1 * d.b1 + j1] else []) ++ u.drop 2)))).flatten
    let a := d.unitAt u
    ((upTo d.ub).zip (unitBytes d.width vals d.ub)).map (fun (e : Nat × Byte × Bool) => (a + e.1, e.2.1, e.2.2)))).flatten

/-- The byte writes where an element is poisoned as a whole or not at all. -/
def Desc.writes (d : Desc) (val : List Nat → Nat × Bool) : List (Nat × Byte × Bool) :=
  d.writesMask (fun ix => let (v, bad) := val ix; (v, if bad then 2 ^ d.width - 1 else 0))

/-- Device addresses of byte writes made side-local. -/
def localWrites (ws : List (Nat × Byte × Bool)) : List (Nat × Byte × Bool) := ws.map (fun w => (local46 w.1, w.2))

/-- The extent of a descriptor of device memory, side-local. -/
def Desc.place (d : Desc) : Nat × Nat := (local46 d.extent.1.toNat, d.bytes)

/-! ### The Relay (R420 to R430) -/

/-- Lines read or written for a tensor: runs × (⌈r / 64⌉ + 1) (R427). -/
def Desc.lineRuns (d : Desc) : Nat :=
  let n := prod d.units
  let n0 := d.units.getD 0 1
  if n = 0 then 0
  else if (d.stride.getD 0 0).natAbs = 1 then n / n0 * (ceilDiv (n0 * d.ub) 64 + 1)
  else n * (ceilDiv d.ub 64 + 1)

/-- PERM_d of RL_COPY (R423). -/
def permOf (cmd r : Nat) : List Nat := (upTo r).map (fun d => sfld cmd (48 + d) 0 3)

/-- Whether a list is a permutation of 0 to its length less one. -/
def isPerm (l : List Nat) : Bool := (upTo l.length).all (fun i => l.contains i)

/-- What R423 to R427 say of the admission of a Relay command. -/
def rlChecks (s : Side) (cmd : Nat) : Checks :=
  let op := sfld cmd 0 0 8
  let a := sfld cmd 32 0 64
  let c := sfld cmd 40 0 64
  let worst (e l : Nat) : Nat × Nat := (2000 * 8 + max (10 * ceilDiv e 32) (5 * l), 8)
  if op = 1 then
    let v1 := s.struct a 128 8
    let v2 := s.struct c 128 8
    let ok1 := s.readable a 128 8
    let ok2 := s.readable c 128 8
    let x := descOf v1
    let y := descOf v2
    let f := (ok1 && x.badFormat) || (ok2 && y.badFormat)
    let ok := ok1 && ok2 && !f
    let p := permOf cmd y.rank
    { reserved := anySet cmd ([byteRange 54 63] ++ (upTo 6).map (fun d => (48 + d, 3, 5))) ||
        (ok1 && descReserved v1) || (ok2 && (descReserved v2 || (upTo 6).any (fun d => decide (y.rank ≤ d) && sfld cmd (48 + d) 0 3 != 0))),
      blocks := [(a, 128, 8), (c, 128, 8)],
      format := f || (ok && x.fmt != y.fmt),
      stride := ok2 && !y.badFormat && y.zeroStride,
      aliasing := (ok2 && !y.badFormat && y.aliases) || (ok && x.overlaps y),
      length := (ok1 && !x.badFormat && x.badLength) || (ok2 && !y.badFormat && (y.badLength || !(isPerm p))) ||
        (ok && (x.rank != y.rank || (upTo y.rank).any (fun d => y.sz d != x.sz (p.getD d 0)))),
      address := (ok1 && !x.badFormat && s.descAddress x) || (ok2 && !y.badFormat && s.descAddress y),
      worst := worst y.count (x.lineRuns + y.lineRuns) }
  else if op = 2 then
    let v := s.struct a 128 8
    let ok := s.readable a 128 8
    let y := descOf v
    let k := ok && !y.badFormat
    { reserved := anySet cmd [byteRange 48 63] || (ok && descReserved v) ||
        (ok && fmtAssigned y.fmt && decide (2 ^ y.width ≤ c)), blocks := [(a, 128, 8)],
      format := ok && y.badFormat, stride := k && y.zeroStride, aliasing := k && y.aliases, length := k && y.badLength,
      address := k && s.descAddress y, worst := worst y.count y.lineRuns }
  else { opcode := true }

/-- The elements of a written tensor that no protected extent kept from being written (R428, R760): all of them where none
was met. -/
def Side.written (s : Side) (owner : Nat) (y : Desc) (met : Bool) : Nat :=
  if met then
    ((indices y.size).filter (fun ix =>
      let (a, p) := y.locate ix
      let b := p * y.width
      let lo := (local46 a + b / 8) / 64 * 64
      let hi := (local46 a + (b + y.width + 7) / 8 + 63) / 64 * 64
      !(s.writeGuarded owner lo (hi - lo)))).length
  else y.count

/-- The end of a Relay command (R428). -/
def Side.rlEnd (s : Side) (o : Op) (met : Bool) (status n : Nat) : Side :=
  s.finish o met status (n % 2 ^ 32 + o.inst * 2 ^ 40)

/-- RL_COPY (R425): destination element (i_d) takes source element (j) with j_(PERM_d) = i_d. -/
def rlCopy (o : Op) (s : Side) : Side :=
  let x := descOf (o.block (o.f 32 0 64))
  let y := descOf (o.block (o.f 40 0 64))
  let p := permOf o.cmd y.rank
  if x.count = 0 then s.rlEnd o false stDone 0
  else if s.readGuarded 0x0D x.place.1 x.place.2 then s.rlEnd o false stAddress 0
  else
    let src (ix : List Nat) : List Nat := (upTo x.rank).map (fun k => ix.getD (p.findIdx (fun v => v == k)) 0)
    let val (ix : List Nat) : Nat × Nat := x.elemMask s.view (src ix)
    let bad := (indices y.size).any (fun ix => (val ix).2 != 0)
    let (s, met) := s.scatter 0x0D (localWrites (y.writesMask val))
    s.rlEnd o met (if bad then stPoison else stDone) (s.written 0x0D y met)

/-- RL_FILL (R426): the low bits of VALUE in every element. -/
def rlFill (o : Op) (s : Side) : Side :=
  let y := descOf (o.block (o.f 32 0 64))
  if y.count = 0 then s.rlEnd o false stDone 0
  else
    let (s, met) := s.scatter 0x0D (localWrites (y.writes (fun _ => (o.f 40 0 64, false))))
    s.rlEnd o met stDone (s.written 0x0D y met)

end Sys2Proof.Machine
end

