-- ==== Sys2Proof/Machine/Draft.lean ====
section
/-!
DEFINITION. Machine/Draft.lean: the Draft engines (R367 to R408): the Manger, operands and scales, accumulation, output
conversion, the Vet, DR_STAGE, DR_GEMM and DR_SPCONV.
-/
namespace Sys2Proof.Machine

/-! ### The Manger (R384, R385) -/

/-- The Manger of an engine. -/
def Side.manger (s : Side) (e : Nat) : Manger := s.mangers.getD e ⟨[], [], true⟩

/-- A Manger updated. -/
def Side.onManger (s : Side) (e : Nat) (f : Manger → Manger) : Side :=
  { s with mangers := setAt s.mangers e (f (s.manger e)) }

/-- Whether a line is poisoned. -/
def Manger.lineBad (m : Manger) (l : Nat) : Bool := if m.rest then !(m.lines.contains l) else m.lines.contains l

/-- A line set poisoned or good. -/
def Manger.setLine (m : Manger) (bad : Bool) (l : Nat) : Manger :=
  { m with lines := if bad == m.rest then nsDel m.lines l else nsAdd m.lines l }

/-- Whether an extent holds a poisoned byte. -/
def Manger.poisoned (m : Manger) (a n : Nat) : Bool :=
  decide (0 < n) && (upTo ((a + n - 1) / 64 - a / 64 + 1)).any (fun i => m.lineBad (a / 64 + i))

/-- The number that `n` bytes spell. -/
def Manger.num (m : Manger) (a : Nat) (n : Nat) : Nat := fromBytes ((upTo n).map (fun i => alGet 0 m.cells (a + i)))

/-- One command's byte writes, with the poison rule of R385. -/
def Manger.scatter (m : Manger) (ws : List (Nat × Byte × Bool)) : Manger :=
  let m := { m with cells := ws.foldl (fun c w => alPut 0 c w.1 w.2.1) m.cells }
  (linesOf ws).foldl (fun m l =>
    let here := ws.filter (fun w => w.1 / 64 == l)
    if here.any (fun w => w.2.2) then m.setLine true l
    else if (here.map (fun w => w.1)).eraseDups.length == 64 then m.setLine false l else m) m

/-- R385: every line poisoned, as when the engine loses power or is withdrawn. -/
def Manger.kill : Manger := ⟨[], [], true⟩

/-- The view of a Manger. -/
def Side.mangerView (s : Side) (e : Nat) : View := ((s.manger e).num, (s.manger e).poisoned)

/-- R385: the errors that the words of a Manger meet: a corrected one, or an uncorrectable one that poisons its line. -/
def Side.mangerErrors (s : Side) (e : Nat) (errs : List (Nat × ErrKind)) : Side :=
  errs.foldl (fun s x =>
    if 2 ^ 22 ≤ x.1 then s
    else match x.2 with
      | .readBad => (s.onManger e (fun m => m.setLine true (x.1 / 64))).count (Reg.DR_MANGER e) 32 16
      | .fix => s.count (Reg.DR_MANGER e) 48 16
      | _ => s) s

/-- A command's byte writes to a Manger: poisoned also in a line where a byte fails its parity check (R442, R443), and all of
them where the command has been stopped (R134). -/
def Side.mangerStore (s : Side) (e : Nat) (errs : List (Nat × ErrKind)) (ws : List (Nat × Byte × Bool)) : Side :=
  s.onManger e (fun m => m.scatter (ws.map (fun w =>
    (w.1, w.2.1, w.2.2 || s.acts.spoil || errs.any (fun x => x.2 == ErrKind.parity && x.1 / 64 == w.1 / 64)))))

/-! ### Operands (R368 to R376) -/

/-- What a GEMM operand is for the pairs of R376 under a kind (0 unscaled, 1 MX, 2 KV), with R372 to R374: 0 to 3 its own
FP format, 4 a low-precision operand, 5 an integer. -/
def operandClass (f kind : Nat) : Option Nat :=
  if f ≤ 3 then (if kind = 0 then some f else none)
  else if f = 4 ∨ f = 5 then (if kind ≤ 2 then some 4 else none)
  else if f = 6 ∨ f = 7 then (if kind = 1 then some 4 else none)
  else if f = 8 then (if kind = 1 ∨ kind = 2 then some 4 else none)
  else if f = 9 then (if kind = 0 then some 5 else if kind ≤ 2 then some 4 else none)
  else if f = 0xA then (if kind = 0 then some 5 else if kind = 2 then some 4 else none)
  else none

/-- The rate class of an operand in bits (R368). -/
def operandBits (f : Nat) : Nat :=
  if f = 0 then 32 else if f = 1 then 19 else if f = 2 ∨ f = 3 then 16 else if f = 8 ∨ f = 0xA then 4 else 8

/-- ⌈K × F⌉ (R368, R395). -/
def arrayCycles (fa fb k : Nat) : Nat :=
  let w := max (operandBits fa) (operandBits fb)
  if w = 4 then ceilDiv k 2 else if w = 8 then k else if w = 16 then 2 * k else if w = 19 then 4 * k else 16 * k

/-- An operand element with its scale (R372, R373). -/
def operandVal (f kind bitsv scale : Nat) : FVal :=
  let v := fmtVal f bitsv
  if kind = 0 then v
  else if kind = 1 then (fmtVal 0xD scale).mul (if f = 9 then v.scale2 (-6) else v)
  else (fmtVal 3 scale).mul v

/-! ### Accumulation and conversion (R377 to R382) -/

/-- Sum of a list, exact. -/
def sumVals (l : List FVal) : FVal := l.foldl FVal.add FVal.zero

/-- The groups of 32 of R377. -/
def groups (n : Nat) : List (List Nat) :=
  (upTo (ceilDiv n 32)).map (fun g => (upTo (min 32 (n - 32 * g))).map (fun i => 32 * g + i))

/-- Floating accumulation (R377): each group's exact sum rounded once to FP32, then added with rounding to FP32. -/
def accFloat (start : FVal) (n : Nat) (a b : Nat → FVal) : FVal :=
  (groups n).foldl (fun acc g =>
    let ps := g.map (fun k => (a k).mul (b k))
    r32 (acc.add (r32 (match ps with | [] => FVal.zero | p :: r => r.foldl FVal.add p)))) start

/-- Integer accumulation in INT32 modulo 2^32 (R378): the value and whether an addition wrapped. -/
def accInt (start : Int) (n : Nat) (a b : Nat → Int) : Int × Bool :=
  (upTo n).foldl (fun acc k =>
    let v := acc.1 + a k * b k
    let w := signed 32 (unsigned 32 v)
    (w, acc.2 || w != v)) (start, false)

/-- Flags of RESULT [35:32] (R388). -/
structure DrFlags where
  nonfinite : Bool := false
  saturated : Bool := false
  wrap : Bool := false
  range : Bool := false
  deriving DecidableEq, Repr

/-- Flags joined. -/
def DrFlags.or (a b : DrFlags) : DrFlags :=
  ⟨a.nonfinite || b.nonfinite, a.saturated || b.saturated, a.wrap || b.wrap, a.range || b.range⟩

/-- RESULT [35:32] and whether any is set. -/
def DrFlags.word (f : DrFlags) : Nat :=
  (if f.nonfinite then 1 else 0) + (if f.saturated then 2 else 0) + (if f.wrap then 4 else 0) + (if f.range then 8 else 0)

/-- The float structure of an output format. -/
def outFlt (f : Nat) : Flt :=
  match f with
  | 0 => flt32 | 2 => fltB16 | 3 => flt16 | 4 => fltE4M3 | 5 => fltE5M2 | 6 => fltE3M2 | 7 => fltE2M3 | _ => fltE2M1

/-- The greatest finite magnitude of an output format (R369). -/
def outMax (f : Nat) : FVal :=
  match f with
  | 0 => flt32.ieee 0x7F7FFFFF | 2 => fltB16.ieee 0x7F7F | 3 => FVal.ofInt 65504 | 4 => FVal.ofInt 448 | 5 => FVal.ofInt 57344
  | 6 => FVal.ofInt 28 | 7 => .fin false 15 (-1) | 9 => .fin false 127 (-6) | _ => FVal.ofInt 6

/-- The magnitude of one sign. -/
def withSign (s : Bool) (v : FVal) : FVal := if s then v.neg else v

/-- The sign of a value. -/
def FVal.sign (v : FVal) : Bool := match v with | .fin s _ _ => s | .inf s => s | .nan => false

/-- An already rounded value into a plain output format: overflow, NaN and flags (R380, R382). -/
def plainOut (f : Nat) (sat : Bool) (v r : FVal) : Nat × DrFlags :=
  let fmt := outFlt f
  match v with
  | .nan => (if f = 4 then 0x7F else fmt.code .nan, { nonfinite := true })
  | .inf s => (if f = 4 then 0x7F else fmt.code (.inf s), { nonfinite := true })
  | .fin _ _ _ =>
      if (outMax f).lt r.abs then
        if f = 4 ∨ sat then (fmt.code (withSign r.sign (outMax f)), { saturated := true })
        else (fmt.code (.inf r.sign), { nonfinite := true })
      else (fmt.code r, {})

/-- A value rounded to nearest even to the precision of a format, its range unbounded. -/
def Flt.near (f : Flt) (v : FVal) : FVal := match v with | .fin s m e => f.quant s m e | v => v

/-- R382: a value of FP32 rounded stochastically with the hash of its element. -/
def stochastic (f : Nat) (h : Nat) (v : FVal) : FVal :=
  match v with
  | .fin s m e =>
      let lsb := flt32.ulp m e
      let q := (outFlt f).ulp m e
      let d := (q - lsb).toNat
      let m32 := roundAt m e lsb
      if m = 0 ∨ d = 0 then v
      else
        let r := if d ≤ 32 then h / 2 ^ (32 - d) else h * 2 ^ (d - 32)
        let carry := if 2 ^ d ≤ m32 % 2 ^ d + r then 1 else 0
        .fin s (m32 / 2 ^ d + carry) q
  | v => v

/-- The hash of R382. -/
def sroundHash (seed i : Nat) : Nat := (seed + i * 0x9E3779B9) * 0x85EBCA6B % 2 ^ 32

/-- emax of R381. -/
def mxEmax (f : Nat) : Int := if f = 4 then 8 else if f = 5 then 15 else if f = 6 then 4 else if f = 9 then 0 else 2

/-- R381: a block of values quantised to MX: its scale code, element codes and flags. -/
def mxBlock (f : Nat) (vs : List FVal) : Nat × List Nat × DrFlags :=
  if vs.any (fun v => !v.isFin) then (0xFF, vs.map (fun _ => 0), { nonfinite := true })
  else
    let amax := vs.foldl (fun a v => if a.lt v.abs then v.abs else a) FVal.zero
    let x : Int := match amax with
      | .fin _ m e => if m = 0 then -127 else max (-127) (min 127 ((bitLen m : Int) + e - 1 - mxEmax f))
      | _ => 0
    let one (v : FVal) : Nat × Bool :=
      let w := v.scale2 (-x)
      if f = 9 then
        let i := ((w.scale2 6).rint).getD 0
        let c := max (-127) (min 127 i)
        (unsigned 8 c, c != i)
      else
        let r := (outFlt f).near w
        if (outMax f).lt r.abs then ((outFlt f).code (withSign r.sign (outMax f)), true) else ((outFlt f).code r, false)
    let es := vs.map one
    ((x + 127).toNat, es.map (fun e => e.1), { saturated := es.any (fun e => e.2) })

/-! ### The Vet (R403 to R407) -/

/-- A fault of the hardware that disturbs a tile or rule block: the accumulator of a row and column moved by `delta` (an FP32
code, or an INT32 difference), or a disagreement of the duplicated conversion (R383). -/
abbrev VetFault := Nat × Nat × Nat × Nat × Bool

/-- A failing check: axis (0 column, 1 row), index, DELTA, BOUND. -/
structure VetFail where
  axis : Nat
  index : Nat
  delta : Nat
  bound : Nat
  deriving DecidableEq, Repr

/-- A non-negative value rounded toward +∞ in FP32. -/
def roundUp32 (v : FVal) : FVal :=
  match v with
  | .fin s m e =>
      let q := flt32.ulp m e
      let k := if q ≤ e then m * 2 ^ (e - q).toNat else ceilDiv m (2 ^ (q - e).toNat)
      if geTwoPow k q 128 then .inf s else .fin s k q
  | v => v

/-- S of a check (R405): its terms accumulated in FP32 rounded toward +∞. No order is stated, and of two terms or more it moves the
result by at most one unit in the last place for each rounding, at most two for each term, twice that across a power of two. -/
def vetSum (terms : List FVal) : FVal :=
  let base := roundUp32 (sumVals terms)
  let codes := (terms.map (fun t => to32 (roundUp32 t))).filter (fun c => c != 0)
  match base with
  | .fin _ _ _ => of32 (min 0x7F800000 (to32 base + Config.vetSlack codes % (4 * (codes.length - 1) + 1)))
  | v => v

/-- One floating check (R405, R406): passes (none), is skipped (some none), or fails. -/
def vetFloat (axis index : Nat) (cs cins : List FVal) (ref : FVal) (terms : List FVal) : Option (Option VetFail) :=
  let comp := sumVals cs
  let ref := (sumVals cins).add ref
  let sv := vetSum (cins.map FVal.abs ++ terms)
  if !(comp.isFin && ref.isFin && sv.isFin) then some none
  else
    let d := comp.sub ref
    let bound := sv.scale2 (-21)
    if d.abs.le bound then none else some (some ⟨axis, index % 128, to32 (r32 d), to32 (roundUp32 bound)⟩)

/-- One integer check (R404). -/
def vetInt (axis index : Nat) (comp ref : Int) : Option (Option VetFail) :=
  let d := unsigned 32 (comp - ref)
  if d = 0 then none else some (some ⟨axis, index % 128, d, 0⟩)

/-- What the checks of a tile say: whether one was skipped, and the first that failed. -/
def vetVerdict (rs : List (Option (Option VetFail))) : Bool × Option VetFail :=
  (rs.any (fun r => r == some none), (rs.filterMap (fun r => r.bind id)).head?)

/-- The checks of a tile of floating accumulation: rows and columns by index, with operand values. -/
def vetTileFloat (rows cols : List Nat) (n : Nat) (acc cin a b : Nat → Nat → FVal) (hasCin : Bool) : Bool × Option VetFail :=
  let colsum (l : List Nat) (f : Nat → Nat → FVal) (k : Nat) : FVal := sumVals (l.map (fun i => f i k))
  let c (i j : Nat) : List FVal := if hasCin then [cin i j] else []
  let ch (axis : Nat) (idx : Nat) : Option (Option VetFail) :=
    if axis = 0 then
      let j := cols.getD idx 0
      vetFloat 0 idx (rows.map (fun i => acc i j)) ((rows.map (fun i => c i j)).flatten)
        (sumVals ((upTo n).map (fun k => (colsum rows a k).mul (b k j))))
        (rows.map (fun i => (upTo n).map (fun k => (a i k).abs.mul (b k j).abs))).flatten
    else
      let i := rows.getD idx 0
      vetFloat 1 idx (cols.map (fun j => acc i j)) ((cols.map (fun j => c i j)).flatten)
        (sumVals ((upTo n).map (fun k => (a i k).mul (sumVals (cols.map (fun j => b k j))))))
        (cols.map (fun j => (upTo n).map (fun k => (a i k).abs.mul (b k j).abs))).flatten
  vetVerdict ((upTo cols.length).map (ch 0) ++ (upTo rows.length).map (ch 1))

/-- The sum of a list of integers. -/
def sumInts (l : List Int) : Int := l.foldl (fun a x => a + x) 0

/-- The checks of a tile of integer accumulation. -/
def vetTileInt (rows cols : List Nat) (n : Nat) (acc cin a b : Nat → Nat → Int) : Bool × Option VetFail :=
  let one (axis idx : Nat) : Option (Option VetFail) :=
    let rs := if axis = 0 then rows else [rows.getD idx 0]
    let cs := if axis = 0 then [cols.getD idx 0] else cols
    let cells := (rs.map (fun i => cs.map (fun j => (i, j)))).flatten
    vetInt axis idx (sumInts (cells.map (fun e => acc e.1 e.2)))
      (sumInts (cells.map (fun e => cin e.1 e.2 + sumInts ((upTo n).map (fun k => a e.1 k * b k e.2)))))
  vetVerdict ((upTo cols.length).map (one 0) ++ (upTo rows.length).map (one 1))

/-! ### Admission (R384 to R401) -/

/-- The descriptors a DR_GEMM names, in the order A, B, C, CIN, ASCALE, BSCALE, CSCALE: address and Manger bit. -/
def gemmNames (b : Nat) : List (Nat × Bool) :=
  (upTo 7).map (fun i => (sfld b (8 * i) 0 64, decide (i < 6) && bitAt (sfld b 56 0 6) i))

/-- The batch of an operand (R393). -/
def Desc.batch (d : Desc) : Nat := d.sz 2

/-- M of an operand whose dimension 1 is a row, 1 beyond the rank. -/
def Desc.dims (d : Desc) : List Nat := [d.sz 0, d.sz 1, d.batch]

/-- Whether an extent lies in a Loft or the hub SRAM. -/
def inSram (a : Nat) : Bool := decide (0x3000_0000_0000 ≤ local46 a)

/-- D × 4 + L of R395 for one descriptor of device memory. -/
def Desc.traffic (d : Desc) : Nat := if inSram d.extent.1.toNat then d.bytes else 4 * d.bytes

/-- Whether a Manger extent leaves what R384 gives. -/
def Desc.badManger (d : Desc) : Bool :=
  d.misaligned || (d.bytes != 0 && (decide (d.extent.1 < 0) || decide ((4128768 : Int) < d.extent.2)))

/-- What R391 to R401 say of the admission of a Draft engine command. -/
def drChecks (s : Side) (cmd : Nat) : Checks :=
  let op := sfld cmd 0 0 8
  let any := sfld cmd 4 0 16 == 0xFFFF
  let p := sfld cmd 32 0 64
  if op = 1 then
    let n := sfld cmd 44 0 32
    let m := sfld cmd 40 0 32
    { reserved := anySet cmd [(48, 1, 7), byteRange 49 63], length := decide (4128768 < m + n),
      address := any || m % 64 != 0 || s.badExtent p n,
      worst := if inSram p then (1000 * 512 + n, 512) else (1000 * 128 + n, 128) }
  else if op = 2 then
    let b := s.struct p 128 1
    let ok := s.readable p 128 1
    let names := gemmNames b
    let given (i : Nat) : Bool := ok && (decide (i < 3) || (names.getD i (0, false)).1 != 0)
    let addr (i : Nat) : Nat := (names.getD i (0, false)).1
    let man (i : Nat) : Bool := (names.getD i (0, false)).2
    let raw (i : Nat) : Nat := s.struct (addr i) 128 8
    let d (i : Nat) : Desc := descOf (raw i)
    let here (i : Nat) : Bool := given i && s.readable (addr i) 128 8
    let fine (i : Nat) : Bool := here i && !(d i).badFormat
    let all := upTo 7
    let ak := sfld b 57 0 2
    let bk := sfld b 57 2 2
    let sr := sfld b 57 5 1 == 1
    let mx := given 6
    let k := if fine 0 then (d 0).sz 0 else (d 1).sz 1
    let m := if fine 0 then (d 0).sz 1 else (d 2).sz 1
    let n := if fine 1 then (d 1).sz 0 else (d 2).sz 0
    let bt := if fine 0 then (d 0).batch else if fine 1 then (d 1).batch else (d 2).batch
    let kOn := fine 0 || fine 1
    let mOn := fine 0 || fine 2
    let nOn := fine 1 || fine 2
    let ca := operandClass (d 0).fmt ak
    let cb := operandClass (d 1).fmt bk
    let isInt := (if fine 0 then ca else cb) == some 5
    let cf := (d 2).fmt
    let flOut := if mx then cf == 4 || cf == 5 || cf == 6 || cf == 7 || cf == 8 || cf == 9
      else cf == 0 || cf == 2 || cf == 3 || cf == 4 || cf == 5
    let outOk := if !kOn then flOut || (!mx && cf == 0xB) else if isInt then !mx && cf == 0xB else flOut
    let scaleBad (kind i : Nat) : Bool := decide (kind ≤ 2) && ((given i != (kind != 0)) ||
      (fine i && (d i).fmt != (if kind = 1 then 0xD else 3)))
    let sub (f : Nat) : Bool := f == 6 || f == 7 || f == 8 || f == 0xA
    let want (i : Nat) : List (Bool × Nat) :=
      if i = 0 then [(kOn, k), (mOn, m), (true, bt)] else if i = 1 then [(nOn, n), (kOn, k), (true, bt)]
      else if i = 4 then [(kOn, k / 32), (mOn, m), (true, bt)] else if i = 5 then [(nOn, n), (kOn, k / 32), (true, bt)]
      else if i = 6 then [(nOn, n / 32), (mOn, m), (true, bt)] else [(nOn, n), (mOn, m), (true, bt)]
    let differs (i : Nat) : Bool := ((want i).zip (d i).dims).any (fun e => e.1.1 && e.1.2 != e.2)
    let beyond (i j : Nat) : Bool := fine i && fine j && man i == man j && (d i).overlaps (d j)
    let tiles := bt * ceilDiv m 128 * ceilDiv n 128
    let traffic := (all.filter (fun i => fine i && !(man i))).foldl (fun a i => a + (d i).traffic) 0
    { reserved := anySet cmd [byteRange 40 63] || (ok && (anySet b [(56, 6, 2), (57, 6, 2), byteRange 58 59, byteRange 64 127] ||
        ak == 3 || bk == 3)) || all.any (fun i => here i && descReserved (raw i)),
      blocks := (p, 128, 1) :: (all.filter given).map (fun i => (addr i, 128, 8)),
      format := all.any (fun i => here i && ((d i).badFormat || ((d i).rank != 2 && (d i).rank != 3) || (d i).stride.getD 0 0 != 1)) ||
        (ok && (scaleBad ak 4 || scaleBad bk 5)) || (fine 6 && (d 6).fmt != 0xD) ||
        (fine 0 && ca.isNone) || (fine 1 && cb.isNone) || (fine 0 && fine 1 && ca != cb) ||
        (fine 2 && (!outOk || (sr && (mx || !(cf == 2 || cf == 3 || cf == 4 || cf == 5))))) ||
        (kOn && (ak != 0 || bk != 0 || (fine 0 && sub (d 0).fmt) || (fine 1 && sub (d 1).fmt)) && k % 32 != 0) ||
        (nOn && mx && n % 32 != 0) ||
        (fine 3 && (d 3).fmt != 0xB && ((kOn && isInt) || decide (5 < (d 3).fmt) || (d 3).log0 != 0 || (d 3).log1 != 0)) ||
        (fine 3 && (d 3).fmt == 0xB && kOn && !isInt),
      stride := (fine 2 && (d 2).zeroStride) || (fine 6 && (d 6).zeroStride),
      aliasing := (fine 2 && (d 2).aliases) || (fine 6 && (d 6).aliases) || beyond 2 0 || beyond 2 1 || beyond 2 4 || beyond 2 5 || beyond 2 6 ||
        (addr 3 != addr 2 && beyond 2 3),
      length := all.any (fun i => fine i && (d i).badLength) || all.any (fun i => fine i && differs i),
      address := all.any (fun i => (ok && man i && any && given i) || (fine i && if man i then (d i).badManger else s.descAddress (d i))),
      worst := (2000 * 512 + max (640 * tiles * (arrayCycles (d 0).fmt (d 1).fmt k + 256)) traffic, 512) }
  else if op = 3 then
    let b := s.struct p 64 1
    let ok := s.readable p 64 1
    let rb := sfld b 0 0 64
    let rk := sfld (s.struct rb 16 8) 8 0 8
    let rn := 16 + 16 * rk
    let chunk := s.struct rb rn 8
    let okR := ok && s.readable rb rn 8
    let addr (i : Nat) : Nat := sfld b (8 + 8 * i) 0 64
    let man (i : Nat) : Bool := decide (i < 2) && bitAt (sfld b 32 0 2) i
    let raw (i : Nat) : Nat := s.struct (addr i) 128 8
    let d (i : Nat) : Desc := descOf (raw i)
    let here (i : Nat) : Bool := ok && s.readable (addr i) 128 8
    let fine (i : Nat) : Bool := here i && !(d i).badFormat
    let all := upTo 3
    let s0 := sfld b 33 0 8
    let sn := sfld b 34 0 8
    let fOk (f : Nat) : Bool := f == 2 || f == 3 || f == 4 || f == 5
    let segs := (upTo sn).map (fun i => s0 + i)
    let cnt (k : Nat) : Nat := sfld chunk (16 + 16 * k + 4) 0 32
    let fst (k : Nat) : Nat := sfld chunk (16 + 16 * k) 0 32
    let rulesEnd (ks : List Nat) : Nat := ks.foldl (fun a k => max a (8 * (fst k + cnt k))) 0
    let rEnd := rulesEnd segs
    let ruleBook : Desc := ⟨rb, 4, 1, 0, 0, [rn + rulesEnd (upTo rk)], [1], 0, 0⟩
    let cin := (d 0).sz 0
    let cout := (d 1).sz 0
    let rules := segs.foldl (fun a k => a + cnt k) 0
    let segOk := decide (s0 + sn ≤ rk)
    let p1 := segs.foldl (fun a k => a + (max (ceilDiv (cnt k) 128 * ceilDiv cout 128 * arrayCycles (d 0).fmt (d 1).fmt cin) (cnt k) + 256)) 0
    let unit (i n : Nat) : Nat := if man i then 0 else if inSram (d i).extent.1.toNat then n else 4 * n
    let zeroed := if sfld b 32 2 1 = 1 then sfld chunk 4 0 32 * cout * 4 else 0
    let q := unit 0 (rules * cin * (d 0).width / 8) + unit 1 (sn * cin * cout * (d 1).width / 8) +
      unit 2 (2 * rules * cout * 4 + zeroed)
    { reserved := anySet cmd [byteRange 40 63] || (ok && anySet b [(32, 3, 5), byteRange 35 63]) ||
        all.any (fun i => here i && descReserved (raw i)),
      blocks := (p, 64, 1) :: (if ok then (rb, rn, 8) :: all.map (fun i => (addr i, 128, 8)) else []),
      format := all.any (fun i => here i && ((d i).badFormat || ((d i).rank != 2 && (d i).rank != 3) || (d i).stride.getD 0 0 != 1)) ||
        (fine 0 && !(fOk (d 0).fmt)) || (fine 1 && !(fOk (d 1).fmt)) || (fine 2 && (d 2).fmt != 0) ||
        (fine 0 && fine 1 && operandClass (d 0).fmt 0 != operandClass (d 1).fmt 0),
      stride := fine 2 && (d 2).zeroStride,
      aliasing := (fine 2 && (d 2).aliases) || (fine 0 && fine 2 && !(man 0) && (d 2).overlaps (d 0)) ||
        (fine 1 && fine 2 && !(man 1) && (d 2).overlaps (d 1)) || (okR && fine 2 && (d 2).overlaps ruleBook),
      length := all.any (fun i => fine i && (d i).badLength) || (okR && (!segOk ||
          (fine 1 && (d 1).sz 2 != rk) || (fine 2 && decide ((d 2).sz 1 < sfld chunk 0 0 32 + sfld chunk 4 0 32)))) ||
        (fine 0 && fine 1 && cin != (d 1).sz 1) || (fine 1 && fine 2 && cout != (d 2).sz 0),
      address := all.any (fun i => (ok && man i && any) || (fine i && if man i then (d i).badManger else s.descAddress (d i))) ||
        (okR && segOk && s.badExtent (rb + rn) rEnd),
      worst := (2000 * 512 + max (640 * p1) q, 512) }
  else { opcode := true }

/-! ### Ends -/

/-- RESULT and status of an admitted Draft engine command (R388, R389). -/
def Side.drEnd (s : Side) (o : Op) (met mismatch poison : Bool) (f : DrFlags) (n : Nat) : Side :=
  let st := if mismatch then stCheck else if poison then stPoison else if f.word ≠ 0 then stFlagged else stDone
  s.finish o met st (n % 2 ^ 32 + f.word * 2 ^ 32 + o.inst * 2 ^ 40)

/-- The Vet's counters and its record of a command's first failing check (R407, R408), with the checksum-mismatch event. -/
def Side.vetEnd (s : Side) (o : Op) (checked mism skipped : Nat) (first : Option (Nat × VetFail)) : Side :=
  let e := o.inst
  let s := ((s.count (Reg.DR_VET e) 32 32 checked).count (Reg.DR_VET e) 16 16 mism).count (Reg.DR_VET e) 0 16 skipped
  let s := s.pmCount (monitorOf 0x0E e) 0x0202 checked o.pmAttr
  match first with
  | none => s
  | some (t, f) =>
      let dw := f.delta % 2 ^ 32 + f.bound % 2 ^ 32 * 2 ^ 32
      let s := s.wr (Reg.DR_VET_WHERE e) (BitVec.ofNat 64 (o.chain * 2 ^ 32 + t % 2 ^ 32))
      let s := s.wr (Reg.DR_VET_POS e) (BitVec.ofNat 64 (o.queue * 2 ^ 32 + f.axis * 256 + f.index))
      let s := s.wr (Reg.DR_VET_DELTA e) (BitVec.ofNat 64 dw)
      s.raise 0x01 0x0E e (some (o.chain, o.queue)) dw

/-! ### DR_STAGE (R391, R392) -/

/-- DR_STAGE: the bytes and their poison copied between device memory and the Manger. -/
def drStage (mErrs : List (Nat × ErrKind)) (o : Op) (s : Side) : Side :=
  let e := o.inst
  let a := local46 (o.f 32 0 64)
  let m := o.f 40 0 32
  let n := o.f 44 0 32
  let s := s.mangerErrors e mErrs
  if n = 0 then s.drEnd o false false false {} 0
  else if o.f 48 0 1 = 0 then
    if s.readGuarded 0x0E a n then s.drEnd o true false false {} 0
    else
      let ws := (upTo n).map (fun i => (m + i, s.mem.get (a + i), s.poisoned (a + i) 1))
      (s.mangerStore e mErrs ws).drEnd o false false (s.poisoned a n) {} n
  else
    let g := s.manger e
    let ws := (upTo n).map (fun i => (a + i, alGet 0 g.cells (m + i), g.poisoned (m + i) 1))
    let (s, met) := s.scatter 0x0E ws
    s.drEnd o met false (g.poisoned m n) {} n

/-! ### DR_GEMM (R393 to R396) -/

/-- One output element before conversion: its accumulator, as a float or an INT32, whether an addition wrapped. -/
structure GemmAcc where
  f : FVal
  i : Int
  wrap : Bool
  deriving DecidableEq, Repr

/-- What a tile came to: whether it is written poisoned, was checked, counts as skipped, its failing check. -/
structure GemmTile where
  bad : Bool
  checked : Bool
  skipped : Bool
  fail : Option VetFail
  deriving DecidableEq, Repr

/-- The indices of a tile along an axis of length `n`. -/
def tileIx (t n : Nat) : List Nat := (upTo (min 128 (n - 128 * t))).map (fun i => 128 * t + i)

/-- The tensors of a DR_GEMM, numbered A, B, C, CIN, ASCALE, BSCALE, CSCALE as its block orders them (R393). -/
def Op.gemmDesc (o : Op) (i : Nat) : Desc := descOf (o.block ((gemmNames (o.block (o.f 32 0 64))).getD i (0, false)).1)

/-- Whether an operand of a DR_GEMM lies in the Manger (R384). -/
def Op.gemmManger (o : Op) (i : Nat) : Bool := ((gemmNames (o.block (o.f 32 0 64))).getD i (0, false)).2

/-- Whether a DR_GEMM has an operand (R393). -/
def Op.gemmHas (o : Op) (i : Nat) : Bool := decide (i < 3) || ((gemmNames (o.block (o.f 32 0 64))).getD i (0, false)).1 != 0

/-- Whether a DR_GEMM has nothing to do (R143). -/
def Op.gemmEmpty (o : Op) : Bool :=
  (o.gemmDesc 0).sz 0 == 0 || (o.gemmDesc 0).sz 1 == 0 || (o.gemmDesc 1).sz 0 == 0 || (o.gemmDesc 0).batch == 0

/-- The extents of device memory that a DR_GEMM reads. -/
def Op.gemmReads (o : Op) : List (Nat × Nat) :=
  ((upTo 6).filter (fun i => i != 2 && o.gemmHas i && !(o.gemmManger i))).map (fun i => (o.gemmDesc i).place)

/-- What the tiles of a DR_GEMM came to: its byte writes to C and to CSCALE, its tiles, and its flags. -/
structure GemmRun where
  ws : List (Nat × Byte × Bool)
  cws : List (Nat × Byte × Bool)
  tiles : List GemmTile
  flags : DrFlags
  deriving DecidableEq, Repr

/-- The failing checks of a DR_GEMM with their tiles. -/
def GemmRun.fails (r : GemmRun) : List (Nat × VetFail) :=
  ((upTo r.tiles.length).zip r.tiles).filterMap (fun (x : Nat × GemmTile) => x.2.fail.map (fun f => (x.1, f)))

/-- Whether a tile was not checked for a poisoned input (R396). -/
def GemmRun.poison (r : GemmRun) : Bool := r.tiles.any (fun t => t.bad && !t.checked)

/-- C = CIN + A × B in tiles, each decided by the Vet (R394 to R396), from what the engine reads of its operands. -/
def Op.gemmRun (o : Op) (faults : List VetFault) (view : Nat → View) : GemmRun :=
  let b := o.block (o.f 32 0 64)
  let given := o.gemmHas
  let d := o.gemmDesc
  let ak := sfld b 57 0 2
  let bk := sfld b 57 2 2
  let sat := sfld b 57 4 1 == 1
  let sr := sfld b 57 5 1 == 1
  let seed := sfld b 60 0 32
  let k := (d 0).sz 0
  let m := (d 0).sz 1
  let n := (d 1).sz 0
  let bt := (d 0).batch
  let cf := (d 2).fmt
  let mx := given 6
  let isInt := operandClass (d 0).fmt ak == some 5
  let el (i : Nat) (ix : List Nat) : Nat × Bool := (d i).elem (view i) ix
  let scaleA (bb r kk : Nat) : Nat × Bool := if ak = 0 then (0, false) else el 4 [kk / 32, r, bb]
  let scaleB (bb kk c : Nat) : Nat × Bool := if bk = 0 then (0, false) else el 5 [c, kk / 32, bb]
  let av (bb r kk : Nat) : FVal := operandVal (d 0).fmt ak (el 0 [kk, r, bb]).1 (scaleA bb r kk).1
  let bv (bb kk c : Nat) : FVal := operandVal (d 1).fmt bk (el 1 [c, kk, bb]).1 (scaleB bb kk c).1
  let ai (bb r kk : Nat) : Int := ((fmtVal (d 0).fmt (el 0 [kk, r, bb]).1).rint).getD 0
  let bi (bb kk c : Nat) : Int := ((fmtVal (d 1).fmt (el 1 [c, kk, bb]).1).rint).getD 0
  let hasC := given 3
  let cin (bb r c : Nat) : FVal := if hasC then fmtVal (d 3).fmt (el 3 [c, r, bb]).1 else FVal.zero
  let cinI (bb r c : Nat) : Int := if hasC then signed 32 (el 3 [c, r, bb]).1 else 0
  let tm := ceilDiv m 128
  let tn := ceilDiv n 128
  let tileNo (bb r c : Nat) : Nat := (bb * tm + r / 128) * tn + c / 128
  let hit (t r c : Nat) : List VetFault := faults.filter (fun f => f.1 == t && f.2.1 == r % 128 && f.2.2.1 == c % 128 && !f.2.2.2.2)
  let acc (bb r c : Nat) : GemmAcc :=
    let fs := hit (tileNo bb r c) r c
    if isInt then
      let (v, w) := accInt (cinI bb r c) k (ai bb r) (fun kk => bi bb kk c)
      ⟨FVal.zero, fs.foldl (fun v f => signed 32 (unsigned 32 (v + f.2.2.2.1))) v, w⟩
    else ⟨fs.foldl (fun v f => r32 (v.add (of32 f.2.2.2.1))) (accFloat (cin bb r c) k (av bb r) (fun kk => bv bb kk c)), 0, false⟩
  let rowBad (bb r : Nat) : Bool := (upTo k).any (fun kk => (el 0 [kk, r, bb]).2 || (scaleA bb r kk).2)
  let colBad (bb c : Nat) : Bool := (upTo k).any (fun kk => (el 1 [c, kk, bb]).2 || (scaleB bb kk c).2)
  let tile (bb ta tc : Nat) : GemmTile :=
    let rows := tileIx ta m
    let cols := tileIx tc n
    let t := (bb * tm + ta) * tn + tc
    if rows.any (rowBad bb) || cols.any (colBad bb) || (hasC && rows.any (fun r => cols.any (fun c => (el 3 [c, r, bb]).2))) then
      ⟨true, false, true, none⟩
    else
      let (skip, fail) := if isInt then
          vetTileInt rows cols k (fun r c => (acc bb r c).i) (cinI bb) (ai bb) (bi bb)
        else vetTileFloat rows cols k (fun r c => (acc bb r c).f) (cin bb) (av bb) (bv bb) hasC
      let conv := faults.find? (fun f => f.1 == t && f.2.2.2.2)
      let fail := match fail, conv with
        | none, some f => some (VetFail.mk 0 (f.2.2.1 % 128) (Config.vetConversion (2 * f.2.2.2.1) % 2 ^ 32) (Config.vetConversion (2 * f.2.2.2.1 + 1) % 2 ^ 32))
        | x, _ => x
      ⟨fail.isSome, true, skip, fail⟩
  let tl := (upTo bt).map (fun bb => (upTo tm).map (fun ta => (upTo tn).map (fun tc => tile bb ta tc)))
  let tiles := tl.flatten.flatten
  let tileBad (bb r c : Nat) : Bool := match tiles[tileNo bb r c]? with | some (t : GemmTile) => t.bad | none => false
  let blockOf (bb r c : Nat) : Nat × List Nat × DrFlags := mxBlock cf ((upTo 32).map (fun j => (acc bb r (c / 32 * 32 + j)).f))
  let conv (bb r c : Nat) : Nat × DrFlags :=
    let x : GemmAcc := acc bb r c
    if isInt then (unsigned 32 x.i, { wrap := x.wrap })
    else if mx then let (_, es, fl) := blockOf bb r c; (es.getD (c % 32) 0, fl)
    else
      let v := x.f
      let rounded := if sr then stochastic cf (sroundHash seed ((bb * m + r) * n + c)) v else (outFlt cf).near v
      let (code, fl) := plainOut cf sat v rounded
      (code, fl.or { nonfinite := !v.isFin })
  let val (ix : List Nat) : Nat × Bool :=
    if tileBad (ix.getD 2 0) (ix.getD 1 0) (ix.getD 0 0) then (0, true)
    else ((conv (ix.getD 2 0) (ix.getD 1 0) (ix.getD 0 0)).1, false)
  let cells := indices [n, m, bt]
  let good := cells.filter (fun ix => !(tileBad (ix.getD 2 0) (ix.getD 1 0) (ix.getD 0 0)))
  let wraps := cells.any (fun ix => match tiles[tileNo (ix.getD 2 0) (ix.getD 1 0) (ix.getD 0 0)]? with
    | some t => t.checked && (acc (ix.getD 2 0) (ix.getD 1 0) (ix.getD 0 0)).wrap | none => false)
  let outFlags : DrFlags := good.foldl (fun (f : DrFlags) ix => f.or (conv (ix.getD 2 0) (ix.getD 1 0) (ix.getD 0 0)).2) {}
  let readNon := !isInt && ((indices [k, m, bt]).any (fun ix => !(av (ix.getD 2 0) (ix.getD 1 0) (ix.getD 0 0)).isFin) ||
    (indices [n, k, bt]).any (fun ix => !(bv (ix.getD 2 0) (ix.getD 1 0) (ix.getD 0 0)).isFin) ||
    (hasC && cells.any (fun ix => !(cin (ix.getD 2 0) (ix.getD 1 0) (ix.getD 0 0)).isFin)))
  let flags := outFlags.or { nonfinite := readNon || tiles.any (fun t => t.checked && t.skipped), wrap := wraps }
  let ws := (d 2).writes val
  let cws := if mx then (d 6).writes (fun ix =>
      let bb := ix.getD 2 0
      let r := ix.getD 1 0
      let c := 32 * ix.getD 0 0
      let bad := tileBad bb r c
      (if bad then 0 else (blockOf bb r c).1, bad)) else []
  ⟨ws, cws, tiles, flags⟩

/-- DR_GEMM: the tiles' elements written, to device memory or to the Manger, and the command ended with what the Vet says of them. -/
def drGemm (mErrs : List (Nat × ErrKind)) (faults : List VetFault) (o : Op) (s : Side) : Side :=
  let e := o.inst
  let s := s.mangerErrors e mErrs
  if o.gemmEmpty then s.drEnd o false false false {} 0
  else if o.gemmReads.any (fun r => s.readGuarded 0x0E r.1 r.2) then s.drEnd o true false false {} 0
  else
    let r := o.gemmRun faults (fun i => if o.gemmManger i then s.mangerView e else s.view)
    let (s, met) : Side × Bool := if o.gemmManger 2 then (s.mangerStore e mErrs r.ws, false) else s.scatter 0x0E (localWrites r.ws)
    let (s, met2) := s.scatter 0x0E (localWrites r.cws)
    let s := s.vetEnd o (r.tiles.filter (fun t => t.checked)).length r.fails.length (r.tiles.filter (fun t => t.skipped)).length r.fails.head?
    s.drEnd o (met || met2) (!r.fails.isEmpty) r.poison r.flags r.tiles.length

/-! ### DR_SPCONV (R398 to R402) -/

/-- What a DR_SPCONV carries from block to block. -/
structure SpRun where
  s : Side
  met : Bool
  checked : Nat
  skipped : Nat
  fails : List (Nat × VetFail)
  poison : Bool
  flags : DrFlags
  applied : Nat
  deriving DecidableEq, Repr

/-- A row of the FP32 output written. -/
def Side.spRow (s : Side) (out : Desc) (row : Nat) (vals : List (Nat × Bool)) : Side × Bool :=
  s.scatter 0x0E (((upTo vals.length).zip vals).map (fun (e : Nat × Nat × Bool) =>
    let (a, p) := out.locate [e.1, row]
    ((upTo 4).zip (toBytes 4 e.2.1)).map (fun (z : Nat × Byte) => (local46 (a + 4 * p) + z.1, z.2, e.2.2)))).flatten

/-- One block of up to 128 rules of a segment (R400): gathered, multiplied, checked, and scatter-added in rule order. A rule is its
rows, and whether a byte of it is poisoned; a block with such a rule is treated as one with a poisoned input (R396, log entry 53),
and reaches the rows of its other rules. -/
def spBlock (x w out : Desc) (xv wv : View) (faults : List VetFault) (seg : Nat) (no : Nat) (block : List (Nat × Nat × Bool)) (r : SpRun) : SpRun :=
  let rules := (block.filter (fun u => !u.2.2)).map (fun u => (u.1, u.2.1))
  let cin := x.sz 0
  let cout := w.sz 0
  let inside := rules.filter (fun u => decide (u.1 < x.sz 1) && decide (u.2 < out.sz 1))
  let flags := r.flags.or { range := inside.length != rules.length }
  let row (i : Nat) : Nat × Nat := inside.getD i (0, 0)
  let a (i k : Nat) : FVal := fmtVal x.fmt (x.elem xv [k, (row i).1]).1
  let b (k j : Nat) : FVal := fmtVal w.fmt (w.elem wv [j, k, seg]).1
  let bad := block.any (fun u => u.2.2) || inside.any (fun u => (upTo cin).any (fun k => (x.elem xv [k, u.1]).2)) ||
    (upTo cin).any (fun k => (upTo cout).any (fun j => (w.elem wv [j, k, seg]).2))
  let hit (i j : Nat) : List VetFault := faults.filter (fun f => f.1 == no && f.2.1 == i && f.2.2.1 == j && !f.2.2.2.2)
  let acc (i j : Nat) : FVal := (hit i j).foldl (fun v f => r32 (v.add (of32 f.2.2.2.1))) (accFloat FVal.zero cin (a i) (fun k => b k j))
  let n := inside.length
  let poisonRows (r : SpRun) : SpRun := inside.foldl (fun r u =>
    let (s, met) := r.s.spRow out u.2 ((upTo cout).map (fun _ => (0, true)))
    { r with s := s, met := r.met || met }) r
  if n = 0 ∧ block.all (fun u => !u.2.2) then { r with flags := flags }
  else if bad then poisonRows { r with flags := flags, skipped := r.skipped + 1, poison := true }
  else
    let (skip, fail) := vetTileFloat (upTo n) (upTo cout) cin acc (fun _ _ => FVal.zero) a b false
    let conv := faults.find? (fun f => f.1 == no && f.2.2.2.2)
    let fail := match fail, conv with
      | none, some f => some (VetFail.mk 0 (f.2.2.1 % 128) (Config.vetConversion (2 * f.2.2.2.1) % 2 ^ 32) (Config.vetConversion (2 * f.2.2.2.1 + 1) % 2 ^ 32))
      | z, _ => z
    let non := (upTo n).any (fun i => (upTo cin).any (fun k => !(a i k).isFin) || (upTo cout).any (fun j => !(acc i j).isFin)) ||
      (upTo cin).any (fun k => (upTo cout).any (fun j => !(b k j).isFin))
    let r := { r with flags := flags.or { nonfinite := skip || non }, checked := r.checked + 1, skipped := r.skipped + if skip then 1 else 0 }
    match fail with
    | some f => poisonRows { r with fails := r.fails ++ [(no, f)] }
    | none =>
        let r := (upTo n).foldl (fun (r : SpRun) i =>
          let u := row i
          let old (j : Nat) : Nat × Bool := out.elem r.s.view [j, u.2]
          let new (j : Nat) : FVal := r32 ((of32 (old j).1).add (acc i j))
          let (s, met) := r.s.spRow out u.2 ((upTo cout).map (fun j => (to32 (new j), (old j).2)))
          { r with s := s, met := r.met || met, poison := r.poison || (upTo cout).any (fun j => (old j).2),
                   flags := r.flags.or { nonfinite := (upTo cout).any (fun j => !(new j).isFin) } }) r
        { r with applied := r.applied + n }

/-- A list cut into pieces of 128, with fuel. -/
def pieces {α : Type} : Nat → List α → List (List α)
  | 0, _ => []
  | n + 1, l => if l.isEmpty then [] else l.take 128 :: pieces n (l.drop 128)

/-- The operands of a DR_SPCONV: what IN, W and OUT name (R398). -/
def Op.spDesc (o : Op) (i : Nat) : Desc := descOf (o.block (sfld (o.block (o.f 32 0 64)) (8 + 8 * i) 0 64))

/-- The segments of a DR_SPCONV: each its number, its first rule and its count of rules (R398, R399). -/
def Op.spSegs (o : Op) : List (Nat × Nat × Nat) :=
  let b := o.block (o.f 32 0 64)
  let chunk := o.block (sfld b 0 0 64)
  (upTo (sfld b 34 0 8)).map (fun i =>
    let k := sfld b 33 0 8 + i
    (k, sfld chunk (16 + 16 * k) 0 32, sfld chunk (20 + 16 * k) 0 32))

/-- Where a DR_SPCONV's rules stand. -/
def Op.spRules (o : Op) : Nat :=
  let rb := sfld (o.block (o.f 32 0 64)) 0 0 64
  local46 rb + 16 + 16 * sfld (o.block rb) 8 0 8

/-- Whether a DR_SPCONV has nothing to do (R143). -/
def Op.spEmpty (o : Op) : Bool :=
  o.spSegs.isEmpty || (o.spDesc 0).count == 0 || (o.spDesc 1).count == 0 || (o.spDesc 2).count == 0

/-- The extents of device memory that a DR_SPCONV reads. -/
def Op.spReads (o : Op) : List (Nat × Nat) :=
  let b := o.block (o.f 32 0 64)
  (if sfld b 32 0 1 = 1 then [] else [(o.spDesc 0).place]) ++ (if sfld b 32 1 1 = 1 then [] else [(o.spDesc 1).place]) ++
    [(o.spDesc 2).place] ++ o.spSegs.map (fun k => (o.spRules + 8 * k.2.1, 8 * k.2.2))

/-- A rule-book chunk gathered, multiplied and scatter-added on a side, its rows of OUT set to 0 first where it asks for it (R400). -/
def Side.spRun (s : Side) (faults : List VetFault) (o : Op) : SpRun :=
  let e := o.inst
  let b := o.block (o.f 32 0 64)
  let chunk := o.block (sfld b 0 0 64)
  let out := o.spDesc 2
  let xv := if sfld b 32 0 1 = 1 then s.mangerView e else s.view
  let wv := if sfld b 32 1 1 = 1 then s.mangerView e else s.view
  let zeroRows := if sfld b 32 2 1 = 1 then (upTo (sfld chunk 4 0 32)).map (fun i => sfld chunk 0 0 32 + i) else []
  let r0 : SpRun := zeroRows.foldl (fun (r : SpRun) row =>
    let (s, met) := r.s.spRow out row ((upTo (out.sz 0)).map (fun _ => (0, false)))
    { r with s := s, met := r.met || met }) ⟨s, false, 0, 0, [], false, {}, 0⟩
  o.spSegs.foldl (fun (r : SpRun) k =>
    let rs := (upTo k.2.2).map (fun i =>
      let a := o.spRules + 8 * (k.2.1 + i)
      let v := s.num a 8
      (bits v 0 32, bits v 32 32, s.poisoned a 8))
    let ps := pieces k.2.2 rs
    ((upTo ps.length).zip ps).foldl (fun (r : SpRun) p =>
      spBlock (o.spDesc 0) (o.spDesc 1) out xv wv faults k.1 ((k.2.1 + 128 * p.1) / 128) p.2 r) r) r0

/-- DR_SPCONV: its blocks run, and the command ended with what the Vet says of them. -/
def drSpconv (mErrs : List (Nat × ErrKind)) (faults : List VetFault) (o : Op) (s : Side) : Side :=
  let s := s.mangerErrors o.inst mErrs
  if o.spEmpty then s.drEnd o false false false {} 0
  else if o.spReads.any (fun r => s.readGuarded 0x0E r.1 r.2) then s.drEnd o true false false {} 0
  else
    let r := s.spRun faults o
    let s := r.s.vetEnd o r.checked r.fails.length r.skipped r.fails.head?
    s.drEnd o r.met (!r.fails.isEmpty) r.poison r.flags r.applied

end Sys2Proof.Machine
end

