-- ==== Sys2Proof/Machine/Datum.lean ====
section
/-!
DEFINITION. Machine/Datum.lean: Datum time (R167 to R190): the counter, its references and servo, gPTP, and the
comparison of the sides.
-/
namespace Sys2Proof.Machine

/-- Datum states (R174). -/
def dtFree : Nat := 0
@[inherit_doc dtFree] def dtLocked : Nat := 1
@[inherit_doc dtFree] def dtHoldover : Nat := 2

/-- The datum part of a side updated. -/
def Side.dt (s : Side) (f : Datum → Datum) : Side := { s with datum := f s.datum }

/-- RATE as a signed number of 2^-48 (R169, R190). -/
def Side.rate (s : Side) : Int := signed 48 (s.fld Reg.DT_RATE 0 48)

/-- R170: the clamp of ±200 ppm. -/
def rateClamp (r : Int) : Int := max (-0xD1B71758E) (min 0xD1B71758E r)

/-- R169: one cycle of the 100 MHz reference advances the counter by 10 ns · (1 + RATE). -/
def Datum.advance (d : Datum) (rate : Int) : Datum :=
  let a := d.acc + (10 * ((2 ^ 48 : Nat) + rate)).toNat
  { d with prev := d.ns, ns := (d.ns + a / 2 ^ 48) % 2 ^ 64, acc := a % 2 ^ 48 }

/-- A step of the counter for what the side counts from a time on: how long a port is occupied, a command has run, a link has been
silent. Those times move with the counter, so that what has elapsed is as it was (DEDUCED, log entry 101). Times that are
compared as Datum time (deadlines, validity times, stamps) stay, and are compared with the new value (R176). -/
def Side.shiftTimes (s : Side) (f : Nat → Nat) : Side :=
  { s with
    grooms := s.grooms.map (fun g => { g with lastDt := 0, lastRole := g.lastRole.map f })
    ops := s.ops.map (fun o => { o with run := o.run.map (fun r => (r.1, f r.2)) })
    datum := { s.datum with
      lastRef := s.datum.lastRef.map (fun r => (f r.1, r.2)), lastSent := s.datum.lastSent.map (fun e => (e.1, f e.2))
      srcAt := f s.datum.srcAt, bestAt := f s.datum.bestAt, capable := s.datum.capable.map (fun e => (e.1, f e.2)) }
    lg := { s.lg with
      frames := s.lg.frames.map (fun x => { x with startNs := f x.startNs })
      busy := s.lg.busy.map (fun e => (e.1, f e.2)), leadAt := f s.lg.leadAt }
    ing := { s.ing with
      slots := s.ing.slots.map (fun q => { q with since := f q.since, spans := q.spans.map (fun e => (f e.1, f e.2.1, e.2.2)) }) }
    egress := s.egress.map (fun e => { e with till := f e.till })
    sw := { s.sw with
      leftAt := f s.sw.leftAt, silentAt := f s.sw.silentAt, restarts := s.sw.restarts.map f, hbLast := f s.sw.hbLast
      hbSent := s.sw.hbSent.map f, fell := s.sw.fell.map (fun e => (e.1, f e.2))
      trots := s.sw.trots.map (fun t => { t with run := t.run.map (fun r => (r.1, f r.2.1, r.2.2)) }) }
    kp := { s.kp with verify := s.kp.verify.map (fun (v : KVerify) => { v with start := f v.start }) }
    power := { s.power with
      lastFall := s.power.lastFall.map f, lastRise := s.power.lastRise.map f, coolSince := s.power.coolSince.map f
      lastSample := f s.power.lastSample } }

/-- R175, R176: the step that a lock ordered is made: the counter takes the reference's time, the state becomes LOCKED, STEPS
increments and the Steward receives a time-step event. -/
def Side.datumStep (s : Side) : Side :=
  match s.datum.pendStep with
  | none => s
  | some o =>
      let shift := signed 64 o
      let s := s.dt (fun d => { d with pendStep := none, ns := (((d.ns : Int) - shift) % (2 ^ 64 : Nat)).toNat,
                                       steppedFrom := d.ns, prev := (((d.ns : Int) - shift) % (2 ^ 64 : Nat)).toNat })
      let s := s.shiftTimes (fun t => ((t : Int) - shift).toNat)
      let s := (s.count Reg.DT_STATE 16 16).put Reg.DT_STATE 0 2 dtLocked
      s.raise 0x0D 0x03 0 none (unsigned 64 (-shift))

/-- R182: the reference is lost: HOLDOVER at the last RATE, with its time of entry. -/
def Side.datumLost (s : Side) : Side :=
  ((s.put Reg.DT_STATE 0 2 dtHoldover).wr Reg.DT_HOLD (BitVec.ofNat 64 s.now)).dt (fun d => { d with run := 0 })

/-- R183: the return from HOLDOVER to LOCKED, without a step. -/
def Side.datumRelock (s : Side) : Side :=
  (s.put Reg.DT_STATE 0 2 dtLocked).wr Reg.DT_HOLD 0

/-- R184: a changed SOURCE takes effect. LOCKED or HOLDOVER moving to SOURCE 1 enters HOLDOVER; otherwise the state is
kept and the reference detector starts anew. -/
def Side.datumSource (s : Side) : Side :=
  let src := s.fld Reg.DT_CFG 0 2
  if src = s.datum.src then s
  else
    let st := s.fld Reg.DT_STATE 0 2
    let s := s.dt (fun d => { d with src := src, srcAt := d.ns, run := 0, lastRef := none, gm := 0 })
    let s := s.put Reg.DT_STATE 2 1 (if src = 1 ∨ src = 2 then 1 else 0)
    if src = 1 ∧ st = dtLocked then s.datumLost else s

/-- R185: the best announce is forgotten after three announce intervals without another of it (IEEE 802.1AS-2020 10.3; PRESUMED, log
entry 102). -/
def Datum.forget (d : Datum) : Datum :=
  if d.best.isSome ∧ d.bestAt + 3000000000 < d.ns then { d with best := none, roles := [] } else d

/-- One cycle of the side's reference: the counter advances, an ordered step is made, a changed SOURCE takes effect. -/
def Side.refCycle (s : Side) : Side :=
  (((s.dt (fun d => d.advance s.rate)).datumStep).datumSource).dt Datum.forget

/-- R181: a servo input: own time less reference time, and the new RATE from it and from the last interval. -/
def Side.servo (s : Side) (stamp ref : Nat) : Side :=
  let o : Int := (stamp : Int) - ref
  let s := s.wr Reg.DT_OFFSET (BitVec.ofInt 64 o)
  match s.datum.lastRef with
  | none => s
  | some (st0, ref0) =>
      let own : Int := (stamp : Int) - st0
      if own ≤ 0 then s
      else
        let sh : Int := (2 ^ s.fld Reg.DT_CFG 12 4 : Nat)
        let num : Int := (((ref : Int) - ref0 - own) * sh - o) * (2 ^ 48 : Nat)
        let den : Int := own * sh
        let r := (2 * num + den).fdiv (2 * den)
        s.put Reg.DT_RATE 0 48 (unsigned 48 (rateClamp r))

/-- The sync interval in ns (R190 SYNC_LOG). -/
def Side.syncInterval (s : Side) : Nat := 1000000000 / 2 ^ s.fld Reg.DT_CFG 16 4

/-- A good reference stamp (a valid Sync or a PPS edge): first lock after `first` of them when FREE, the servo when
LOCKED, the return after 4 in HOLDOVER (R179, R181, R183). -/
def Side.reference (s : Side) (stamp ref first : Nat) : Side :=
  let st := s.fld Reg.DT_STATE 0 2
  let n := s.datum.run + 1
  let s := s.dt (fun d => { d with run := n })
  let s :=
    if st = dtFree then
      (if first ≤ n then s.dt (fun d => { d with pendStep := some (unsigned 64 ((stamp : Int) - ref)) }) else s)
    else if st = dtLocked then s.servo stamp ref
    else if 4 ≤ n then s.datumRelock else s
  s.dt (fun d => { d with lastRef := some (stamp, ref) })

/-- Whether gPTP runs on a port, whether the link is capable of it, and whether this port is the slave port (R185). -/
def Side.gptpOn (s : Side) (port : Nat) : Bool := decide (port ≤ 9) && s.flag Reg.DT_PTPEN port

/-- Whether a port is asCapable (R179, R185): its path delay is measured, and none of the last nine requests, one each second, is the
last that was answered (IEEE 802.1AS-2020 11.2; PRESUMED, log entry 102). -/
def Side.asCapable (s : Side) (port : Nat) : Bool :=
  s.datum.linkDelay.any (fun e => e.1 == port) && s.datum.capable.any (fun e => e.1 == port && decide (s.now < e.2 + 10000000000))

@[inherit_doc Side.gptpOn] def Side.slavePort (s : Side) : Nat :=
  if s.flag Reg.DT_CFG 6 then
    match s.datum.roles.find? (fun e => e.2 == 2) with
    | some e => e.1
    | none => 15
  else s.fld Reg.DT_CFG 8 4

/-- The stamp of an event at `t` at a pin or a port, off the counter by at most the accuracy `acc` (R172, R173). -/
def stampOf (acc : Nat) (jit : Int) (t : Nat) : Nat := ((t : Int) + max (-(acc : Int)) (min acc jit)).toNat

/-- The stamp of an event that happens now. -/
def Side.stampNear (s : Side) (acc : Nat) (jit : Int) : Nat := stampOf acc jit s.now

/-- R697: whether a received frame passes MACsec on its port, and its count where it does not. -/
def Side.secAdmit (s : Side) (port : Nat) (sec : SecIn) (eapol : Bool) : Bool × Side :=
  if s.flag (Reg.ET_SEC port) 0 = false ∨ eapol then (true, s)
  else match sec with
    | .good => (true, s)
    | .plain => (false, s.count (Reg.ET_SECCNT port) 16 16)
    | .bad => (false, s.count (Reg.ET_SECCNT port) 48 16)
    | .replay => (false, s.count (Reg.ET_SECCNT port) 32 16)

/-- Whether a port may send: with MACsec enabled only under a key (R697). -/
def Side.secSends (s : Side) (port : Nat) : Bool := !(s.flag (Reg.ET_SEC port) 0) || s.flag (Reg.ET_SEC port) 4

/-- A gPTP message received: one that MACsec does not admit is discarded and counted (R186, R697). -/
def Side.gptpHeard (s : Side) (port : Nat) (sec : SecIn) (k : Side → Side) : Side :=
  if port ≤ 9 then (let (ok, s) := s.secAdmit port sec false; if ok then k s else s) else s

/-- A Sync with its follow-up received (R179, R181 to R183). `ref` is the reference's time at the stamp point, `gm` the
grandmasterIdentity; `valid` says that the follow-up is valid and the domain is DT_CFG.DOMAIN. -/
def Side.gptpSync (s : Side) (port : Nat) (valid : Bool) (jit : Int) (ref gm : Nat) : Side :=
  if s.datum.src = 0 ∧ s.gptpOn port ∧ port = s.slavePort then
    if valid ∧ s.asCapable port then
      let st := s.fld Reg.DT_STATE 0 2
      let changed := s.datum.lastRef.isSome && s.datum.gm != gm
      let s := if changed then (if st = dtLocked then s.datumLost else s.dt (fun d => { d with run := 0 })) else s
      let s := s.dt (fun d => { d with gm := gm })
      s.reference (s.stampNear 8 jit) ref 2
    else s.dt (fun d => { d with run := 0 })
  else s

/-- The reference time of a PPS edge: the previous edge's and the whole seconds since (R179). -/
def ppsReference (d : Datum) (stamp : Nat) : Nat :=
  let sec := 1000000000
  match d.lastRef with
  | some (st0, ref0) => ref0 + (stamp - st0 + sec / 2) / sec * sec
  | none => (stamp + sec / 2) / sec * sec

/-- A PPS rising edge (R172, R179, R180, R183). -/
def Side.ppsEdge (s : Side) (jit : Int) : Side :=
  let stamp := s.stampNear 4 jit
  let s := s.wr Reg.DT_PPS (BitVec.ofNat 64 stamp)
  if s.datum.src = 2 then
    if s.fld Reg.DT_STATE 0 2 = dtFree then
      let tod := (s.rd Reg.DT_TOD).toNat
      if tod = 0 then s
      else ((s.wr Reg.DT_TOD 0).reference stamp tod 1)
    else
      let gap := match s.datum.lastRef with | some (st0, _) => decide (2000000000 < stamp - st0) | none => false
      let s := if gap then s.dt (fun d => { d with run := 0 }) else s
      s.reference stamp (ppsReference s.datum stamp) 1
  else s

/-- Whether the reference has been lost by timeout (R179): no valid Sync for 3 sync intervals, no edge for 2 s, since the last or since
the SOURCE was taken. -/
def Side.referenceOverdue (s : Side) : Bool :=
  let t := match s.datum.lastRef with | some (st0, _) => st0 | none => s.datum.srcAt
  (s.datum.src == 0 && decide (t + 3 * s.syncInterval ≤ s.now)) || (s.datum.src == 2 && decide (t + 2000000000 ≤ s.now))

/-- R182 by timeout; in FREE or HOLDOVER a gap only ends the run of consecutive inputs. -/
def Side.referenceLost (s : Side) : Side :=
  if s.referenceOverdue then
    (if s.fld Reg.DT_STATE 0 2 = dtLocked then s.datumLost else s.dt (fun d => { d with run := 0 }))
  else s

/-- R178: REARM at level 2 frees the counter to step again; at a lower level it sets CFG_ERR. -/
def Side.rearm (s : Side) (level : Nat) : Side :=
  if 2 ≤ level then
    ((s.put Reg.DT_STATE 0 2 dtFree).wr Reg.DT_HOLD 0).dt (fun d => { d with run := 0, pendStep := none })
  else s.put Reg.DT_STATE 3 1 1

/-! ### What leaves a port (R194, R198) -/

/-- The frame's image as the port sends it (R194): padded to 60 B, or to a CAN FD length. -/
def LFrame.wire (f : LFrame) : List Byte :=
  if f.port ≤ 9 then f.image ++ List.replicate (60 - f.image.length) 0
  else
    let d := f.image.length - 8
    let dlc := ([0, 1, 2, 3, 4, 5, 6, 7, 8, 12, 16, 20, 24, 32, 48, 64].find? (fun n => decide (d ≤ n))).getD 64
    f.image ++ List.replicate (dlc - d) 0

/-- The time that bytes from destination address to end of payload take on an Ethernet port (R191), preamble, FCS and MACsec
included. -/
def Side.etherNs (s : Side) (port n : Nat) : Nat :=
  let sec := if s.flag (Reg.ET_SEC port) 0 then (if s.flag (Reg.ET_SEC port) 3 then 32 else 24) else 0
  ceilDiv ((n + 12 + sec) * 8) (if port ≤ 1 then 10 else if port ≤ 3 then 25 else 1)

/-- The time a frame takes on its port; a CAN frame's is the operand's. -/
def Side.wireNs (s : Side) (f : LFrame) (canNs : Nat) : Nat := if f.port ≤ 9 then s.etherNs f.port f.wire.length else canNs

/-- R198: the first moment at which other traffic of `n` bytes may leave an Ethernet port: not while the gate's frame occupies it, and
not where it would still be on the wire at the scheduled time of one. -/
def Side.clearAt (s : Side) (port n : Nat) : Nat :=
  let w := s.etherNs port (max 60 n)
  let due := ((s.lg.frames.filter (fun f => f.started && f.port == port && decide (s.now ≤ f.sched))).mergeSort
    (fun a b => decide (a.sched ≤ b.sched)))
  due.foldl (fun t f => if t ≤ f.sched ∧ f.sched < t + w then f.sched + s.wireNs f 0 else t) (max s.now (alGet 0 s.lg.busy port))

/-- Other traffic than the gate's leaves a port at the first moment the gate leaves it (R198); on the SPI buses and on a port
without scheduled frames, now. -/
def Side.send (s : Side) (port : Nat) (bs : List Byte) : Side :=
  let t := if port ≤ 9 then s.clearAt port bs.length else s.now
  { s with egress := s.egress ++ [⟨port, t, if port ≤ 9 then t + s.etherNs port (max 60 bs.length) else t, false, bs⟩] }

/-! ### gPTP on the wire (R185; the formats are those of IEEE 802.1AS-2020, PRESUMED, log entry 102) -/

/-- The common header (IEEE 802.1AS-2020 10.6.2): type, version, length, domain, flags, no correction, sourcePortIdentity, sequence
number, log message interval. -/
def Side.ptpHeader (s : Side) (type len port flags seq interval : Nat) : List Byte :=
  toBytes 1 (0x10 + type) ++ toBytes 1 0x12 ++ toBytesBE 2 len ++ toBytes 1 (s.fld Reg.DT_CFG 24 8) ++ toBytes 1 0 ++ toBytesBE 2 flags ++
    toBytes 8 0 ++ toBytes 4 0 ++ toBytesBE 8 (Config.clockIdentity s.id) ++ toBytesBE 2 (port + 1) ++ toBytesBE 2 seq ++ toBytes 1 0 ++
    toBytes 1 interval

/-- A PTP timestamp: 48-bit seconds and 32-bit nanoseconds. -/
def ptpTime (t : Nat) : List Byte := toBytesBE 6 (t / 1000000000) ++ toBytesBE 4 (t % 1000000000)

/-- Whether a port is a master port (R185). -/
def Side.masterPort (s : Side) (port : Nat) : Bool :=
  s.gptpOn port && ((s.datum.src == 1 || s.datum.src == 2) || port != s.slavePort)

/-- Whether a side may send gPTP on a port: not while it is silenced (R204, R626), nor on a MACsec port without a key (R186). -/
def Side.gptpSpeaks (s : Side) (port : Nat) : Bool := !(s.flag Reg.LG_CTRL 2) && s.secSends port

/-- Whether an interval since the last message under a key of `lastSent` has passed. -/
def Side.sendDue (s : Side) (key interval : Nat) : Bool :=
  match s.datum.lastSent.find? (fun e => e.1 == key) with
  | none => true
  | some e => decide (e.2 + interval ≤ s.now)

/-- The priority vector that a side's announces carry: its own, or that of its best master, one step further. It is the system
identity of 112 bits, and stepsRemoved below it. -/
def Side.announced (s : Side) : Nat :=
  match s.datum.best with
  | some (v, _) => if s.datum.roles.isEmpty then Config.ownPriority s.id % 2 ^ 112 * 2 ^ 16 else v + 1
  | none => Config.ownPriority s.id % 2 ^ 112 * 2 ^ 16

/-- An announce (IEEE 802.1AS-2020 10.6.3), its path trace this side alone. -/
def Side.announceBytes (s : Side) (port seq : Nat) : List Byte :=
  let v := s.announced
  s.ptpHeader 11 76 port 0x0008 seq 0 ++ toBytes 13 0 ++ toBytesBE 6 (v / 2 ^ 80 % 2 ^ 48) ++ toBytesBE 8 (v / 2 ^ 16 % 2 ^ 64) ++
    toBytesBE 2 (v % 2 ^ 16) ++ toBytes 1 0xA0 ++ toBytesBE 2 8 ++ toBytesBE 2 8 ++ toBytesBE 8 (Config.clockIdentity s.id)

/-- GPTP_SYNC_SEND (R185): on a master port a two-step Sync and its follow-up at each sync interval, and an announce each second. -/
def Side.gptpSend (s : Side) (port : Nat) : Side :=
  if s.masterPort port ∧ s.gptpSpeaks port then
    let q := s.datum.syncSeq
    let t := s.now
    let ival := (256 - s.fld Reg.DT_CFG 16 4) % 256
    let tlv := toBytesBE 2 3 ++ toBytesBE 2 28 ++ toBytesBE 3 0x0080C2 ++ toBytesBE 3 1 ++ toBytes 22 0
    let s := if s.sendDue port s.syncInterval then
        let s := s.dt (fun d => { d with lastSent := alSet d.lastSent port t, syncSeq := (q + 1) % 65536 })
        (s.send port (s.ptpHeader 0 44 port 0x0208 q ival ++ toBytes 10 0)).send port
          (s.ptpHeader 8 76 port 0x0008 q ival ++ ptpTime t ++ tlv)
      else s
    if s.sendDue (16 + port) 1000000000 then
      (s.dt (fun d => { d with lastSent := alSet d.lastSent (16 + port) t })).send port (s.announceBytes port q)
    else s
  else s

/-- GPTP_PDELAY_EXCHANGE (R185): a peer's request is answered with a response and its follow-up; an exchange of the side's own, whose
request it sends, gives the link delay and makes the port capable. -/
def Side.gptpPdelay (s : Side) (port : Nat) (request : Bool) (t1 t2 t3 t4 : Nat) : Side :=
  if s.gptpOn port then
    let q := s.datum.syncSeq
    let peer := toBytes 10 0
    if request then
      (if s.gptpSpeaks port then
        (s.send port (s.ptpHeader 3 54 port 0x0208 q 0x7F ++ ptpTime s.now ++ peer)).send port
          (s.ptpHeader 10 54 port 0x0008 q 0x7F ++ ptpTime s.now ++ peer)
       else s)
    else if s.gptpSpeaks port then
      let d := (((t4 : Int) - t1) - ((t3 : Int) - t2)).fdiv 2
      (s.send port (s.ptpHeader 2 54 port 0x0008 q 0 ++ toBytes 20 0)).dt (fun x => { x with
        linkDelay := alSet x.linkDelay port d.toNat, capable := alSet x.capable port s.now })
    else s
  else s

/-- R185 and IEEE 802.1AS-2020 10.3: an announce, its priority vector as one number, lower is better. The port of the
best vector below this side's own becomes the slave port, the others master ports; with SOURCE 1 or 2 every port is a
master port. -/
def Side.announce (s : Side) (port vector : Nat) : Side :=
  if s.flag Reg.DT_CFG 6 ∧ s.gptpOn port then
    let better := match s.datum.best with
      | some (v, p) => decide (vector < v) || p == port
      | none => true
    if better then
      let won := decide (vector < Config.ownPriority s.id % 2 ^ 112 * 2 ^ 16) && s.datum.src == 0
      s.dt (fun d => { d with best := some (vector, port), bestAt := d.ns, roles := if won then [(port, 2)] else [] })
    else s
  else s

/-! ### Comparing the sides (R187 to R189) -/

/-- A message handed to the cross link: sent only while the link is up (R33, R45); a silent side sends no half grid and no
track list (R626). -/
def Side.xsend (s : Side) (cls time : Nat) (bs : List Byte) (bad : List Nat := []) : Side :=
  if s.flag Reg.BN_STATE 3 ∧ (cls < 3 ∨ s.fld Reg.SW_STATE 0 2 ≠ 3) then { s with xout := s.xout ++ [⟨cls, time, bs, bad⟩] } else s

/-- The control period boundary at or before now (R189). -/
def Side.lastBoundary (s : Side) : Nat :=
  let p := s.datum.cPeriod
  if s.now < s.datum.cPhase then 0 else s.datum.cPhase + (s.now - s.datum.cPhase) / p * p

/-- R187, R188: at C_k the side sends its class-1 message, and MISSED counts a period that ended without a valid one. -/
def Side.controlBoundary (s : Side) : Side :=
  let c := s.lastBoundary
  if s.datum.lastC < c then
    let s := if s.datum.gotRx then s else s.count Reg.DT_XCNT 16 16
    let s := s.dt (fun d => { d with lastC := c, gotRx := false })
    s.xsend 1 0 (toBytes 8 s.now ++ toBytes 8 s.datum.lastRx ++ toBytes 8 s.datum.lastRxSend ++ toBytes 40 0)
  else s

/-- R187, R188: a class-1 message arrives: the two-way offset, its comparison, and the stamps kept for the next one. -/
def Side.timeCompare (s : Side) (m : XMsg) (poison : Bool) : Side :=
  if !m.bad.isEmpty || poison then s
  else
    let v := fromBytes m.bytes
    let t3 := sfld v 0 0 64
    let t2 := sfld v 8 0 64
    let t1 := sfld v 16 0 64
    let t4 := s.now
    let s := s.dt (fun d => { d with lastRx := t4, lastRxSend := t3, gotRx := true })
    if t1 ≠ 0 ∧ t2 ≠ 0 then
      let off := (((t2 : Int) - t1) - ((t4 : Int) - t3)).fdiv 2
      let s := s.wr Reg.DT_XOFF (BitVec.ofInt 64 off)
      let s := if s.fld Reg.DT_XCFG 0 32 < off.natAbs then s.count Reg.DT_XCNT 32 16 else s
      if s.fld Reg.DT_XCFG 32 32 < off.natAbs then
        let s := (s.count Reg.DT_XCNT 48 16).raise 0x0E 0x03 0 none (unsigned 64 off)
        { s with sw := { s.sw with xfault := true } }
      else s
    else s

end Sys2Proof.Machine
end

