-- ==== Sys2Proof/Machine/LaunchGate.lean ====
section
/-!
DEFINITION. Machine/LaunchGate.lean: the Launch gate (R191 to R207): the frame store, the schedule of each port, shadow
launch, silence, and launch reports.
-/
namespace Sys2Proof.Machine

/-- The Launch gate's part of a side updated. -/
def Side.lgSet (s : Side) (f : Launch → Launch) : Side := { s with lg := f s.lg }

/-- The bytes a frame occupies in the frame store (R192). -/
def LFrame.room (f : LFrame) : Nat := roundUp f.image.length 64

/-- The bytes held by the frame store (R192). -/
def Side.lgBytes (s : Side) : Nat := s.lg.frames.foldl (fun a f => a + f.room) 0

/-- Whether two entries of the frame store are the same frame. -/
def LFrame.same (a b : LFrame) : Bool := a.uid == b.uid

/-- A frame taken out of the store. -/
def Side.lgRemove (s : Side) (f : LFrame) : Side :=
  s.lgSet (fun l => { l with frames := l.frames.filter (fun g => !(g.same f)) })

/-- A frame of the store replaced. -/
def Side.lgPut (s : Side) (f : LFrame) : Side :=
  s.lgSet (fun l => { l with frames := l.frames.map (fun g => if g.same f then f else g) })

/-- The first frame in the store of a LAUNCH with a queue and a chain number for which `p` holds; a queue that has been enabled again
may have two of one chain number (R124). -/
def Side.lgFind (s : Side) (queue chain : Nat) (p : LFrame → Bool) : Option LFrame :=
  s.lg.frames.find? (fun f => f.queue == queue && f.chain == chain && p f)

/-- The status of an outcome (R206). -/
def outcomeStatus (o : Nat) : Nat :=
  match o with
  | 1 => stFlagged
  | 2 => stLate
  | 6 => stDegraded
  | _ => stDone

/-- The counters of an outcome (R207). -/
def Side.lgCount (s : Side) (o : Nat) (shadow : Bool) : Side :=
  match o with
  | 0 => s.count Reg.LG_SENT 0 32
  | 1 =>
      let s := s.count Reg.LG_COUNT 32 16
      if shadow then s.count Reg.LG_COUNT 16 16 else s
  | 2 => s.count Reg.LG_COUNT 48 16
  | 3 => s.count Reg.LG_COUNT 0 16
  | 7 => s.count Reg.LG_COUNT 16 16
  | _ => s

/-- S of a frame that has one, T_L for a DUAL frame not yet judged (R206). -/
def LFrame.schedOf (f : LFrame) : Nat := if f.dual && !f.judged then f.tl else f.sched

/-- A launch report (R206). -/
def Side.lgReport (s : Side) (f : LFrame) (o sentAt : Nat) : Side :=
  let n := 16 * 2 ^ s.fld Reg.LG_RPT_CFG 0 4
  let k := s.fld Reg.LG_RPT_HEAD 0 32
  let bs := toBytes 4 f.chain ++ toBytes 2 (outcomeStatus o) ++ toBytes 1 o ++
    toBytes 1 (f.queue % 64 + (if f.shadow then 64 else 0) + 128 * phaseBit k n) ++ toBytes 8 f.schedOf ++
    toBytes 8 sentAt ++ toBytes 4 f.tag ++ toBytes 1 f.port ++ toBytes 3 0
  let s := s.ringEntry 0x04 (s.fld Reg.LG_RPT_BASE 5 59 * 32 + k % n * 32) bs
  let s := s.put Reg.LG_RPT_HEAD 0 32 (k + 1)
  if s.flag Reg.LG_RPT_CFG 21 then s.signal (s.fld Reg.LG_RPT_CFG 8 13) 1 else s

/-- A frame's outcome is decided: it leaves the store, its counter rises, and its report is written where asked. -/
def Side.lgDecide (s : Side) (f : LFrame) (o sentAt : Nat) : Side :=
  let s := (s.lgRemove f).lgCount o f.shadow
  let s := if f.dual ∧ (o = 0 ∨ o = 1) then
      s.lgSet (fun l => { l with duals := l.duals.map (fun d => if d.1 == f.tl then (d.1, d.2.1, true) else d) }) else s
  if f.report then s.lgReport f o sentAt else s

/-- The nominal bit time of a CAN FD bus in ns (R243). -/
def Side.canBitNs (s : Side) (bus : Nat) : Nat := 8000 / 2 ^ s.fld (Reg.IN_CANB bus) 8 2

/-- LEAD as it was at a time (R203): a change affects only frames whose T_L is at or after it. -/
def Side.leadAt (s : Side) (t : Nat) : Bool := if s.lg.leadAt ≤ t then s.flag Reg.LG_CTRL 1 else !s.flag Reg.LG_CTRL 1

/-- The Steward's write of LEAD (R203). -/
def Side.setLead (s : Side) (v : Bool) : Side :=
  if s.flag Reg.LG_CTRL 1 = v then s
  else (s.put Reg.LG_CTRL 1 1 (if v then 1 else 0)).lgSet (fun l => { l with leadAt := s.now })

/-- A frame enters the schedule of its port at its LAUNCH's start (R195, R197). -/
def Side.lgSchedule (s : Side) (f : LFrame) : Side :=
  let n := s.lg.nextOrder
  let f := { f with started := true, startNs := s.now, order := n, sched := if f.dual then f.tl else if f.tl = 0 then s.now else f.tl }
  (s.lgPut f).lgSet (fun l => { l with nextOrder := n + 1 })

/-- The commands of the gate that may start now (R131, R195): a LAUNCH only while the gate is enabled. -/
def Side.gateReady (s : Side) : List Op :=
  s.ops.filter (fun o => o.unit == 0x04 && s.ready o && !(past s.now (o.f 24 0 64)) && (o.opcode == 2 || s.flag Reg.LG_CTRL 0))

/-- The command of the gate that starts next, where it is the one of a queue with an opcode (R131). -/
def Side.gateNext (s : Side) (q opcode : Nat) : Option Op :=
  (s.pick 0x04 s.gateReady).filter (fun o => o.queue == q && o.opcode == opcode)

/-- The pointer of a command's class moves to its queue (R131). -/
def Side.served (s : Side) (o : Op) : Side := { s with rr := alSet s.rr (o.unit * 8 + o.cls) o.queue }

/-- The frame in the store of a LAUNCH that has not started leaves it (R195). -/
def Side.lgDropOf (s : Side) (o : Op) : Side :=
  match s.lgFind o.queue o.chain (fun f => !f.started) with | some f => s.lgRemove f | none => s

/-- LAUNCH starts (R195): the gate's next command, a LAUNCH of this queue (R131); with SILENCED a ready one completes with
SIDE_DEGRADED and its frame leaves the store. -/
def Side.launchStart (s : Side) (q : Nat) : Side :=
  if s.flag Reg.LG_CTRL 2 then
    match s.ops.find? (fun o => o.queue == q && o.unit == 0x04 && o.opcode == 1 && s.ready o) with
    | none => s
    | some o => (s.lgDropOf o).complete o stDegraded
  else
    match s.gateNext q 1 with
    | none => s
    | some o =>
        let s := s.served o
        let s := match s.lgFind o.queue o.chain (fun f => !f.started) with | some f => s.lgSchedule f | none => s
        s.complete o stDone

/-- CANCEL (R196): the gate's next command, a CANCEL of this queue (R131): every queued frame of the port with the tag that has not
begun, with outcome 4. -/
def Side.cancelStart (s : Side) (q : Nat) : Side :=
  match s.gateNext q 2 with
  | none => s
  | some o =>
      let s := s.served o
      let fs := s.lg.frames.filter (fun f => f.started && f.port == o.f 36 0 4 && f.tag == o.f 32 0 32)
      let s := fs.foldl (fun s f => s.lgDecide f 4 0) s
      s.complete o stDone fs.length

/-- Whether a kept frame is the peer's copy that a shadow watches for (R201). -/
def Kept.cancels (k : Kept) (f : LFrame) : Bool :=
  decide (0 < f.matchLen) && k.port == f.watch && decide (f.tl ≤ k.time + 250000) && decide (k.time ≤ f.sched) &&
    decide (f.matchOff + f.matchLen ≤ k.bytes.length) &&
    ((k.bytes.drop f.matchOff).take f.matchLen == (f.image.drop f.matchOff).take f.matchLen)

/-- R200, R202: at T_L a DUAL frame of a side with LEAD 0 becomes a shadow with S = T_L + 250,000 ns and is tested
against the kept frames at once. -/
def Side.shadowMake (s : Side) (queue chain : Nat) : Side :=
  match s.lgFind queue chain (fun f => f.started && f.dual && !f.judged && decide (f.tl ≤ s.now) && !(s.leadAt f.tl)) with
  | none => s
  | some f =>
      let f := { f with judged := true, shadow := true, sched := f.tl + 250000 }
      let s := s.lgPut f
      if s.lg.kept.any (fun k => k.cancels f) then s.lgDecide f 3 0 else s

/-- Whether a frame is the next of its port (R199): no started frame of the port has a lower S, or the same S and an
earlier start. -/
def Side.lgNext (s : Side) (f : LFrame) : Bool :=
  s.lg.frames.all (fun g => !g.started || g.port != f.port || g.same f ||
    decide (f.schedOf < g.schedOf) || (decide (f.schedOf = g.schedOf) && decide (f.order < g.order)))

/-- A frame that is never late (R197). -/
def LFrame.free (f : LFrame) : Bool := !f.dual && f.tl == 0

/-- A frame as it is judged when it comes to be sent: a DUAL frame of the side that leads at its T_L goes as lead (R200). -/
def Side.lgJudged (s : Side) (f : LFrame) : LFrame := if f.dual && !f.judged && s.leadAt f.tl then { f with judged := true } else f

/-- The first moment, within this cycle of the reference, at which a frame can begin (R197): at S, or when its LAUNCH has started and its
port is free; none where it cannot begin yet, or not by S + TOL. The side must have left START (R624), and a MACsec port
have its key (R697); a CAN bus must not be off. -/
def Side.lgMoment (s : Side) (f : LFrame) : Option Nat :=
  let e := max f.sched (max f.startNs (alGet 0 s.lg.busy f.port))
  let t := if s.datum.prev < e then e else s.now
  if f.started ∧ (!f.dual || f.judged) = true ∧ s.flag Reg.LG_CTRL 0 ∧ s.flag Reg.LG_CTRL 2 = false ∧ s.fld Reg.SW_STATE 0 2 ≠ 0 ∧
      (if f.port ≤ 9 then s.secSends f.port else !(s.flag (Reg.IN_CANB (f.port - 10)) 17)) ∧ e ≤ s.now ∧ s.lgNext f ∧
      (f.free ∨ t ≤ f.sched + s.fld (Reg.LG_TOL f.port) 0 17) then some t
  else none

/-- The transmit error count of a CAN bus after an attempt (ISO 11898-1; PRESUMED, log entry 103): a failed one adds 8, a good one
takes 1, and above 255 the bus goes off. -/
def Side.canTried (s : Side) (bus : Nat) (ok : Bool) : Side :=
  let n := alGet 0 s.lg.tec bus
  let n := if ok then n - 1 else n + 8
  let s := s.lgSet (fun l => { l with tec := alSet l.tec bus n })
  if 255 < n then s.put (Reg.IN_CANB bus) 17 1 1 else s

/-- LAUNCH_FRAME_BEGIN (R197, R198, R201): a scheduled frame begins on its port, at S or later within TOL. An attempt on a CAN bus that
loses to an error (`lost`) ends, and the frame stays to be sent again by S + TOL (R198). -/
def Side.frameBegin (s : Side) (queue chain : Nat) (jit : Int) (canNs : Nat) (lost : Bool) : Side :=
  match s.lgFind queue chain (fun f => (s.lgMoment (s.lgJudged f)).isSome) with
  | none => s
  | some f =>
      let f := s.lgJudged f
      let from' := (s.lgMoment f).getD s.now
      let atS := decide (from' = f.sched)
      let acc := if f.port ≤ 9 then 50 else s.canBitNs (f.port - 10)
      let at' := ((from' : Int) + max (-(acc : Int)) (min acc jit)).toNat
      let till := from' + s.wireNs f canNs
      let fails := decide (9 < f.port) && lost
      let s := ({ s with egress := s.egress ++ [⟨f.port, from', till, fails, f.wire⟩] } : Side).lgSet (fun l =>
        { l with busy := alSet l.busy f.port till })
      let s := if f.port ≤ 9 then s else s.canTried (f.port - 10) (!fails)
      if fails then s.lgPut f
      else
        let o := if f.free then 0 else if f.shadow then (if atS then 7 else 1) else if atS then 0 else 1
        let s := s.lgDecide f o at'
        if f.shadow then s.raise 0x0F 0x04 0 (some (f.chain, f.queue)) f.tag else s

/-- LAUNCH_FRAME_DROP_LATE (R197): a frame that cannot begin by S + TOL is dropped with LATE_LAUNCH. -/
def Side.frameDropLate (s : Side) (queue chain : Nat) : Side :=
  match s.lgFind queue chain (fun f =>
      let f := s.lgJudged f
      f.started && (!f.dual || f.judged) && !f.free && decide (f.sched + s.fld (Reg.LG_TOL f.port) 0 17 < s.now) && (s.lgMoment f).isNone) with
  | none => s
  | some f => s.lgDecide (s.lgJudged f) 2 0

/-- R202: a good frame received on a watched port is kept among the last 64 and tested against the pending shadows. -/
def Side.watchReceive (s : Side) (port : Nat) (bs : List Byte) (good : Bool) : Side :=
  if s.flag Reg.LG_WATCH port ∧ good ∧ port ≤ 13 then
    let k : Kept := ⟨port, s.now, bs⟩
    let mine := (s.lg.kept.filter (fun e => e.port == port)) ++ [k]
    let rest := s.lg.kept.filter (fun e => e.port != port)
    let s := s.lgSet (fun l => { l with kept := rest ++ mine.drop (mine.length - 64) })
    (s.lg.frames.filter (fun f => f.shadow && k.cancels f)).foldl (fun s f => s.lgDecide f 3 0) s
  else s

/-- R205: clearing ENABLE discards every queued frame with outcome 5. -/
def Side.lgDisable (s : Side) : Side :=
  (s.lg.frames.filter (fun f => f.started)).foldl (fun s f => s.lgDecide f 5 0) (s.put Reg.LG_CTRL 0 1 0)

/-- R204: SILENCED: frames on the wire end with an error, every queued frame is reported with outcome 6, and a LAUNCH
not yet started completes with SIDE_DEGRADED (R195). -/
def Side.lgSilence (s : Side) : Side :=
  if s.flag Reg.LG_CTRL 2 then s
  else
    let s := s.put Reg.LG_CTRL 2 1 1
    let s : Side := { s with egress := s.egress.map (fun e =>
      if s.now < e.till ∧ (2 ≤ e.port ∨ s.lg.busy.any (fun b => b.1 == e.port && b.2 == e.till)) then { e with cut := true } else e) }
    let s := (s.lg.frames.filter (fun f => f.started)).foldl (fun s f => s.lgDecide f 6 0) s
    let s := s.lgSet (fun l => { l with frames := [] })
    (s.ops.filter (fun o => o.unit == 0x04 && o.opcode == 1)).foldl (fun s o => s.complete o stDegraded) s

/-- A write to LG_RPT_CFG (R206, R207): SIZE 9 to 15 is refused; a performed write zeroes the report count. -/
def Side.lgRptCfg (s : Side) (v : Word) : Side :=
  if 8 < v.fld 0 4 then s.put Reg.LG_CTRL 3 1 1
  else (s.wr Reg.LG_RPT_CFG v).wr Reg.LG_RPT_HEAD 0

end Sys2Proof.Machine
end

