-- ==== Sys2Proof/Machine/Ingress.lean ====
section
/-!
DEFINITION. Machine/Ingress.lean: sensor ingress (R208 to R243): streams and their samples, stamps, landing rings and
Race queues, and what MACsec lets in (R697).
-/
namespace Sys2Proof.Machine

/-- The ingress of a side updated. -/
def Side.inSet (s : Side) (f : Ingress → Ingress) : Side := { s with ing := f s.ing }

/-- A stream slot. -/
def Side.slot (s : Side) (i : Nat) : Slot := s.ing.slots.getD i Slot.reset

/-- A stream slot updated. -/
def Side.onSlot (s : Side) (i : Nat) (f : Slot → Slot) : Side :=
  s.inSet (fun g => { g with slots := setAt g.slots i (f (g.slots.getD i Slot.reset)) })

/-- The registers of a slot's configuration (R243). -/
def Side.kind (s : Side) (i : Nat) : Nat := s.fld (Reg.IN_SCFG i) 28 4
@[inherit_doc Side.kind] def Side.source (s : Side) (i : Nat) : Nat := s.fld (Reg.IN_SCFG i) 24 4
@[inherit_doc Side.kind] def Side.stampMode (s : Side) (i : Nat) : Nat := s.fld (Reg.IN_SCFG i) 18 2
@[inherit_doc Side.kind] def Side.lands (s : Side) (i : Nat) : Bool := s.flag (Reg.IN_SCFG i) 17
@[inherit_doc Side.kind] def Side.slotOn (s : Side) (i : Nat) : Bool := s.flag (Reg.IN_SCFG i) 0
@[inherit_doc Side.kind] def Side.ringSize (s : Side) (i : Nat) : Nat := 2 ^ s.fld (Reg.IN_LSIZE i) 0 5
@[inherit_doc Side.kind] def Side.maxSample (s : Side) (i : Nat) : Nat := s.fld (Reg.IN_LSIZE i) 32 32
@[inherit_doc Side.kind] def Side.ringBase (s : Side) (i : Nat) : Nat := (s.rd (Reg.IN_LBASE i)).toNat

/-! ### Race instructions (R86 to R88, R238 to R242) -/

/-- The bit that makes each byte of 32 even, byte 0 in bit 0 (R235). -/
def parityOf (data : Nat) : Nat :=
  (upTo 32).foldl (fun a k => a + ((upTo 8).filter (fun i => bitAt data (8 * k + i))).length % 2 * 2 ^ k) 0

/-- A word as the write side makes it (R235, R242). -/
def raceWord (data valid : Nat) (last bad : Bool) : RaceWord :=
  let t := valid + if last then 256 else 0
  ⟨data, parityOf data, (t, t, t), bad⟩

/-- The tag by bitwise majority of its copies (R242). -/
def RaceWord.tag (w : RaceWord) : Nat :=
  let (a, b, c) := w.tags
  (a &&& b) ||| (b &&& c) ||| (a &&& c)

/-- Whether a word carries the end mark. -/
def RaceWord.last (w : RaceWord) : Bool := bitAt w.tag 8

/-- Whether a word holds a byte that fails parity or was poisoned (R242). -/
def RaceWord.fails (w : RaceWord) : Bool := w.bad || parityOf w.data != w.parity

/-- RPOP: the next readable word with its tag; none where the read pointer has reached a word not readable. A failing
word is delivered as stored, with tag bit 9, and counted. -/
def Side.racePop (s : Side) (i : Nat) : Option (Nat × Nat × Side) :=
  let q := s.slot i
  if q.pos < q.readable then
    match q.words[q.pos]? with
    | none => none
    | some w =>
        let s := s.onSlot i (fun q => { q with pos := q.pos + 1 })
        let s := if w.fails then s.count (Reg.IN_SSTAT i) 16 16 else s
        some (w.data, w.tag + (if w.fails then 512 else 0), s)
  else none

/-- An upset in the word that is popped next: any of its bits, its parity bits, or one copy of its tag, freely (R242). -/
def Side.raceUpset (s : Side) (i : Nat) : Side :=
  let (k, s) := s.draw
  let (j, s) := s.draw
  let (m, s) := s.draw
  let hit (w : RaceWord) : RaceWord := { w with
    data := w.data ^^^ (Config.freeNat k % 2 ^ 256), parity := w.parity ^^^ (Config.freeNat j % 2 ^ 32)
    tags := (w.tags.1 ^^^ (Config.freeNat m % 2 ^ 9), w.tags.2) }
  s.onSlot i (fun q => { q with words := match q.words[q.pos]? with | some w => setAt q.words q.pos (hit w) | none => q.words })

/-- RMARK. -/
def Side.raceMark (s : Side) (i : Nat) : Side := s.onSlot i (fun q => { q with mark := some q.pos })

/-- RREWIND: to the mark, or to the oldest unreleased word. -/
def Side.raceRewind (s : Side) (i : Nat) : Side := s.onSlot i (fun q => { q with pos := q.mark.getD 0 })

/-- RRELEASE: every word before the read pointer is freed and the mark cleared. -/
def Side.raceRelease (s : Side) (i : Nat) : Side :=
  s.onSlot i (fun q => { q with words := q.words.drop q.pos, readable := q.readable - q.pos, pos := 0, mark := none })

/-- RCOUNT: readable packets whose end-marked word has not been popped. -/
def Side.raceCount (s : Side) (i : Nat) : Nat :=
  let q := s.slot i
  (((q.words.take q.readable).drop q.pos).filter (fun w => w.last)).length

/-- IN_RACE as it reads (R243). -/
def Side.raceView (s : Side) (i : Nat) : Word :=
  let q := s.slot i
  BitVec.ofNat 64 (q.words.length * 2 ^ 32 + ((q.words.take q.readable).filter (fun w => w.last)).length * 2 ^ 16 + q.pos)

/-! ### Samples -/

/-- The bytes of a packet packed into 256-bit words (R236). -/
def packWords : Nat → List (Byte × Bool) → List RaceWord
  | 0, _ => []
  | n + 1, bs =>
      let now := bs.take 32
      let rest := bs.drop 32
      let w := raceWord (fromBytes (now.map (fun b => b.1))) now.length rest.isEmpty (now.any (fun b => b.2))
      if rest.isEmpty then [w] else w :: packWords n rest

/-- Where a landed sample's first byte goes (R232): WRITE rounded up to 64, or the ring's base when fewer than MAX_SAMPLE
bytes remain before its end; none where less than MAX_SAMPLE is free. -/
def Side.landStart (s : Side) (i : Nat) : Option Nat :=
  let size := s.ringSize i
  let w := roundUp (s.slot i).head 64
  let st := if size - w % size < s.maxSample i then roundUp (w + 1) size else w
  let used := (st + 2 ^ 32 - s.fld (Reg.IN_LPTR i) 32 32) % 2 ^ 32
  if size < used + s.maxSample i then none else some st

/-- A discarded sample: its counter, and the count that the next prefix carries (R227). -/
def Side.discard (s : Side) (i lo : Nat) : Side :=
  (s.count (Reg.IN_SSTAT i) lo 16).onSlot i (fun q => { q with disc := q.disc + 1, prog := none })

/-- The prefix of a sample (R227), ARRIVAL zero until the packet becomes readable (R228). -/
def Side.samplePrefix (s : Side) (i : Nat) (m : Sample) (landed noFe : Bool) (landPos : Nat) : List Byte :=
  let b (x : Bool) (k : Nat) : Nat := if x then 2 ^ k else 0
  toBytes 8 (if m.noStamp then 0 else m.stamp) ++ toBytes 8 0 ++ toBytes 4 m.chain ++ toBytes 4 m.bytes.length ++
    toBytes 4 landPos ++ toBytes 1 (b landed 0 + b (m.bytes.any (fun x => x.2)) 1 + b m.noStamp 2 + b noFe 3 + b m.lineLost 4) ++
    toBytes 1 (min 255 (s.slot i).disc) ++ toBytes 1 (i % 32 + s.kind i % 8 * 32) ++ toBytes 1 0

/-- The addresses of a landed sample's bytes in its ring (R231). -/
def Side.landWrites (s : Side) (i st : Nat) (bs : List (Byte × Bool)) : List (Nat × Byte × Bool) :=
  let base := s.ringBase i % 2 ^ 46
  let size := s.ringSize i
  (upTo bs.length).zip bs |>.map (fun e => (base + (st + e.1) % size, e.2.1, e.2.2))

/-- The bytes of a landed sample that reach its ring (R232): of `bs`, which follow `n` bytes of it, those up to MAX_SAMPLE and before the
first that would land in a protected extent. Answers whether all of them did. -/
def Side.landBytes (s : Side) (i st n : Nat) (bs : List (Byte × Bool)) : Side × Bool :=
  let ws := (s.landWrites i (st + n) bs).take (s.maxSample i - n)
  let ok := ws.takeWhile (fun w => !(s.writeGuarded 0x05 w.1 1))
  ({ s with mem := s.mem.scatter (s.carried ok) }, ok.length == bs.length)

/-- More bytes of a sample in progress (R211, R232): those of a landed one land; one that grows past MAX_SAMPLE or meets a protected
extent is discarded. -/
def Side.sampleGrow (s : Side) (i : Nat) (m : Sample) (bs : List (Byte × Bool)) : Side :=
  match m.start with
  | none => s.onSlot i (fun q => { q with prog := some { m with bytes := m.bytes ++ bs } })
  | some st =>
      let (s, ok) := s.landBytes i st m.bytes.length bs
      if ok then s.onSlot i (fun q => { q with prog := some { m with bytes := m.bytes ++ bs } }) else s.discard i 32

/-- A sample begins (R225, R232): one to be landed for which the ring has no room is discarded. -/
def Side.sampleBegin (s : Side) (i : Nat) (m : Sample) : Side :=
  if s.lands i ∧ m.start.isNone then s.discard i 32 else s.onSlot i (fun q => { q with prog := some m })

/-- A sample ends (R227, R228, R235, R237): recorded, queued, or discarded. -/
def Side.sampleEnd (s : Side) (i : Nat) (m : Sample) (noFe : Bool) : Side :=
  let s := if m.noStamp ∧ s.kind i ≤ 1 then s.count (Reg.IN_SSTAT i) 0 16 else s
  match m.start with
  | some st =>
      if 256 ≤ (s.slot i).words.length then s.discard i 48
      else
        let pre := s.samplePrefix i m true noFe (st % 2 ^ 32)
        s.onSlot i (fun q => { q with words := q.words ++ [raceWord (fromBytes pre) 32 true false],
                                      pend := q.pend ++ [⟨1, some ((st + m.bytes.length) % 2 ^ 32)⟩],
                                      disc := 0, head := st + m.bytes.length, prog := none })
  | none =>
      let pre := (s.samplePrefix i m false noFe 0).map (fun b => (b, false))
      let ws := packWords 300 (pre ++ m.bytes)
      if 256 < (s.slot i).words.length + ws.length ∨ 8160 < m.bytes.length then s.discard i 48
      else s.onSlot i (fun q => { q with words := q.words ++ ws, pend := q.pend ++ [⟨ws.length, none⟩], disc := 0, prog := none })

/-- All bytes of a sample have arrived, and it ends. -/
def Side.sampleWhole (s : Side) (i : Nat) (m : Sample) (bs : List Byte) : Side :=
  let s := (s.sampleBegin i m)
  match (s.slot i).prog with
  | none => s
  | some m =>
      let s := s.sampleGrow i m (bs.map (fun b => (b, false)))
      match (s.slot i).prog with
      | none => s
      | some m => s.sampleEnd i m false

/-- The next chain number of a stream, given to a sample as it begins (R225). -/
def Side.takeChain (s : Side) (i : Nat) : Nat × Side :=
  let c := s.fld (Reg.IN_SCHAIN i) 0 32
  (c, s.put (Reg.IN_SCHAIN i) 0 32 (c + 1))

/-- SRC_STAMP from a raw stamp (R221). -/
def Side.adjusted (s : Side) (i raw : Nat) : Nat := unsigned 64 ((raw : Int) + signed 32 (s.fld (Reg.IN_ADJ i) 0 32))

/-- A sample that begins and ends with one frame (KIND 1 to 3). -/
def Side.oneSample (s : Side) (i : Nat) (raw : Option Nat) (bs : List Byte) : Side :=
  let (c, s) := s.takeChain i
  s.sampleWhole i ⟨c, s.adjusted i (raw.getD 0), [], raw.isNone, false, false, if s.lands i then s.landStart i else none⟩ bs

/-! ### Ethernet (R209, R210, R218, R219, R697) -/

/-- The VLAN ID, EtherType and network payload of a frame from its destination address on. -/
def ethParse (bs : List Byte) : Option Nat × Nat × List Byte :=
  let t := fromBytesBE ((bs.drop 12).take 2)
  if t = 0x8100 then
    (some (fromBytesBE ((bs.drop 14).take 2) % 4096), fromBytesBE ((bs.drop 16).take 2), bs.drop 18)
  else (none, t, bs.drop 14)

/-- The UDP destination port that R218 finds in a network payload. -/
def udpPort (etype : Nat) (p : List Byte) : Option Nat :=
  let b (i : Nat) : Nat := (p.getD i 0).toNat
  if etype = 0x0800 then
    let ihl := b 0 % 16 * 4
    if b 9 = 17 ∧ (b 6 / 32 % 2 = 0) ∧ (b 6 % 32 * 256 + b 7 = 0) ∧ ihl + 4 ≤ p.length then
      some (b (ihl + 2) * 256 + b (ihl + 3)) else none
  else if etype = 0x86DD then
    if b 6 = 17 ∧ 44 ≤ p.length then some (b 42 * 256 + b 43) else none
  else none

/-- What a slot matches by: its IN_SCFG, and IN_ETH or IN_CAN by its KIND. -/
def Side.matchReg (s : Side) (i : Nat) : Nat :=
  if s.kind i = 3 then (s.rd (Reg.IN_CAN i)).toNat else (s.rd (Reg.IN_ETH i)).toNat

/-- Whether an Ethernet frame matches what a slot with these registers asks for (R218). -/
def ethMatch (scfg eth port : Nat) (bs : List Byte) : Bool :=
  let (vlan, t, p) := ethParse bs
  let want := bits eth 16 12
  let udp := bits eth 32 16
  (bits scfg 28 4 == 1 || bits scfg 28 4 == 2) && bits scfg 24 4 == port && bits eth 48 16 == t &&
    (want == 0xFFF || (match vlan with | none => want == 0 | some v => want == v && want != 0)) &&
    (!(t == 0x0800 || t == 0x86DD) || udp == 0 || udpPort t p == some udp)

/-- Whether a CAN frame on a bus matches what a slot with these registers asks for (R218). -/
def canMatch (scfg c bus ident : Nat) (ide : Bool) : Bool :=
  bits scfg 28 4 == 3 && bits scfg 24 4 == bus && (bitAt c 31 == ide) && (ident &&& bits c 32 29) == bits c 0 29

/-- When the first octet of a frame that ends now arrived, FCS and MACsec included (R173, R208, R209, R219). -/
def Side.firstByte (s : Side) (port : Nat) (bs : List Byte) : Nat :=
  let sec := if s.flag (Reg.ET_SEC port) 0 then (if s.flag (Reg.ET_SEC port) 3 then 32 else 24) else 0
  s.now - ceilDiv ((max 60 bs.length + 4 + sec) * 8) (if port ≤ 3 then 25 else 1)

/-- Whether a slot has been enabled from a time until now. -/
def Side.slotSince (s : Side) (i t : Nat) : Bool := s.slotOn i && decide ((s.slot i).since ≤ t)

/-- The registers a slot matched by at a time not long past, where it was enabled then (R219). -/
def Side.slotAt (s : Side) (i t : Nat) : Option (Nat × Nat) :=
  if s.slotSince i t then some ((s.rd (Reg.IN_SCFG i)).toNat, s.matchReg i)
  else ((s.slot i).spans.find? (fun e => decide (e.1 ≤ t) && decide (t < e.2.1))).map (fun e => e.2.2)

/-- The lowest slot, enabled when a frame's first byte arrived, that matches it (R219). -/
def Side.takerAt (s : Side) (t : Nat) (hit : Nat → Nat → Bool) : Option Nat :=
  (upTo 32).find? (fun i => match s.slotAt i t with | some (a, b) => hit a b | none => false)

/-- The sample of a frame that slot `i` took at its first byte, at `t` (R217, R219): withdrawn where the slot has been disabled since,
its chain number with it. -/
def Side.taken (s : Side) (i t : Nat) (raw : Option Nat) (bs : List Byte) : Side :=
  if s.slotSince i t then s.oneSample i raw bs else if s.slotOn i then s else (s.takeChain i).2

/-- An Ethernet frame on ports 2 to 9 (R209, R210, R218 to R221). `bs` runs from the destination address to the end of
the payload. -/
def Side.ethReceive (s : Side) (port : Nat) (bs : List Byte) (fcsOk : Bool) (sec : SecIn) (jit : Int) : Side :=
  if port < 2 ∨ 9 < port then s
  else if fcsOk = false ∨ 1518 < bs.length then s.count (Reg.IN_EPORT port) 16 16
  else
    let (_, t, _) := ethParse bs
    let (ok, s) := s.secAdmit port sec (t == 0x888E)
    if ok = false ∨ t = 0x88F7 ∨ (t = 0x888E ∧ s.flag (Reg.ET_SEC port) 0) then s
    else
      let t0 := s.firstByte port bs
      match s.takerAt t0 (fun scfg eth => ethMatch scfg eth port bs) with
      | none => s.count (Reg.IN_EPORT port) 32 32
      | some i =>
          let off := s.fld (Reg.IN_ETH i) 0 16
          let raw := if s.kind i = 2 then some (stampOf 8 jit t0)
            else if off + 8 ≤ bs.length then some (fromBytes ((bs.drop off).take 8)) else none
          s.taken i t0 raw bs

/-! ### CAN (R212, R218, R229) -/

/-- A CAN frame on a bus, `took` ns after its SOF. `kind` is 0 for a data frame, 1 for an error frame, 2 for a classical remote
frame. -/
def Side.canReceive (s : Side) (bus kind ident : Nat) (ide fdf brs esi : Bool) (dlc : Nat) (data : List Byte) (jit : Int) (took : Nat) :
    Side :=
  if 3 < bus ∨ s.flag (Reg.IN_CANB bus) 16 = false ∨ s.flag (Reg.IN_CANB bus) 17 then s
  else if kind ≠ 0 then s.count (Reg.IN_CANB bus) 48 16
  else
    let b (x : Bool) (k : Nat) : Nat := if x then 2 ^ k else 0
    let t0 := s.now - took
    match s.takerAt t0 (fun scfg c => canMatch scfg c bus ident ide) with
    | none => s.count (Reg.IN_CANB bus) 32 16
    | some i =>
        let hdr := toBytes 4 (ident % 2 ^ 29 + b ide 29 + b fdf 30 + b brs 31) ++ toBytes 1 (dlc % 16 + b esi 4) ++ toBytes 3 0
        s.taken i t0 (some (stampOf 4 jit t0)) (hdr ++ data)

/-! ### SPI (R220, R229) -/

/-- The enabled SPI slot of a bus. -/
def Side.spiSlot (s : Side) (bus : Nat) : Option Nat :=
  (upTo 32).find? (fun i => s.slotOn i && s.kind i == 4 && s.source i == bus)

/-- A data-ready edge (R220): it starts a transfer, for which the chip select is asserted and CMD sent, or is counted while one is in
progress. -/
def Side.spiReady (s : Side) (bus : Nat) (jit : Int) : Side :=
  if 1 < bus ∨ s.flag (Reg.IN_SPIB bus) 0 = false then s
  else match s.ing.spi.getD bus none with
    | some _ => s.count (Reg.IN_SPIB bus) 48 16
    | none =>
        match s.spiSlot bus with
        | none => s
        | some i =>
            let (c, s) := s.takeChain i
            let m : Sample := ⟨c, s.adjusted i (s.stampNear 4 jit), [], false, false, false, if s.lands i then s.landStart i else none⟩
            let s := (s.sampleBegin i m).inSet (fun g => { g with spi := setAt g.spi bus (some (i, (g.slots.getD i Slot.reset).gen)) })
            s.send (14 + bus) [BitVec.ofNat 8 (s.fld (Reg.IN_SPI i) 24 8)]

/-- The end of an SPI transfer, with the BURST_LEN bytes read; a sample withdrawn meanwhile (R217) leaves nothing. -/
def Side.spiDone (s : Side) (bus : Nat) (data : List Byte) : Side :=
  match s.ing.spi.getD bus none with
  | none => s
  | some (i, gen) =>
      let s := s.inSet (fun g => { g with spi := setAt g.spi bus none })
      match (if (s.slot i).gen = gen then (s.slot i).prog else none) with
      | none => s
      | some m =>
          let n := s.fld (Reg.IN_SPI i) 0 9
          let s := s.sampleGrow i m (((data ++ List.replicate (n - data.length) 0).take n).map (fun b => (b, false)))
          match (s.slot i).prog with
          | none => s
          | some m => s.sampleEnd i m false

/-! ### CSI-2 cameras (R211, R214, R221 to R224, R230) -/

/-- The enabled camera slot of a receiver and virtual channel. -/
def Side.camSlot (s : Side) (rx vc : Nat) : Option Nat :=
  (upTo 32).find? (fun i => s.slotOn i && s.kind i == 0 && s.source i == rx && s.fld (Reg.IN_SCFG i) 20 4 == vc)

/-- A frame start opens a sample (R221, R225). -/
def Side.camOpen (s : Side) (i rx : Nat) : Side :=
  let (c, s) := s.takeChain i
  let raw : Option Nat := match s.stampMode i with
    | 0 => (s.ing.trig.getD rx ⟨none, none, false⟩).pulse
    | 2 => some s.now
    | _ => none
  let m : Sample := ⟨c, s.adjusted i (raw.getD 0), [], raw.isNone, false, false, s.landStart i⟩
  s.sampleBegin i m

/-- A CSI-2 packet (R208, R211). `hdr` is 0 for a good header, 1 for a corrected one, otherwise a multi-bit error. -/
def Side.csiPacket (s : Side) (rx vc dtype hdr : Nat) (crcOk : Bool) (data : List Byte) : Side :=
  if 15 < rx ∨ s.flag (Reg.IN_APHY rx) 8 = false then s
  else
    let s := if hdr = 1 then s.count (Reg.IN_APHY rx) 48 16 else s
    let slot := s.camSlot rx vc
    let lost (s : Side) : Side := match slot with
      | none => s
      | some i => s.onSlot i (fun q => { q with prog := q.prog.map (fun m => { m with lineLost := true }) })
    if 2 ≤ hdr then lost s
    else if !([0x00, 0x01, 0x02, 0x03, 0x2A, 0x2B, 0x2C, 0x2D, 0x2E, 0x1E, 0x12].contains dtype) then
      lost (s.count (Reg.IN_APHY rx) 32 16)
    else match slot with
      | none => s
      | some i =>
          match dtype, (s.slot i).prog with
          | 0x00, some m => (s.sampleEnd i m true).camOpen i rx
          | 0x00, none => s.camOpen i rx
          | 0x01, some m => s.sampleEnd i m false
          | 0x12, some m =>
              if m.embedded then s
              else
                let off := s.fld (Reg.IN_CAM i) 0 16
                let m := { m with embedded := true }
                let m := if s.stampMode i = 1 ∧ crcOk ∧ off + 8 ≤ data.length then
                    { m with stamp := s.adjusted i (fromBytes ((data.drop off).take 8)), noStamp := false } else m
                s.onSlot i (fun q => { q with prog := some m })
          | 0x02, _ => s
          | 0x03, _ => s
          | _, some m => s.sampleGrow i m (data.map (fun b => (b, !crcOk)))
          | _, none => s

/-! ### Readable packets (R235) -/

/-- The first whole packet that is not readable becomes readable: ARRIVAL is filled and WRITE advances. Answers the
packet's prefix. -/
def Side.raceReadable (s : Side) (i : Nat) : Option (Nat × Side) :=
  let q := s.slot i
  match q.pend with
  | [] => none
  | p :: r =>
      match q.words[q.readable]? with
      | none => none
      | some w =>
          let pre := putBits w.data 64 64 s.now
          let s := s.onSlot i (fun q => { q with words := setAt q.words q.readable { w with data := pre, parity := parityOf pre },
                                                 readable := q.readable + p.words, pend := r })
          let s := match p.write with | some n => s.put (Reg.IN_LPTR i) 0 32 n | none => s
          some (pre, s)

/-! ### Camera triggers (R223) -/

/-- The driving slot of a receiver: the lowest-numbered enabled TRIGGER-mode camera slot, with its enabling, PERIOD and PHASE. -/
def Side.driver (s : Side) (rx : Nat) : Option (Nat × Nat × Nat × Nat) :=
  ((upTo 32).find? (fun i => s.slotOn i && s.kind i == 0 && s.stampMode i == 0 && s.source i == rx)).map
    (fun i => (i, (s.slot i).gen, s.fld (Reg.IN_TRIG i) 32 32, s.fld (Reg.IN_TRIG i) 0 32))

/-- At a frame boundary new PERIODs, PHASEs and driving slots take effect (R223). -/
def Side.triggerBoundary (s : Side) : Side :=
  s.inSet (fun g => { g with trig := (upTo 16).map (fun r =>
    { (g.trig.getD r ⟨none, none, false⟩) with drv := s.driver r }) })

/-- A trigger pulse at PHASE + k · PERIOD of the driving slot, within 20 ns of that time (R223); a slot disabled since the boundary that
made it the driving one drives no more. -/
def Side.triggerPulse (s : Side) (rx : Nat) : Side :=
  let t := s.ing.trig.getD rx ⟨none, none, false⟩
  match t.drv with
  | none => s
  | some (i, gen, per, ph) =>
      if per = 0 ∨ s.now + 20 < ph ∨ s.slotOn i = false ∨ (s.slot i).gen ≠ gen then s
      else
        let p := ph + (s.now + 20 - ph) / per * per
        if p + 20 < s.now ∨ (match t.pulse with | some q => decide (p ≤ q) | none => false) = true then s
        else s.inSet (fun g => { g with trig := setAt g.trig rx { t with pulse := some p, high := true } })

/-- 1 µs after its rise the trigger falls. -/
def Side.triggerEnd (s : Side) (rx : Nat) : Side :=
  let t := s.ing.trig.getD rx ⟨none, none, false⟩
  match t.pulse with
  | some p => if t.high ∧ p + 1000 ≤ s.now then s.inSet (fun g => { g with trig := setAt g.trig rx { t with high := false } }) else s
  | none => s

/-! ### Register writes (R213 to R217, R234) -/

/-- IN_STATUS.CFG_ERR set. -/
def Side.inErr (s : Side) : Side := s.put Reg.IN_STATUS 0 1 1

/-- Whether a slot may be enabled with the configuration `v` of IN_SCFG (R215). -/
def Side.slotCfgOk (s : Side) (i : Nat) (v : Word) : Bool :=
  let kind := v.fld 28 4
  let src := v.fld 24 4
  let others (p : Nat → Bool) : Bool := (upTo 32).any (fun j => j != i && s.slotOn j && p j)
  let base := s.ringBase i
  let size := s.fld (Reg.IN_LSIZE i) 0 5
  decide (kind ≤ 4) && v.fld 18 2 != 3 &&
  (match kind with
    | 0 => v.flag 17 && !(others (fun j => s.kind j == 0 && s.source j == src && s.fld (Reg.IN_SCFG j) 20 4 == v.fld 20 4)) &&
        (v.fld 18 2 != 0 || s.fld (Reg.IN_TRIG i) 32 32 == 0 || decide (s.fld (Reg.IN_TRIG i) 0 32 < s.fld (Reg.IN_TRIG i) 32 32))
    | 1 | 2 => decide (2 ≤ src) && decide (src ≤ 9) && decide (0x0600 ≤ s.fld (Reg.IN_ETH i) 48 16) && s.fld (Reg.IN_ETH i) 48 16 != 0x88F7
    | 3 => decide (src ≤ 3)
    | _ => decide (src ≤ 1) && !(others (fun j => s.kind j == 4 && s.source j == src)) &&
        decide (1 ≤ s.fld (Reg.IN_SPI i) 0 9) && decide (s.fld (Reg.IN_SPI i) 0 9 ≤ 256) &&
        decide (1 ≤ s.fld (Reg.IN_SPI i) 40 6) && decide (s.fld (Reg.IN_SPI i) 40 6 ≤ 20)) &&
  (!(v.flag 17) || (decide (16 ≤ size) && decide (size ≤ 31) && s.maxSample i != 0 && decide (s.maxSample i ≤ 2 ^ size) &&
    s.extentOk base (2 ^ size) && decide (base % 2 ^ 46 + 2 ^ size ≤ 0x3000_0000_0000)))

/-- A slot is enabled (R217); where it may not be, the write's other fields are written and ENABLE stays 0 (log entry 12). -/
def Side.slotEnable (s : Side) (i : Nat) (v : Word) : Side :=
  if s.slotCfgOk i v then
    let s := (((s.wr (Reg.IN_SCFG i) (v.put 0 1 1)).onSlot i (fun q => { Slot.reset with since := s.now, gen := q.gen + 1, spans := q.spans })).wr (Reg.IN_SCHAIN i) 0).wr (Reg.IN_LPTR i) 0
    s
  else (s.wr (Reg.IN_SCFG i) (v.put 0 1 0)).inErr

/-- A slot is disabled (R217, R227): a sample in progress is withdrawn, whole packets stay. A camera frame of which bytes have landed and
whose FE has not come is withdrawn if more bytes were still to come, and closed with NO_FE if not; which is a free choice (DESIGN
CHOICE, log entry 104). No frame takes 10 ms. -/
def Side.slotDisable (s : Side) (i : Nat) : Side :=
  let (k, s') := s.draw
  let s := match (s.slot i).prog with
    | some m => if s.kind i = 0 ∧ m.bytes ≠ [] then (if Config.freeBool k then s'.sampleEnd i m true else s') else s
    | none => s
  let span := ((s.slot i).since, s.now, (s.rd (Reg.IN_SCFG i)).toNat, s.matchReg i)
  (s.put (Reg.IN_SCFG i) 0 1 0).onSlot i (fun q => { q with
    prog := none
    spans := (q.spans.filter (fun e => decide (s.now < e.2.1 + 10000000))) ++ [span] })

/-- A write to IN_SCFG (R215 to R217). -/
def Side.slotWrite (s : Side) (i : Nat) (v : Word) : Side :=
  if s.slotOn i then (if v.flag 0 then s else s.slotDisable i)
  else if v.flag 0 then s.slotEnable i v
  else s.wr (Reg.IN_SCFG i) v

/-- A write to RELEASE (R234): not after WRITE, not before its present value. -/
def Side.landRelease (s : Side) (i : Nat) (v : Word) : Side :=
  let w := s.fld (Reg.IN_LPTR i) 0 32
  let r := s.fld (Reg.IN_LPTR i) 32 32
  let n := v.fld 32 32
  if (n + 2 ^ 32 - r) % 2 ^ 32 ≤ (w + 2 ^ 32 - r) % 2 ^ 32 then s.put (Reg.IN_LPTR i) 32 32 n else s.inErr

/-- A write to IN_TRIG (R216). -/
def Side.trigWrite (s : Side) (i : Nat) (v : Word) : Side :=
  if s.slotOn i ∧ v.fld 32 32 ≠ 0 ∧ v.fld 32 32 ≤ v.fld 0 32 then s.inErr else s.wr (Reg.IN_TRIG i) v

/-- A write of GEAR_MAX (R243): 0 turns the receiver off, and a lower limit than its gear ends the link. -/
def Side.gearWrite (s : Side) (rx : Nat) (v : Word) : Side :=
  let m := v.fld 0 4
  if 5 < m then s.inErr
  else
    let s := s.put (Reg.IN_APHY rx) 0 4 m
    if m < s.fld (Reg.IN_APHY rx) 4 4 then (s.put (Reg.IN_APHY rx) 8 1 0).put (Reg.IN_APHY rx) 4 4 0 else s

/-- A-PHY training (R208, R243): LOCK and GEAR, no link while the receiver is off; GEAR at most GEAR_MAX. A lost link
leaves the sample open for the next frame start. -/
def Side.aphyLink (s : Side) (rx : Nat) (lock : Bool) (gear : Nat) : Side :=
  if 15 < rx then s
  else
    let m := s.fld (Reg.IN_APHY rx) 0 4
    if lock ∧ 1 ≤ gear ∧ gear ≤ m then (s.put (Reg.IN_APHY rx) 8 1 1).put (Reg.IN_APHY rx) 4 4 gear
    else if lock then s
    else (s.put (Reg.IN_APHY rx) 8 1 0).put (Reg.IN_APHY rx) 4 4 0

/-- R243 and ISO 11898-1: the bus leaves bus-off. -/
def Side.canRecover (s : Side) (bus : Nat) : Side :=
  if bus ≤ 3 ∧ s.flag (Reg.IN_CANB bus) 17 then (s.put (Reg.IN_CANB bus) 17 1 0).lgSet (fun l => { l with tec := alSet l.tec bus 0 }) else s

end Sys2Proof.Machine
end

