-- ==== Sys2Proof/Machine/Transit.lean ====
section
/-!
DEFINITION. Machine/Transit.lean: time alignment and ego-motion (R244 to R289): Transit's streams, closes and revisions,
and Gait.
-/
namespace Sys2Proof.Machine

/-! ### Frames and chain numbers -/

/-- R159: whether chain number `a` precedes `b`. -/
def chainBefore (a b : Nat) : Bool :=
  let d := (b + 2 ^ 32 - a % 2 ^ 32) % 2 ^ 32
  if d = 0 then false else if d < 2 ^ 31 then true else if d = 2 ^ 31 then decide (a < b) else false

/-- PERIOD of R39 and R244. -/
def Side.framePeriod (s : Side) : Nat := s.fld Reg.TR_FRAME 32 32
/-- SETTLE of R245. -/
def Side.settleNs (s : Side) : Nat := s.fld Reg.TR_FRAME 0 32
/-- PHASE of R39 and R244. -/
def Side.framePhase (s : Side) : Nat := s.fld Reg.TR_PHASE 0 32

/-- The first frame boundary T_n at or after a time (R39). -/
def Side.boundaryFrom (s : Side) (t : Nat) : Nat :=
  let p := s.framePeriod
  if t ≤ s.framePhase then s.framePhase else s.framePhase + ceilDiv (t - s.framePhase) p * p

/-- The number of the frame that a time lies in (R39, R631). -/
def Side.frameOf (s : Side) (t : Nat) : Nat := (t - s.framePhase) / s.framePeriod

/-- Transit updated. -/
def Side.trSet (s : Side) (f : Transit → Transit) : Side := { s with tr := f s.tr }

/-- A Transit stream. -/
def Side.stream (s : Side) (i : Nat) : TrStream := s.tr.streams.getD i TrStream.reset

/-- A Transit stream updated. -/
def Side.onStream (s : Side) (i : Nat) (f : TrStream → TrStream) : Side :=
  s.trSet (fun t => { t with streams := setAt t.streams i (f (t.streams.getD i TrStream.reset)) })

/-- Whether a Transit stream is enabled, and whether it is a FRAME stream (R287). -/
def Side.streamOn (s : Side) (i : Nat) : Bool := s.flag (Reg.TR_SCFG i) 0
@[inherit_doc Side.streamOn] def Side.streamFrame (s : Side) (i : Nat) : Bool := s.flag (Reg.TR_SCFG i) 1

/-- The state of a stream at a time (R270, R273). -/
def Side.streamState (s : Side) (i t : Nat) : Nat :=
  match (s.stream i).hist.filter (fun h => decide (h.1 ≤ t)) |>.getLast? with
  | some h => h.2
  | none => if s.streamOn i then 2 else 0

/-- A stream enters a state (R270 to R273). -/
def Side.streamTo (s : Side) (i st : Nat) : Side :=
  (s.put (Reg.TR_SSTAT i) 8 2 st).onStream i (fun x => { x with hist := x.hist ++ [(s.now, st)] })

/-! ### Alignment (R255 to R260) -/

/-- R255: a sample is kept among the 64 of latest SRC_STAMP; of equal stamps the later chain stays. -/
def keepSample (l : List TrSample) (x : TrSample) : List TrSample :=
  if x.noStamp then l
  else
    let l : List TrSample := match l.find? (fun (y : TrSample) => y.stamp == x.stamp) with
      | some y => if chainBefore y.chain x.chain then (l.filter (fun (z : TrSample) => z.stamp != x.stamp)) ++ [x] else l
      | none => l ++ [x]
    let l : List TrSample := l.mergeSort (fun a b => decide (a.stamp ≤ b.stamp))
    l.drop (l.length - 64)

/-- R256: the extrapolation limit of a stream in ns. -/
def Side.xlim (s : Side) (i : Nat) : Nat :=
  let x := s.fld (Reg.TR_STIME i) 32 16
  if x = 0 then min (2 * s.fld (Reg.TR_STIME i) 48 16 * 1000) 50000000 else x * 1000

/-- The distance of two times. -/
def dist (a b : Nat) : Nat := max a b - min a b

/-- R256: the samples usable for a time, by a decision time, in order of their stamps. -/
def Side.usable (s : Side) (i t dec : Nat) : List TrSample :=
  (s.stream i).kept.filter (fun x => decide (x.avail ≤ dec) && decide (dist x.stamp t ≤ s.xlim i))

/-- The values of a channel-wise combination of two samples (R258, R259). -/
def Side.blend (s : Side) (i t : Nat) (a b : TrSample) : List Nat :=
  let w := weight t a.stamp b.stamp
  let lin := (a.vals.zip b.vals).map (fun e => to32 (lerp flt32 w (of32 e.1) (of32 e.2)))
  (upTo 4).foldl (fun acc k =>
    if (s.rd (Reg.TR_SCFG i)).flag (20 + k) ∧ 4 * k + 4 ≤ acc.length then
      let q (l : List Nat) : Quat := Quat.of flt32 (l.drop (4 * k))
      acc.take (4 * k) ++ slerp w (q a.vals) (q b.vals) ++ acc.drop (4 * k + 4)
    else acc) lin

/-- R257: the method of a stream for a time, with the samples it takes. -/
def Side.method (s : Side) (i t dec : Nat) : Nat × Option TrSample × Option TrSample :=
  let us := s.usable i t dec
  let before := us.filter (fun x => decide (x.stamp < t))
  let after := us.filter (fun x => decide (t < x.stamp))
  if s.streamState i dec = 2 then (6, none, none)
  else match us.find? (fun x => x.stamp == t) with
    | some x => (1, some x, some x)
    | none =>
        if s.streamFrame i then
          match before.getLast?, after.head? with
          | some a, some b => if t - a.stamp ≤ b.stamp - t then (5, some a, some a) else (5, some b, some b)
          | some a, none => (5, some a, some a)
          | none, some b => (5, some b, some b)
          | none, none => (0, none, none)
        else match before.getLast?, after.head? with
          | some a, some b => (2, some a, some b)
          | some a, none =>
              match before.dropLast.getLast? with
              | some z => (3, some z, some a)
              | none => (4, some a, some a)
          | none, some b =>
              match after.tail.head? with
              | some z => (3, some b, some z)
              | none => (4, some b, some b)
          | none, none => (0, none, none)

/-- The FP32 values of a stream at a time (R258, R259): zero for a stream that is stale or lame. -/
def Side.streamVals (s : Side) (i t dec : Nat) : Nat × List Nat × Nat :=
  let n := s.fld (Reg.TR_SCFG i) 8 5
  match s.method i t dec with
  | (m, some a, some b) => (m, if m = 2 ∨ m = 3 then s.blend i t a b else a.vals, b.chain)
  | (m, _, _) => (m, List.replicate n 0, 0)

/-- The entry of a stream (R262). -/
def Side.trEntry (s : Side) (i t dec : Nat) (revised : Bool) : TrEntry :=
  let (m, a, b) := s.method i t dec
  let st := s.stream i
  let frame := s.streamFrame i
  let z : TrSample := ⟨0, 0, 0, 0, 0, 0, false, false, []⟩
  let sa := a.getD z
  let sb := b.getD z
  let (_, vals, _) := s.streamVals i t dec
  let bytes := if m = 0 ∨ m = 6 then [] else if frame then toBytes 4 sa.landPos ++ toBytes 4 sa.len
    else (vals.map (fun v => toBytes 4 v)).flatten
  { slot := i, method := m, chainA := sa.chain, chainB := sb.chain, stampA := sa.stamp, stampB := sb.stamp,
    poison := frame && sa.poison, revised := revised, noSample := st.lastChain.isNone,
    nchan := if frame then 0 else s.fld (Reg.TR_SCFG i) 8 5, chainLast := st.lastChain.getD 0,
    oldest := if 1 ≤ m ∧ m ≤ 5 then some (min sa.stamp sb.stamp) else none,
    vals := bytes ++ List.replicate (64 - bytes.length) 0 }

/-- The 96 bytes of an entry (R262). -/
def TrEntry.bytes (e : TrEntry) : List Byte :=
  let b (x : Bool) (k : Nat) : Nat := if x then 2 ^ k else 0
  toBytes 1 e.slot ++ toBytes 1 e.method ++ toBytes 1 (b e.poison 0 + b e.revised 1 + b e.noSample 2) ++ toBytes 1 e.nchan ++
    toBytes 4 e.chainLast ++ toBytes 4 e.chainA ++ toBytes 4 e.chainB ++ toBytes 8 e.stampA ++ toBytes 8 e.stampB ++ e.vals

/-! ### Poses (R281 to R283) -/

/-- G_k (R275). -/
def Side.gaitTime (s : Side) (k : Nat) : Nat := s.gt.phase + k * s.gt.per

/-- The address of history record `k` (R281). -/
def Side.poseAddr (s : Side) (k : Nat) : Nat := s.fld Reg.GT_HIST 17 47 * 2 ^ 17 % 2 ^ 46 + k % 1024 * 128

/-- History record `k` as a pose; none where the ring no longer or not yet holds it. -/
def Side.poseRec (s : Side) (k : Nat) : Option Pose :=
  let g := s.gt
  if k < g.firstK ∨ g.nextK ≤ k ∨ k + 1024 < g.nextK then none
  else
    let v := s.num (s.poseAddr k) 128
    let f (o w n : Nat) : List Nat := (upTo n).map (fun i => sfld v (o + w * i) 0 (8 * w))
    some ⟨sfld v 8 0 3, f 16 8 3, f 40 4 4, f 56 4 3, f 68 4 3⟩

/-- The pose extrapolated from the newest record with its VEL and RATE. -/
def Side.poseAhead (s : Side) (t : Nat) : Option Pose :=
  let k := s.gt.nextK - 1
  match s.poseRec k with
  | none => none
  | some a =>
      if s.gaitTime k ≤ t ∧ t ≤ s.gaitTime k + 2 * s.gt.per then
        let dt := div64 (FVal.ofInt (t - s.gaitTime k : Nat)) (FVal.ofInt 1000000000)
        let p := (V3.of flt64 a.pos).add ((V3.of flt32 a.vel).scale dt)
        let q := ((Quat.of flt32 a.q).mul (quatFromRotvec ((V3.of flt32 a.rate).scale dt))).norm
        some ⟨a.src, p.codes flt64, q.codes flt32, a.vel, a.rate⟩
      else none

/-- R282: the pose at a time: between the two records that bracket it, or at most 2 · GPERIOD after the newest. -/
def Side.poseAt (s : Side) (t : Nat) : Option Pose :=
  if t < s.gt.phase ∨ s.gt.per = 0 then none
  else
    let k := (t - s.gt.phase) / s.gt.per
    match s.poseRec k, s.poseRec (k + 1) with
    | some a, some b =>
        let w := weight t (s.gaitTime k) (s.gaitTime (k + 1))
        if s.gaitTime k = t then some a
        else
          some ⟨min a.src b.src, (a.pos.zip b.pos).map (fun e => to64 (lerp flt64 w (of64 e.1) (of64 e.2))),
            slerp w (Quat.of flt32 a.q) (Quat.of flt32 b.q),
            (a.vel.zip b.vel).map (fun e => to32 (lerp flt32 w (of32 e.1) (of32 e.2))),
            (a.rate.zip b.rate).map (fun e => to32 (lerp flt32 w (of32 e.1) (of32 e.2)))⟩
    | some a, none => if s.gaitTime k = t then some a else s.poseAhead t
    | _, _ => s.poseAhead t

/-- The history records that the pose at a time reads. -/
def Side.poseKeys (s : Side) (t : Nat) : List Nat :=
  let k := (t - s.gt.phase) / s.gt.per
  if s.gaitTime k = t ∧ (s.poseRec k).isSome = true then [k]
  else if (s.poseRec k).isSome ∧ (s.poseRec (k + 1)).isSome then [k, k + 1]
  else if (s.poseAhead t).isSome then [s.gt.nextK - 1]
  else []

/-- The extents that the poses at two times, and the records between them, read (R282, R285). -/
def Side.poseReads (s : Side) (t0 t1 : Nat) : List (Nat × Nat) :=
  let k0 := ceilDiv (t0 - s.gt.phase) s.gt.per
  let k1 := (t1 - s.gt.phase) / s.gt.per
  let mid := if (s.poseAt t0).isSome ∧ (s.poseAt t1).isSome then
    ((upTo (k1 + 1 - k0)).map (fun i => k0 + i)).filter (fun k => (s.poseRec k).isSome) else []
  (s.poseKeys t0 ++ mid ++ s.poseKeys t1).map (fun k => (s.poseAddr k, 128))

/-- Whether a pose reads a poisoned record. -/
def Side.posePoison (s : Side) (t : Nat) : Bool := (s.poseKeys t).any (fun k => s.poisoned (s.poseAddr k) 128)

/-- The pose that a unit takes without a command that could end with POISON_CONSUMED: none where it would read poison (DESIGN
CHOICE, log entry 108). -/
def Side.posePlain (s : Side) (t : Nat) : Option Pose := if s.posePoison t then none else s.poseAt t

/-! ### Records (R261 to R268) -/

/-- A list of values as bytes of a width. -/
def listBytes (n : Nat) (l : List Nat) : List Byte := (l.map (fun v => toBytes n v)).flatten

/-- Bytes 64 to 127 of a record: the Gait pose at T (R261). -/
def Side.egoBytes (s : Side) (t : Nat) : List Byte :=
  match s.posePlain t with
  | none => List.replicate 64 0
  | some p => toBytes 1 p.src ++ toBytes 7 0 ++ listBytes 8 p.pos ++ listBytes 4 p.q ++ listBytes 4 p.vel ++ toBytes 4 0

/-- The streams of a record whose entry satisfies a condition, as a mask. -/
def TrFrame.mask (f : TrFrame) (p : TrEntry → Bool) : Nat := f.entries.foldl (fun m e => if p e then m + 2 ^ e.slot else m) 0

/-- The 4,096 bytes of a record (R261). -/
def Side.trRecord (s : Side) (f : TrFrame) (decided seq : Nat) : List Byte :=
  let olds := f.entries.filterMap (fun e => e.oldest)
  let oldest := match olds with | [] => 0 | x :: r => r.foldl min x
  let bs := toBytes 8 f.validity ++ toBytes 8 decided ++ toBytes 4 seq ++ toBytes 1 f.rev ++ toBytes 1 s.id ++
    toBytes 2 f.entries.length ++ toBytes 4 (f.mask (fun e => decide (1 ≤ e.method) && decide (e.method ≤ 5))) ++
    toBytes 4 (f.mask (fun e => e.method == 0)) ++ toBytes 4 (f.mask (fun e => e.method == 6)) ++ toBytes 4 0 ++
    toBytes 8 oldest ++ toBytes 16 0 ++ f.ego ++ (f.entries.map (fun e => e.bytes)).flatten
  bs ++ List.replicate (4096 - bs.length) 0

/-- R263: a record goes to every output that takes it, whose tethers are then signalled; SEQ rises by 1. -/
def Side.trWrite (s : Side) (f : TrFrame) (decided : Nat) : Side :=
  let seq := s.fld Reg.TR_SEQ 0 32
  let bs := s.trRecord f decided seq
  let takes (c : Nat) : Bool := s.flag (Reg.TR_OCFG c) 4 && (f.rev == 0 || s.flag (Reg.TR_OCFG c) 23)
  let outs := (upTo 4).filter takes
  let s := outs.foldl (fun s c =>
    s.ringEntry 0x06 (s.fld (Reg.TR_OBASE c) 12 52 * 4096 + seq % (16 * 2 ^ s.fld (Reg.TR_OCFG c) 0 4) * 4096) bs) s
  let s := outs.foldl (fun s c => if s.flag (Reg.TR_OCFG c) 22 then s.signal (s.fld (Reg.TR_OCFG c) 9 13) 1 else s) s
  s.put Reg.TR_SEQ 0 32 (seq + 1)

/-- R265 to R268: what a late sample of a stream does to one closed frame: nothing, a revision to write, or a reason for
LATE_DROP. -/
def Side.lateOn (s : Side) (i tl : Nat) (f : TrFrame) : Option (Option TrRevision) :=
  match f.entries.find? (fun e => e.slot == i) with
  | none => none
  | some old =>
      let new := s.trEntry i f.validity tl true
      if new.method = old.method ∧ new.chainA = old.chainA ∧ new.chainB = old.chainB then none
      else
        let outs := (upTo 4).any (fun c => s.flag (Reg.TR_OCFG c) 4 && s.flag (Reg.TR_OCFG c) 23)
        if tl ≤ f.close + s.fld Reg.TR_REV 0 32 ∧ s.streamState i tl ≠ 2 ∧ outs ∧ f.rev < 255 then
          let es := f.entries.map (fun e => if e.slot == i then new else { e with revised := false })
          some (some ⟨{ f with entries := es, rev := f.rev + 1 }, tl, i⟩)
        else some none

/-- A sample of a stream that became available at `tl`, against every closed frame in order of validity time. -/
def Side.lateSample (s : Side) (i tl : Nat) : Side :=
  let step (acc : List TrFrame × List TrRevision × Bool) (f : TrFrame) : List TrFrame × List TrRevision × Bool :=
    if tl ≤ f.close then (acc.1 ++ [f], acc.2.1, acc.2.2)
    else match s.lateOn i tl f with
      | none => (acc.1 ++ [f], acc.2.1, acc.2.2)
      | some (some r) => (acc.1 ++ [r.frame], acc.2.1 ++ [r], acc.2.2)
      | some none => (acc.1 ++ [f], acc.2.1, true)
  let (fs, rs, drop) := s.tr.closed.foldl step ([], [], false)
  let s := s.trSet (fun t => { t with closed := fs, revs := t.revs ++ rs })
  if drop then s.count (Reg.TR_SCNT i) 48 16 else s

/-- The streams enabled by a decision time (R288): those whose enabling precedes it. -/
def Side.recordStreams (s : Side) (dec : Nat) : List Nat :=
  (upTo 32).filter (fun i => s.streamOn i && (match (s.stream i).hist.head? with | some h => decide (h.1 < dec) | none => true))

/-- The wheel slots of GT_IN. -/
def Side.wheelSlots (s : Side) : List Nat := (upTo 32).filter (fun i => s.flag Reg.GT_IN (32 + i))

/-- Gait updated. -/
def Side.gtSet (s : Side) (f : Gait → Gait) : Side := { s with gt := f s.gt }

/-- The inputs of a Gait step at `t`, of the samples available by `dec` (R275 to R277). -/
def Side.gaitInputs (s : Side) (t dec : Nat) : GaitCut :=
  let val (i : Nat) : Option (List Nat × Nat) :=
    let (m, v, c) := s.streamVals i t dec
    if s.streamOn i ∧ 1 ≤ m ∧ m ≤ 4 then some (v, c) else none
  ⟨if s.flag Reg.GT_IN 7 then val (s.fld Reg.GT_IN 0 5) else none, s.wheelSlots.filterMap val,
    if s.flag Reg.GT_IN 23 then val (s.fld Reg.GT_IN 16 5) else none⟩

/-- How many of the times `first`, `first + per`, … lie before now. -/
def Side.passed (s : Side) (first per : Nat) : Nat := if s.now ≤ first then 0 else ceilDiv (s.now - first) per

/-- What the passing of time has decided before anything of the present instant: the records of the frames whose close has passed
(R246, R248), and the inputs of the Gait steps whose lag has passed (R275). -/
def Side.trCut (s : Side) : Side :=
  let frame (t : Nat) : TrFrame :=
    let c := t + s.settleNs
    ⟨t, c, 0, (s.recordStreams c).map (fun i => s.trEntry i t c false), s.egoBytes t⟩
  let n := if s.flag Reg.TR_CTRL 0 then s.passed (s.tr.next + s.settleNs) s.framePeriod else 0
  let fs := (upTo n).map (fun i => frame (s.tr.next + i * s.framePeriod))
  let k := s.gt.nextK + s.gt.cuts.length
  let lag := s.fld Reg.GT_PER 0 32
  let m := if s.flag Reg.GT_CTRL 0 then s.passed (s.gaitTime k + lag) s.gt.per else 0
  let cs := (upTo m).map (fun i => s.gaitInputs (s.gaitTime (k + i)) (s.gaitTime (k + i) + lag))
  (s.trSet (fun x => { x with next := x.next + n * s.framePeriod, closed := x.closed ++ fs, due := x.due ++ fs })).gtSet
    (fun g => { g with cuts := g.cuts ++ cs })

/-- A sample becomes available (R247, R255, R262). -/
def Side.available (s : Side) (i : Nat) (x : TrSample) : Side :=
  let s := s.trCut
  let last := match (s.stream i).lastChain with
    | none => x.chain
    | some c => if chainBefore c x.chain then x.chain else c
  let s := s.onStream i (fun t => { t with kept := keepSample t.kept x, lastChain := some last })
  s.lateSample i x.avail

/-- R269 to R273: the monitor of an enabled stream at the ARRIVAL of a sample. -/
def Side.monitor (s : Side) (i : Nat) (x : TrSample) : Side :=
  let st := s.fld (Reg.TR_SSTAT i) 8 2
  let per : Int := s.framePeriod
  let e : Int := (x.arrival : Int) - x.stamp - (s.fld (Reg.TR_STIME i) 0 16 * 1000 : Nat)
  let s := if x.noStamp then s.count (Reg.TR_SCNT2 i) 16 16 else s
  if st = 1 then
    if x.noStamp then s
    else
      let f := signed 64 (s.rd (Reg.TR_SFILT i)).toNat
      let f' := f + (e - f).fdiv ((2 ^ s.fld (Reg.TR_STIME i) 28 4 : Nat) : Int)
      let s := s.wr (Reg.TR_SFILT i) (BitVec.ofInt 64 f')
      if per < f'.natAbs then
        (((s.streamTo i 2).put (Reg.TR_SSTAT i) 0 5 0).count (Reg.TR_SCNT i) 0 16).raise 0x09 0x06 0 none i
      else s
  else if st = 2 then
    if x.noStamp = false ∧ (2 * e.natAbs : Int) ≤ per then
      let r := s.fld (Reg.TR_SSTAT i) 0 5 + 1
      let s := s.put (Reg.TR_SSTAT i) 0 5 r
      if r = 16 then (s.streamTo i 1).wr (Reg.TR_SFILT i) (BitVec.ofInt 64 e) else s
    else s.put (Reg.TR_SSTAT i) 0 5 0
  else s

/-- R250: Transit learns of a sample whose packet became readable. -/
def Side.trArrival (s : Side) (i pre : Nat) : Side :=
  let fl := sfld pre 28 0 8
  let x : TrSample := ⟨sfld pre 0 0 64, sfld pre 8 0 64, sfld pre 8 0 64, sfld pre 16 0 32, sfld pre 24 0 32, sfld pre 20 0 32,
    bitAt fl 1, bitAt fl 2, []⟩
  let s := s.onStream i (fun t => { t with recent := (t.recent ++ [x]).drop (t.recent.length + 1 - 256) })
  if s.streamOn i then
    let s := s.monitor i x
    if s.streamFrame i then s.available i x else s
  else s

/-- RACE_PACKET_READABLE (R235, R250). -/
def Side.packetReadable (s : Side) (i : Nat) : Side :=
  match s.raceReadable i with
  | none => s
  | some (pre, s) => s.trArrival i pre

/-- TR_POST (R251 to R254): every reason that applies, or the values stored and the sample available now. -/
def trPost (o : Op) (s : Side) : Side :=
  let i := o.f 32 0 5
  let n := o.f 33 0 8
  let chain := o.f 36 0 32
  let blk := o.block (o.f 40 0 64)
  let vals := (upTo n).map (fun k => bits blk (32 * k) 32)
  let found := (s.stream i).recent.find? (fun x => x.chain == chain)
  let notState := !(s.streamOn i) || s.streamFrame i || n != s.fld (Reg.TR_SCFG i) 8 5
  let nonFinite := vals.any (fun v => !(of32 v).isFin)
  let why := (if found.isNone then 1 else 0) + (if notState then 2 else 0) + (if nonFinite then 4 else 0) +
    (if (s.stream i).posted.contains chain then 8 else 0)
  if n = 0 then s.complete o stDone 0
  else match found, why with
    | some x, 0 =>
        let s := s.onStream i (fun t => { t with posted := (t.posted ++ [chain]).drop (t.posted.length + 1 - 256) })
        (s.available i { x with avail := s.now, vals := vals }).complete o stDone 0
    | _, _ =>
        let s := if found.isNone then s.count (Reg.TR_SCNT2 i) 48 16 else s
        let s := if nonFinite then s.count (Reg.TR_SCNT2 i) 32 16 else s
        s.complete o stFlagged why

/-- TRANSIT_CLOSE (R245 to R249, R263): after T + SETTLE the record of frame T, decided from the samples available then, is
written. -/
def Side.transitClose (s : Side) : Side :=
  let s := s.trCut
  match s.tr.due with
  | [] => s
  | f :: rest =>
      let s := (s.trSet (fun x => { x with due := rest })).trWrite f f.close
      f.entries.foldl (fun s e => if e.method = 0 then s.count (Reg.TR_SCNT e.slot) 16 16 else s) s

/-- TRANSIT_REVISION (R266): the next decided revision is written, once the record of its frame is. -/
def Side.transitRevision (s : Side) : Side :=
  match s.tr.revs with
  | [] => s
  | r :: rest =>
      if s.tr.due.any (fun f => f.validity == r.frame.validity) then s
      else
      let s := s.trSet (fun t => { t with revs := rest })
      (s.trWrite r.frame r.decided).count (Reg.TR_SCNT r.slot) 32 16

/-- TR_CTRL.CFG_ERR set. -/
def Side.trErr (s : Side) : Side := s.put Reg.TR_CTRL 3 1 1

/-- TRANSIT_ENABLE (R249). -/
def Side.transitEnable (s : Side) : Side :=
  (s.put Reg.TR_CTRL 0 1 1).trSet (fun t => { t with next := s.boundaryFrom s.now, closed := [] })

/-- Writes to TR_FRAME, TR_PHASE and TR_REV (R244, R245, R249, R268). -/
def Side.trTiming (s : Side) (k : Nat) (v : Word) : Side :=
  let ok :=
    if k = Reg.TR_FRAME then decide (10000000 ≤ v.fld 32 32) && decide (v.fld 32 32 ≤ 100000000) &&
      decide (2000000 ≤ v.fld 0 32) && decide (v.fld 0 32 ≤ 30000000) &&
        decide (s.framePhase < v.fld 32 32) && decide (s.fld Reg.TR_REV 0 32 ≤ v.fld 32 32)
    else if k = Reg.TR_PHASE then decide (v.fld 0 32 < s.framePeriod)
    else decide (v.fld 0 32 ≤ s.framePeriod)
  if s.flag Reg.TR_CTRL 0 ∨ ok = false then s.trErr else s.wr k v

/-- Whether a stream's configuration lets it be enabled (R288). -/
def Side.streamCfgOk (s : Side) (i : Nat) (v : Word) : Bool :=
  let n := v.fld 8 5
  let q := v.fld 20 4
  let groups := (upTo 4).all (fun k => !(bitAt q k) || decide (4 * k + 4 ≤ n))
  decide (s.fld (Reg.TR_STIME i) 32 16 ≤ 50000) && decide (s.fld (Reg.TR_STIME i) 28 4 ≤ 8) &&
  (if v.flag 1 then n == 0 && q == 0 else decide (1 ≤ n) && decide (n ≤ 16) && s.fld (Reg.TR_STIME i) 48 16 != 0 && groups)

/-- A write to TR_SCFG (R270, R288); where the stream may not be enabled, the other fields are written (log entry 12). -/
def Side.streamWrite (s : Side) (i : Nat) (v : Word) : Side :=
  let s := s.trCut
  if s.streamOn i then
    if v.flag 0 then s
    else (((s.put (Reg.TR_SCFG i) 0 1 0).streamTo i 0).put (Reg.TR_SSTAT i) 0 5 0).onStream i
      (fun t => { t with kept := [], posted := [], lastChain := none })
  else if v.flag 0 then
    if s.streamCfgOk i v then
      let s := (s.wr (Reg.TR_SCFG i) v).onStream i (fun t => { t with kept := [], posted := [], hist := [], lastChain := none })
      (s.streamTo i 2).put (Reg.TR_SSTAT i) 0 5 0
    else (s.wr (Reg.TR_SCFG i) (v.put 0 1 0)).trErr
  else s.wr (Reg.TR_SCFG i) v

/-! ### Gait (R275 to R285) -/

/-- GT_CTRL.CFG_ERR set. -/
def Side.gtErr (s : Side) : Side := s.put Reg.GT_CTRL 2 1 1

/-- bias_g and scale as FP32 codes (R289). -/
def Side.gaitBias (s : Side) : List Nat := [s.fld Reg.GT_BIAS0 0 32, s.fld Reg.GT_BIAS0 32 32, s.fld Reg.GT_BIAS1 0 32]
@[inherit_doc Side.gaitBias] def Side.gaitScale (s : Side) : Nat := s.fld Reg.GT_BIAS1 32 32

/-- The 128 bytes of a pose record (R281). -/
def Side.poseBytes (s : Side) (k src : Nat) (extrap upd : Bool) (g : Gait) (force : List Nat) (imuChain wheelChain : Nat) : List Byte :=
  let v32 (l : List Nat) : List Byte := listBytes 4 ((l.map of64).map to32)
  toBytes 8 (s.gaitTime k) ++ toBytes 1 (src + (if extrap then 8 else 0) + (if upd then 16 else 0)) ++ toBytes 3 0 ++
    toBytes 4 k ++ listBytes 8 g.p ++ v32 g.q ++ v32 g.v ++ v32 g.w ++ listBytes 4 force ++ listBytes 4 s.gaitBias ++
    toBytes 4 s.gaitScale ++ toBytes 4 imuChain ++ toBytes 4 wheelChain ++ toBytes 12 0

/-- One Gait step (R276 to R281), after G_k + GLAG. -/
def Side.gaitStep (s : Side) : Side :=
  let s := s.trCut
  match s.gt.cuts with
  | [] => s
  | ⟨imu, wheels, steer⟩ :: cuts =>
    let k := s.gt.nextK
    let scale := of32 s.gaitScale
    let mean := div64 ((wheels.map (fun w => of32 (w.1.getD 0 0))).foldl add64 FVal.zero) (FVal.ofInt wheels.length)
    let wheel := !wheels.isEmpty
    let spd := mul64 scale mean
    let dt := div64 (FVal.ofInt s.gt.per) (FVal.ofInt 1000000000)
    let g := s.gt
    let force : V3 := match imu with | some (v, _) => V3.of flt32 (v.drop 3) | none => ⟨FVal.zero, FVal.zero, FVal.zero⟩
    let rate : Option (Nat × V3) := match imu, wheel, steer with
      | some (v, _), _, _ => some (if wheel then 1 else 2, (V3.of flt32 v).sub (V3.of flt32 s.gaitBias))
      | none, true, some (st, _) =>
          let tn := tanV (of32 (st.getD 0 0))
          let base := div64 (FVal.ofInt (s.fld Reg.GT_VEH 0 32)) (FVal.ofInt 1000)
          some (3, ⟨FVal.zero, FVal.zero, div64 (mul64 spd tn) base⟩)
      | _, _, _ => none
    let q0 := Quat.of flt64 g.q
    let v0 := V3.of flt64 g.v
    let p0 := V3.of flt64 g.p
    let turn (w : V3) : Quat := (q0.mul (quatFromRotvec (w.scale dt))).norm
    let (src, extrap, g') : Nat × Bool × Gait := match rate with
      | some (src, w) =>
          let q := turn w
          let v := if wheel then q.rotate ⟨spd, FVal.zero, FVal.zero⟩
            else v0.add (((q.rotate force).sub ⟨FVal.zero, FVal.zero, r64 (FVal.ratio 980665 100000)⟩).scale dt)
          let p := p0.add (v.scale dt)
          (src, false, { g with p := p.codes flt64, v := v.codes flt64, q := q.codes flt64, w := w.codes flt64, src := src, lost := 0 })
      | none =>
          if g.lost = 0 then
            let q := turn (V3.of flt64 g.w)
            (g.src, true, { g with p := (p0.add (v0.scale dt)).codes flt64, q := q.codes flt64, lost := 1 })
          else (0, true, { g with src := 0, lost := g.lost + 1 })
    let s := s.gtSet (fun _ => { g' with corr := false, nextK := k + 1, cuts := cuts })
    let imuC := match imu with | some (_, c) => c | none => 0
    let whC := match rate, wheels with | some _, (_, c) :: _ => c | _, _ => 0
    let s := s.ringEntry 0x07 (s.poseAddr k)
      (s.poseBytes k src extrap g.corr g' (force.codes flt32) imuC whC)
    let s := s.put Reg.GT_SEQ 0 32 (k + 1)
    let s := if rate.isNone then s.count Reg.GT_CNT 32 16 else s
    let s := if src = 0 then s.count Reg.GT_CNT 16 16 else s
    let s := if src = 2 ∨ src = 3 then s.count Reg.GT_CNT 0 16 else s
    if rate.isNone ∧ g.lost = 0 then s.raise 0x0A 0x07 0 none k else s

/-- GAIT_ENABLE (R280). -/
def Side.gaitEnable (s : Side) : Side :=
  let state (i : Nat) : Bool := s.streamOn i && !s.streamFrame i
  let named := (if s.flag Reg.GT_IN 7 then [s.fld Reg.GT_IN 0 5] else []) ++ s.wheelSlots ++
    (if s.flag Reg.GT_IN 23 then [s.fld Reg.GT_IN 16 5] else [])
  let per := s.fld Reg.GT_PER 32 32
  let base := s.fld Reg.GT_HIST 17 47 * 2 ^ 17
  if named.all state ∧ (!(s.flag Reg.GT_IN 7) || decide (6 ≤ s.fld (Reg.TR_SCFG (s.fld Reg.GT_IN 0 5)) 8 5)) = true ∧
      s.wheelSlots.length ≤ 4 ∧ (!(s.flag Reg.GT_IN 23) || s.fld Reg.GT_VEH 0 32 != 0) = true ∧
      500000 ≤ per ∧ per ≤ 10000000 ∧ s.fld Reg.GT_PER 0 32 ≤ per ∧
      base < 2 ^ 47 ∧ 0x3000_0000_0000 ≤ base % 2 ^ 46 ∧ base % 2 ^ 46 + 2 ^ 17 ≤ 0x3000_0400_0000 then
    let k := if s.now ≤ s.fld Reg.GT_PHASE 0 32 then 0 else ceilDiv (s.now - s.fld Reg.GT_PHASE 0 32) per
    let one := to64 (FVal.ofInt 1)
    let s := s.put Reg.GT_CTRL 0 1 1
    let s := s.gtSet (fun _ => ⟨[0, 0, 0], [0, 0, 0], [one, 0, 0, 0], [0, 0, 0], 0, 0, false, k, k, s.fld Reg.GT_PHASE 0 32, per, []⟩)
    s.put Reg.GT_SEQ 0 32 k
  else s.gtErr

/-- What a GT_CORR between two poses comes to: whether it is rejected, whether the way between them is long enough for the scale, and the
biases and the scale it gives. -/
structure CorrRun where
  reject : Bool
  far : Bool
  bias : List Nat
  scale : Nat
  deriving DecidableEq, Repr

/-- The measured turn and way between two poses compared with those given (R285); none where either time has no pose, or the second does not
follow the first. -/
def Side.corrRun (s : Side) (o : Op) : Option CorrRun :=
  let t0 := o.f 32 0 64
  let t1 := o.f 40 0 64
  let blk := o.block (o.f 48 0 64)
  let rData := V3.of flt32 ((upTo 3).map (fun k => sfld blk (4 * k) 0 32))
  let dData := of32 (sfld blk 12 0 32)
  match s.poseAt t0, s.poseAt t1 with
  | some a, some b =>
      if t1 ≤ t0 then none
      else
        let r := rotvecOf ((Quat.of flt32 a.q).conj.mul (Quat.of flt32 b.q))
        let k0 := ceilDiv (t0 - s.gt.phase) s.gt.per
        let k1 := (t1 - s.gt.phase) / s.gt.per
        let pts := a.pos :: ((upTo (k1 + 1 - k0)).filterMap (fun i => (s.poseRec (k0 + i)).map (fun p => p.pos))) ++ [b.pos]
        let d := (pts.zip pts.tail).foldl (fun acc e => add64 acc ((V3.of flt64 e.2).sub (V3.of flt64 e.1)).len) FVal.zero
        let dt := div64 (FVal.ofInt (t1 - t0 : Nat)) (FVal.ofInt 1000000000)
        let diff := r.sub rData
        let corr : V3 := ⟨div64 diff.x dt, div64 diff.y dt, div64 diff.z dt⟩
        let lim := div64 (FVal.ofInt (s.fld Reg.GT_GAIN 32 32)) (FVal.ofInt 1000000)
        let big := [corr.x, corr.y, corr.z].any (fun c => !(c.abs.le lim))
        let far := FVal.le (FVal.ofInt 1) d
        let rel := sub64 (div64 dData d) (FVal.ofInt 1)
        let off := !(d.isZero && dData.isZero) && !(rel.abs.le (.fin false 1 (-3)))
        let kb : FVal := .fin false 1 (-(s.fld Reg.GT_GAIN 0 4 : Int))
        let ks : FVal := .fin false 1 (-(s.fld Reg.GT_GAIN 8 4 : Int))
        some ⟨big || off, far, ((V3.of flt32 s.gaitBias).add (corr.scale kb)).codes flt32,
          if far then to32 (mul64 (of32 s.gaitScale) (add64 (FVal.ofInt 1) (mul64 ks rel))) else s.gaitScale⟩
  | _, _ => none

/-- GT_CORR (R284, R285). -/
def gtCorr (o : Op) (s : Side) : Side :=
  s.consume o 0x07 (s.poseReads (o.f 32 0 64) (o.f 40 0 64)) [] fun s =>
  match s.corrRun o with
  | none => s.complete o stFlagged 1
  | some r =>
      if r.reject then (s.count Reg.GT_CNT 48 16).complete o stFlagged 2
      else
        let s := s.wr Reg.GT_BIAS0 (BitVec.ofNat 64 (r.bias.getD 0 0 + r.bias.getD 1 0 * 2 ^ 32))
        let s := s.wr Reg.GT_BIAS1 (BitVec.ofNat 64 (r.bias.getD 2 0 + r.scale * 2 ^ 32))
        let s := s.gtSet (fun g => { g with corr := true })
        if r.far then s.complete o stDone 0 else s.complete o stFlagged 4

end Sys2Proof.Machine
end

