-- ==== Sys2Proof/Machine/Steward.lean ====
section
/-!
DEFINITION. Machine/Steward.lean: the Steward (R622 to R635, R642 to R647, R650, R651): side states and silence, events and
their log, counted faults and withdrawals, heartbeats, and the state of the die-to-die links (R33).
-/
namespace Sys2Proof.Machine

/-- The Steward's part of a side updated. -/
def Side.swSet (s : Side) (f : Steward → Steward) : Side := { s with sw := f s.sw }

/-- SW_STATE.STATE (R622): 0 START, 1 ACTIVE, 2 DEGRADED, 3 SILENT. -/
def Side.swState (s : Side) : Nat := s.fld Reg.SW_STATE 0 2

/-- SW_STATE.PEER (R643): 0 UNKNOWN, 1 UP, 2 LOST, 3 SILENT. -/
def Side.peer (s : Side) : Nat := s.fld Reg.SW_STATE 2 2

/-- Whether the Steward of the side runs (R686, R688). -/
def Side.stewardOn (s : Side) : Bool := s.phase == .boot || s.phase == .up

/-- A change of the side state, with its event 0x14 (R628). -/
def Side.setState (s : Side) (v : Nat) : Side :=
  (s.put Reg.SW_STATE 0 2 v).raise 0x14 0x02 0xFFFF none s.swState

/-- The side is silenced (R622, R625, R626). -/
def Side.silence (s : Side) : Side :=
  if s.swState = 3 then s
  else ((s.setState 3).swSet (fun w => { w with silentAt := s.now, missed := 0 })).lgSilence

/-- A side silenced, with the SILENCE flag of R630 where the call silences it. -/
def Side.silenceFlag (s : Side) : Side × Nat := if s.swState = 3 then (s, 0) else (s.silence, 4)

/-! ### Withdrawals (R634) -/

/-- The bit of SW_WDRAW of an instance (R650). -/
def wdrawBit (unit inst : Nat) : Option Nat :=
  match unit with
  | 0x0E => some inst
  | 0x0F => some (24 + inst)
  | 0x08 => some 28
  | 0x0B => some 29
  | _ => none

/-- Whether an instance is withdrawn: from the decision on (R629). -/
def Side.withdrawn (s : Side) (unit inst : Nat) : Bool :=
  match wdrawBit unit inst with
  | some b => s.flag Reg.SW_WDRAW b
  | none => false

/-- Whether an instance is withdrawn with effect (R634). -/
def Side.gone (s : Side) (unit inst : Nat) : Bool := s.withdrawn unit inst && !(s.sw.decided.contains (unit, inst))

/-- The Trot-up state of an instance. -/
def Side.trot (s : Side) (unit inst : Nat) : Option TrotUnit := s.sw.trots.find? (fun t => t.unit == unit && t.inst == inst)

/-- The Trot-up state of an instance updated. -/
def Side.onTrot (s : Side) (unit inst : Nat) (f : TrotUnit → TrotUnit) : Side :=
  s.swSet (fun w => { w with trots := w.trots.map (fun t => if t.unit == unit && t.inst == inst then f t else t) })

/-- Whether an instance runs neither a command nor a Trot-up. -/
def Side.idle (s : Side) (unit inst : Nat) : Bool :=
  !(s.busy unit inst) && !((s.trot unit inst).any (fun t => t.run.isSome))

/-- The working Draft engines of the side. -/
def Side.workingEngines (s : Side) : Nat := ((upTo s.part.engines).filter (fun e => !(s.withdrawn 0x0E e))).length

/-- A withdrawal in ACTIVE makes the side DEGRADED (R634). -/
def Side.degrade (s : Side) : Side := if s.swState = 1 then s.setState 2 else s

/-- An engine or a Stall loses its power; a Manger becomes poisoned (R385). -/
def Side.powerOff (s : Side) (unit inst : Nat) : Side :=
  if unit = 0x0E then (s.put Reg.PW_ENG inst 1 0).onManger inst (fun _ => Manger.kill)
  else if unit = 0x0F then s.put Reg.PW_ENG (24 + inst) 1 0
  else s

/-- A withdrawal takes effect on its instance (R634, R710). -/
def Side.withdrawEffect (s : Side) (unit inst : Nat) : Side :=
  if s.sw.decided.contains (unit, inst) && s.idle unit inst then
    let s := (s.powerOff unit inst).swSet (fun w => { w with
      decided := w.decided.filter (fun d => d != (unit, inst))
      trots := w.trots.filter (fun t => !(t.unit == unit && t.inst == inst)) })
    { s with power := { s.power with
        leaving := s.power.leaving.filter (fun d => d != (unit, inst))
        gaining := s.power.gaining.filter (fun d => d != (unit, inst)) } }
  else s

/-- A withdrawal is decided (R631, R634, R636, R640): SW_WDRAW, event 0x05, the side state, and its effect at once where the
instance is idle. Answers the SILENCE flag. -/
def Side.withdraw (s : Side) (unit inst : Nat) (pattern : Option (Nat × Nat)) : Side × Nat :=
  match wdrawBit unit inst with
  | none => (s, 0)
  | some b =>
      if s.flag Reg.SW_WDRAW b then (s, 0)
      else
        let last := match s.trot unit inst with | some t => t.lastPass | none => 0
        let s := (s.put Reg.SW_WDRAW b 1 1).swSet (fun w => { w with decided := w.decided ++ [(unit, inst)] })
        let s := s.onTrot unit inst (fun t => { t with want := none, rerun := none, late := none })
        let s := s.raise 0x05 unit inst none last 2 pattern
        let (s, fl) :=
          if unit = 0x08 ∨ unit = 0x0B then s.silenceFlag
          else if unit = 0x0E ∧ s.workingEngines < s.fld Reg.SW_CFG 8 8 then s.silenceFlag
          else (s.degrade, 0)
        (s.withdrawEffect unit inst, fl)

/-- Chainmen are withdrawn (R634, R636, R640, R555). -/
def Side.withdrawChainmen (s : Side) (cs : List Nat) (all : Bool) (pattern : Option (Nat × Nat)) : Side × Nat :=
  let last := match s.trot 0x0A 0 with | some t => t.lastPass | none => 0
  let news := (cs.filter (fun c => decide (c < 4096) && !(s.sw.chain.contains c))).eraseDups
  let s := s.swSet (fun w => { w with chain := news.foldl nsAdd w.chain })
  let s := s.put Reg.TV_CHAIN 0 13 (4096 - s.sw.chain.length)
  let s := if all then s.raise 0x05 0x0A 0xFFFF none last 2 pattern
    else news.foldl (fun s c => s.raise 0x05 0x0A c none last 2 pattern) s
  if s.fld Reg.TV_CHAIN 0 13 < 512 then s.silenceFlag else (s.degrade, 0)

/-! ### Counted faults and verdicts (R631 to R633) -/

/-- A counted fault at a Datum time (R631). Answers the WITHDRAW and SILENCE flags. -/
def Side.countFault (s : Side) (unit inst time : Nat) (waiting : Bool) : Side × Nat :=
  let m := s.frameOf time
  let old := s.sw.counted.find? (fun c => c.unit == unit && c.inst == inst)
  let s := (s.count Reg.SW_CNT 48 16).swSet (fun w => { w with
    counted := ⟨unit, inst, m, waiting⟩ :: w.counted.filter (fun c => !(c.unit == unit && c.inst == inst)) })
  match old with
  | some c =>
      if m ≤ c.frame + 63 ∧ s.withdrawn unit inst = false then
        let (s, fl) := s.withdraw unit inst none
        (s, fl + 2)
      else (s, 0)
  | none => (s, 0)

/-- SW_VERDICT_WRITE (R632, R633, R651). -/
def Side.verdict (s : Side) (level : Nat) (v : Word) : Side :=
  let unit := v.fld 32 8
  let inst := v.fld 0 16
  if level = 0 ∨ !(unit = 0x0E ∨ unit = 0x0F) then s.put Reg.SW_STATE 5 1 1
  else
    let waits := s.sw.counted.any (fun c => c.unit == unit && c.inst == inst && c.waiting)
    if waits = false ∨ s.fld Reg.SW_CFG 16 8 ≤ s.fld Reg.SW_STATE 8 8 then s.count Reg.SW_CNT2 8 8
    else
      let s := s.swSet (fun w => { w with counted := w.counted.map (fun c =>
        if c.unit == unit && c.inst == inst then { c with waiting := false } else c) })
      let s := s.count Reg.SW_STATE 8 8
      let s := if v.flag 40 then s.count Reg.SW_CNT 32 16 else s
      s.raise 0x16 unit inst none (if v.flag 40 then 1 else 0) (if v.flag 40 then 1 else 0)

/-! ### Events (R628 to R630) -/

/-- R645: a side with LEAD 0 in ACTIVE or DEGRADED sets LEAD, with the PROMOTE flag. -/
def Side.promote (s : Side) : Side × Nat :=
  if (s.swState = 1 ∨ s.swState = 2) ∧ s.flag Reg.LG_CTRL 1 = false then (s.setLead true, 8) else (s, 0)

/-- R629: order of events: Datum time, then code. -/
def SEvent.before (a b : SEvent) : Bool := decide (a.time < b.time) || (decide (a.time = b.time) && decide (a.code < b.code))

/-- The event to handle next, the earliest raised of equal ones. -/
def nextEvent : List SEvent → Option SEvent
  | [] => none
  | e :: r =>
      match nextEvent r with
      | none => some e
      | some f => if f.before e then some f else some e

/-- The reaction of an event (R628). Answers the flags that it sets. The hardware path of 0x11 and 0x12 has acted before. -/
def Side.react (s : Side) (e : SEvent) : Side × Nat :=
  match e.code with
  | 0x01 | 0x02 => if e.unit = 0x0E ∨ e.unit = 0x0F then s.countFault e.unit e.inst e.time true else (s, 0)
  | 0x03 => (s.count Reg.SW_CNT 16 16, 0)
  | 0x04 => (s.count Reg.SW_CNT 0 16, 0)
  | 0x08 => if e.detail = 3 then (s, 0) else s.silenceFlag
  | 0x0F => if s.peer = 0 ∨ s.peer = 2 ∨ s.flag Reg.SW_STATE 4 = false then s.promote else (s, 0)
  | 0x10 =>
      let s := (s.count Reg.SW_CNT2 0 8).swSet (fun w => { w with missed := w.missed + 1 })
      if s.fld Reg.SW_CFG 0 4 ≤ s.sw.missed then s.silenceFlag else (s, 0)
  | 0x13 => if e.detail = 3 then s.promote else (s, 0)
  | 0x17 => s.silenceFlag
  | _ => (s, 0)

/-- R630: the entry of an event in the log ring, its count and its signal. -/
def Side.logEvent (s : Side) (e : SEvent) (flags : Nat) : Side :=
  let n := 16 * 2 ^ s.fld Reg.SW_LOG_CFG 0 4
  let k := s.fld Reg.SW_LOG_HEAD 0 32
  let bs := toBytes 8 e.time ++ toBytes 1 e.code ++ toBytes 1 e.unit ++ toBytes 2 e.inst ++
    toBytes 1 (flags % 16 + 128 * phaseBit k n) ++ toBytes 1 s.swState ++ toBytes 2 0 ++ toBytes 4 (e.cmd.elim 0 (fun c => c.1)) ++
    toBytes 1 (e.cmd.elim 0 (fun c => c.2) % 64) ++ toBytes 3 0 ++ toBytes 8 e.detail
  let s := s.ringEntry 0x02 (s.fld Reg.SW_LOG_BASE 5 59 * 32 + k % n * 32) bs
  let s := s.put Reg.SW_LOG_HEAD 0 32 (k + 1)
  if s.flag Reg.SW_LOG_CFG 21 then s.signal (s.fld Reg.SW_LOG_CFG 8 13) 1 else s

/-- R98, R629: the Steward request to every Groom. -/
def Side.stewardRequest (s : Side) : Side :=
  let k := s.fld Reg.SW_LOG_HEAD 0 32
  { s with grooms := s.grooms.map (fun g => g.ctlSet 0x018 (BitVec.ofNat 64 (k * 2 ^ 32 + 1))) }

/-- The events that go to the peer as cross-link class 2 (R628). -/
def toPeer (code : Nat) : Bool := code == 0x05 || code == 0x11 || code == 0x12 || code == 0x14 || code == 0x17

/-- A class-2 message; of its layout only code and DETAIL are stated (R628). -/
def eventMessage (e : SEvent) : List Byte :=
  toBytes 1 e.code ++ toBytes 1 e.unit ++ toBytes 2 e.inst ++ toBytes 4 0 ++ toBytes 8 e.detail ++ toBytes 48 0

/-- R652, R656: an event waits for its fault-signature record, or is counted lost. -/
def Side.fsQueue (s : Side) (e : SEvent) (flags : Nat) : Side :=
  if s.flag Reg.FS_CFG 4 ∧ s.flag Reg.FS_MASK e.code then
    if s.kp.fsq.length < 64 then
      { s with kp := { s.kp with fsq := s.kp.fsq ++ [⟨{ e with flags := flags }, s.swState, s.mode⟩] } }
    else ({ s with kp := { s.kp with fsLost := s.kp.fsLost + 1 } }).count Reg.FS_CNT 48 16
  else s

/-- STEWARD_EVENT_HANDLE (R629): the reaction, the entry, the Steward request, the copy to the peer. -/
def Side.handleEvent (s : Side) : Side :=
  match nextEvent s.events with
  | none => s
  | some e =>
      let s : Side := { s with events := s.events.erase e }
      let (s, fl) := s.react e
      let fl := Nat.lor e.flags fl
      let s := ((s.logEvent e fl).stewardRequest).fsQueue e fl
      if toPeer e.code then s.xsend 2 0 (eventMessage e) else s

/-! ### Hardware causes of silence (R620, R621, R625) -/

/-- An event of the hardware path: the side is silenced as it is raised. -/
def Side.hardSilence (s : Side) (code detail : Nat) : Side :=
  let fl := if s.swState = 3 then 0 else 4
  (s.raise code 0x02 0xFFFF none detail fl).silence

/-- MONITOR_TRIP (R620). -/
def Side.monitorTrip (s : Side) (code : Nat) : Side := if 1 ≤ code ∧ code ≤ 6 then s.hardSilence 0x11 code else s

/-- STEWARD_SELF_CHECK_FAIL (R621): a lockstep disagreement or the watchdog. -/
def Side.selfCheckFail (s : Side) (watchdog : Bool) : Side := s.hardSilence 0x12 (if watchdog then 1 else 0)

/-! ### Registers (R651) -/

/-- A write to SW_CTRL (R623, R625, R651): SILENCE raises event 0x17, ARM counts in START only. -/
def Side.swCtrl (s : Side) (level : Nat) (v : Word) (newest : Option Nat) : Side :=
  if level < 2 then s.put Reg.SW_STATE 5 1 1
  else
    let s := if v.flag 1 then s.raise 0x17 0x02 0xFFFF else s
    if v.flag 0 ∧ s.swState = 0 ∧ s.sw.armed = false then s.swSet (fun w => { w with armed := true, nextPack := newest }) else s

/-- A write to SW_CFG (R650, R651). -/
def Side.swCfg (s : Side) (v : Word) : Side :=
  if s.swState = 0 ∧ 2 ≤ v.fld 28 4 ∧ 1 ≤ v.fld 24 4 ∧ 1 ≤ v.fld 8 8 ∧ v.fld 8 8 ≤ s.part.engines ∧ 1 ≤ v.fld 0 4 then
    s.wr Reg.SW_CFG v
  else s.put Reg.SW_STATE 5 1 1

/-- A write to SW_LOG_CFG (R630, R650, R651). -/
def Side.swLogCfg (s : Side) (v : Word) : Side :=
  if s.swState = 0 ∧ v.fld 0 4 ≤ 8 then (s.wr Reg.SW_LOG_CFG v).put Reg.SW_LOG_HEAD 0 32 0 else s.put Reg.SW_STATE 5 1 1

/-! ### Heartbeats and the peer (R642, R643, R45) -/

/-- HEARTBEAT_SEND (R642): at each multiple of 50,000 ns, while the Steward runs. -/
def Side.heartbeatSend (s : Side) : Side :=
  let due := s.now / 50000 * 50000
  if s.stewardOn ∧ (s.sw.hbSent.all (fun t => decide (t < due))) = true then
    let b0 := s.swState + (if s.flag Reg.LG_CTRL 1 then 4 else 0) + (if s.peer = 1 then 8 else 0) + 16 * s.mode
    let bs := toBytes 8 s.now ++ toBytes 4 s.sw.hbSeq ++ toBytes 1 b0 ++
      toBytes 1 (s.fld Reg.DT_STATE 0 2 + 4 * s.fld Reg.DT_STATE 2 1) ++ toBytes 2 (s.fld Reg.TV_CHAIN 0 13) ++
      toBytes 8 (s.rd Reg.SW_WDRAW).toNat ++ toBytes 8 (s.rd Reg.PT_EPOCH).toNat ++ toBytes 8 (s.rd Reg.SW_FRAME).toNat ++ toBytes 24 0
    let s := s.swSet (fun w => { w with hbSent := some due, hbSeq := (w.hbSeq + 1) % 2 ^ 32 })
    s.xsend 0 0 bs
  else s

/-- A change of PEER, with event 0x13 (R643). -/
def Side.setPeer (s : Side) (v : Nat) : Side :=
  if s.peer = v then s else (s.put Reg.SW_STATE 2 2 v).raise 0x13 0x02 0xFFFF none v

/-- R45: a valid heartbeat on the way to merging with the peer again. -/
def Side.rejoin (s : Side) : Side :=
  match s.sw.joinRun with
  | none => s
  | some n =>
      if 15 ≤ n then
        let s := s.swSet (fun w => { w with joinRun := none })
        { s with pt := { s.pt with join := some (s.boundaryFrom (s.now + 1)) } }
      else s.swSet (fun w => { w with joinRun := some (n + 1) })

/-- HEARTBEAT_RECEIVE (R643): a message of class 0 arrives. -/
def Side.heartbeat (s : Side) (m : XMsg) : Side :=
  let v := fromBytes m.bytes
  let seq := sfld v 8 0 32
  if !m.bad.isEmpty || !(s.sw.hbRef.all (fun r => chainBefore r seq)) then
    (s.count Reg.SW_CNT2 48 16).swSet (fun w => { w with hbRun := 0, joinRun := w.joinRun.map (fun _ => 0) })
  else
    let st := sfld v 12 0 2
    let n := s.sw.hbRun + 1
    let s := s.swSet (fun w => { w with hbRef := some seq, hbRun := n, hbLast := s.now, peerState := st,
                                        peerLocked := sfld v 13 0 2 == 1 || sfld v 13 2 1 == 1 })
    let s := (s.put Reg.SW_STATE 4 1 (sfld v 12 2 1)).rejoin
    if st = 3 then s.setPeer 3 else if 16 ≤ n then s.setPeer 1 else s

/-- PEER_LOST_TIMEOUT (R643). -/
def Side.peerLost (s : Side) : Side :=
  if s.stewardOn ∧ s.peer ≠ 2 ∧ s.sw.hbLast + s.fld Reg.SW_CFG 28 4 * 50000 < s.now then
    (s.swSet (fun w => { w with hbRef := none, hbRun := 0 })).setPeer 2
  else s

/-- PEER_EVENT_RECEIVE (R45, R628): a message of class 2 arrives. -/
def Side.peerEvent (s : Side) (m : XMsg) : Side :=
  if !m.bad.isEmpty then s.count Reg.SW_CNT2 48 16
  else if 256 ≤ (s.events.filter (fun e => e.code == 0x15)).length then s.count Reg.SW_CNT2 32 16
  else
    let v := fromBytes m.bytes
    s.raise 0x15 0x02 0xFFFF none (sfld v 0 0 8 + 256 * (sfld v 8 0 56))

/-! ### Control periods (R188, R644, R646, R647) -/

/-- CONTROL_PERIOD_BOUNDARY (R187 to R189, R644, R647). -/
def Side.controlPeriod (s : Side) : Side :=
  if s.datum.lastC < s.lastBoundary then
    let s := s.controlBoundary
    let n := if s.sw.xfault then s.sw.xrun + 1 else 0
    let s := s.swSet (fun w => { w with xfault := false, xrun := n })
    let own := s.fld Reg.DT_STATE 0 2 == 1 || s.flag Reg.DT_STATE 2
    let s := if s.fld Reg.SW_CFG 24 4 ≤ n ∧ s.peer = 1 ∧
        ((!own && s.sw.peerLocked) || (own == s.sw.peerLocked && !(s.flag Reg.LG_CTRL 1))) = true then s.silence else s
    if s.id = 1 ∧ s.flag Reg.LG_CTRL 1 ∧ s.peer = 1 ∧ s.flag Reg.SW_STATE 4 ∧ (s.sw.peerState = 1 ∨ s.sw.peerState = 2) then
      s.setLead false
    else s
  else s

/-- LEAD_MISS_CHECK (R646): the judgement of the control period that begins at `c`. -/
def Side.leadMiss (s : Side) (c : Nat) : Side :=
  let d := s.datum
  let mine := s.lg.duals.find? (fun x => x.1 == c)
  let tol := match mine with
    | some (_, p, _) => s.fld (Reg.LG_TOL p) 0 17
    | none => if s.lg.dualPorts.isEmpty then 100000 else s.lg.dualPorts.foldl (fun a p => max a (s.fld (Reg.LG_TOL p) 0 17)) 0
  if (s.swState = 1 ∨ s.swState = 2) ∧ s.leadAt c ∧ s.sw.leftAt ≤ c ∧ s.sw.judged < c ∧ d.cPhase ≤ c ∧
      (c - d.cPhase) % d.cPeriod = 0 ∧ c + tol ≤ s.now then
    let s := s.swSet (fun w => { w with judged := c })
    let s := s.lgSet (fun l => { l with duals := l.duals.filter (fun x => decide (c < x.1)) })
    match mine with
    | some (_, _, true) => s.swSet (fun w => { w with missed := 0 })
    | _ => s.raise 0x10 0x02 0xFFFF none c
  else s

/-! ### Die-to-die links (R31 to R35) -/

/-- BARNASTAN_FLIT_RECEIVE (R33, R34): a flit that fails CRC `k` times, at most 8, before a replay passes. -/
def Side.flitReceive (s : Side) (n k : Nat) : Side :=
  if s.part.hasLink n && s.flag Reg.BN_STATE n && decide (k ≤ 8) then
    (s.count (Reg.BN_ERR n) 0 32 k).count (Reg.BN_ERR n) 32 16 k
  else s

/-- Whether the side runs alone and has not merged the peer's halves again since (R45). -/
def Side.isAlone (s : Side) : Bool :=
  s.pt.alone.isSome && (match s.pt.join with | some j => decide (s.now < j) | none => true)

/-- The side's end of a link goes down (R33): of a link inside the side, when it did; on the cross link it goes on alone from the next frame boundary, or goes on being alone
where it has not merged again since the last loss (R45). -/
def Side.linkEndDown (s : Side) (n : Nat) : Side :=
  let s := (s.put Reg.BN_STATE n 1 0).raise 0x08 0x02 0xFFFF none n
  if n = 3 then
    let s := s.swSet (fun w => { w with joinRun := none })
    { s with pt := { s.pt with alone := if s.isAlone then s.pt.alone else some (s.boundaryFrom (s.now + 1)), join := none } }
  else s.swSet (fun w => { w with fell := alSet w.fell n s.now })

/-- The counts of the flit whose 8 replays failed (R33, R34). -/
def Side.linkCounts (s : Side) (n : Nat) : Side :=
  ((s.count (Reg.BN_ERR n) 0 32 9).count (Reg.BN_ERR n) 32 16 8).count (Reg.BN_ERR n) 48 16

/-- The messages of a direction of the cross link when it goes down: those named by index had begun and are delivered, the
bytes after the first `got` poisoned; the others are discarded (R33). -/
def Side.cutMessages (s : Side) (begun : List (Nat × Nat)) : Side :=
  { s with xout := ((upTo s.xout.length).map (fun i =>
      match begun.find? (fun b => b.1 == i), s.xout[i]? with
      | some (_, got), some m => [{ m with bad := m.bad.filter (fun x => decide (x < got)) ++ ((upTo m.bytes.length).filter (fun x => decide (got ≤ x))) }]
      | _, _ => [])).flatten }

/-- A link has trained (R35); after a loss of the cross link the heartbeats of R45 are counted. The first merge with the peer after a
reset, when the cross link has trained for the first time, waits for none (DESIGN CHOICE, log entry 97). -/
def Side.linkEndUp (s : Side) (n : Nat) : Side :=
  let s := s.put Reg.BN_STATE n 1 1
  if n = 3 ∧ s.pt.alone.isSome ∧ s.pt.join.isNone then s.swSet (fun w => { w with joinRun := some 0 }) else s

end Sys2Proof.Machine
end

