-- ==== Sys2Proof/Machine/Power.lean ====
section
/-!
DEFINITION. Machine/Power.lean: the power manager (R706 to R723): modes, the change of mode at its effect boundary, the
Canter credits, the thermal ceiling, and the stacks' change of pin rate (R441).
-/
namespace Sys2Proof.Machine

/-- The Draft engines that a mode powers (R707, R708). -/
def Part.modeEngines (p : Part) (mode : Nat) : List Nat :=
  if mode = 0 then (match p with | .cjm7480 => [0, 6, 12, 18] | .cjm7460 => [0, 6] | .cjm7420 => [0, 1])
  else if mode = 1 then (match p with
    | .cjm7480 => [0, 1, 2, 6, 7, 8, 12, 13, 14, 18, 19, 20]
    | .cjm7460 => [0, 1, 2, 6, 7, 8]
    | .cjm7420 => [0, 1, 2])
  else upTo p.engines

/-- The Draft engines and Stalls that a mode powers (R707). -/
def Part.modeUnits (p : Part) (mode : Nat) : List (Nat × Nat) :=
  (p.modeEngines mode).map (fun e => (0x0E, e)) ++ (if mode = 0 then [] else (upTo p.stalls).map (fun i => (0x0F, i)))

/-- The pin rate of a mode (R455, R707), in 0.1 Gb/s. -/
def pinRate (mode : Nat) : Nat := if mode ≤ 1 then 0x30 else if mode = 2 then 0x40 else 0x50

/-- Groom clock of a mode in cycles of one 100 MHz reference cycle (R36, R707). -/
def groomCycles (mode : Nat) : Nat := if mode ≤ 1 then 10 else if mode = 2 then 12 else 16

/-- The power manager's part of a side updated. -/
def Side.pwSet (s : Side) (f : Power → Power) : Side := { s with power := f s.power }

/-- The target mode (R713). -/
def Side.modeTarget (s : Side) : Nat := min (s.fld Reg.PW_REQ 0 2) (s.fld Reg.PW_STATE 5 2)

/-- PW_STATE.CHANGING clears once every action of R714 is done. -/
def Side.modeSettle (s : Side) : Side :=
  let p := s.power
  if p.leaving.isEmpty && p.gaining.isEmpty && p.rateQ.isEmpty && p.clock == s.mode then s.put Reg.PW_STATE 8 1 0 else s

/-- R714, R715: the pending change takes effect. -/
def Side.modeEffect (s : Side) : Side :=
  let old := s.mode
  let new := s.fld Reg.PW_STATE 2 2
  let at' := (s.rd Reg.PW_EFFECT).toNat
  let s := (((s.put Reg.PW_STATE 0 2 new).put Reg.PW_STATE 4 1 0).put Reg.PW_STATE 8 1 1).count Reg.PW_CNT 48 16
  let want := (s.part.modeUnits new).filter (fun u => !(s.withdrawn u.1 u.2))
  let have' := (s.part.modeUnits 3).filter (fun u => s.powered u.1 u.2)
  let s := s.pwSet (fun p => { p with
    lastAt := at'
    leaving := have'.filter (fun u => !(want.contains u))
    gaining := want.filter (fun u => !(have'.contains u))
    rateQ := if pinRate old = pinRate new then p.rateQ else upTo s.part.stacks
    credits := if new = 2 ∧ old ≠ 2 then List.replicate s.part.engines 800000 else p.credits })
  s.modeSettle

/-- R713: the target may have changed at a Datum time `t`: a change is scheduled, retargeted or cancelled. A change at its effect boundary or
later comes after it. -/
def Side.retarget (s : Side) (t : Nat) : Side :=
  let s := if s.flag Reg.PW_STATE 4 ∧ (s.rd Reg.PW_EFFECT).toNat ≤ t then s.modeEffect else s
  let tgt := s.modeTarget
  let s := s.put Reg.PW_STATE 2 2 tgt
  if s.flag Reg.PW_STATE 4 then
    if tgt = s.mode then (s.put Reg.PW_STATE 4 1 0).wr Reg.PW_EFFECT (BitVec.ofNat 64 s.power.lastAt) else s
  else if tgt = s.mode then s
  else (s.put Reg.PW_STATE 4 1 1).wr Reg.PW_EFFECT (BitVec.ofNat 64 (s.boundaryFrom (t + s.framePeriod)))

/-- PW_REQ_WRITE (R713, R723): at Groom level 1 or 2. -/
def Side.pwReq (s : Side) (level : Nat) (v : Word) : Side :=
  if level = 0 then s else (s.put Reg.PW_REQ 0 2 (v.fld 0 2)).retarget s.now

/-- A write to PW_THERM (R722, R723). -/
def Side.pwTherm (s : Side) (level : Nat) (v : Word) : Side :=
  if level = 0 then s
  else if 40 ≤ v.fld 16 8 ∧ v.fld 16 8 ≤ 75 ∧ 80 ≤ v.fld 8 8 ∧ v.fld 8 8 ≤ 100 ∧ 90 ≤ v.fld 0 8 ∧ v.fld 0 8 ≤ 120 then
    s.put Reg.PW_THERM 0 24 (v.fld 0 24)
  else s.put Reg.PW_STATE 9 1 1

/-- Whether an admitted command waits for or runs on an instance (R714). -/
def Side.named (s : Side) (unit inst : Nat) : Bool :=
  s.ops.any (fun o => o.unit == unit && (match o.run with
    | some (i, _) => i == inst
    | none => o.f 4 0 16 == inst))

/-- ENGINE_POWER_OFF (R714): once every command admitted for the instance has completed. -/
def Side.enginePowerOff (s : Side) (unit inst : Nat) : Side :=
  if s.power.leaving.contains (unit, inst) && !(s.named unit inst) && s.idle unit inst then
    let s := (s.powerOff unit inst).swSet (fun w => { w with trots := w.trots.filter (fun t => !(t.unit == unit && t.inst == inst)) })
    let s : Side := { s with unver := s.unver.filter (fun u => u != (unit, inst)) }
    (s.pwSet (fun p => { p with leaving := p.leaving.filter (fun u => u != (unit, inst)) })).modeSettle
  else s

/-- A Trot-up unit that has run nothing yet, with the Trot-up of a frame pending. -/
def TrotUnit.fresh (unit inst frame : Nat) (owes : Bool) : TrotUnit :=
  { unit := unit, inst := inst, want := some frame, rerun := none, run := none, first := [], undecided := [], late := none,
    firstOk := false, owes := owes, lastPass := 0, pattern := (0, 0), next := none }

/-- ENGINE_POWER_ON (R714, R640): the instance is powered; where Trot-ups run, it owes one before its first command. -/
def Side.enginePowerOn (s : Side) (unit inst : Nat) : Side :=
  if s.power.gaining.contains (unit, inst) then
    let s := s.put Reg.PW_ENG (if unit = 0x0E then inst else 24 + inst) 1 1
    let s := if s.sw.first.isSome then
        s.swSet (fun w => { w with trots := w.trots.filter (fun t => !(t.unit == unit && t.inst == inst)) ++
          [TrotUnit.fresh unit inst (s.rd Reg.SW_FRAME).toNat true] })
      else s
    (s.pwSet (fun p => { p with gaining := p.gaining.filter (fun u => u != (unit, inst)) })).modeSettle
  else s

/-- GROOM_CLOCK_CHANGE (R714): no architectural state of a Groom changes. -/
def Side.groomClock (s : Side) : Side := (s.pwSet (fun p => { p with clock := s.mode })).modeSettle

/-- STACK_RATE_CHANGE (R441): the next stack in order pauses, and then goes on at the pin rate of the mode; before its training it
has no rate to change (R455). -/
def Side.stackRate (s : Side) (stack : Nat) : Side :=
  match s.power.rateQ with
  | [] => s
  | k :: rest =>
      if k ≠ stack then s
      else if s.flag (Reg.NT_STATE k) 0 = false then (s.pwSet (fun p => { p with rateQ := rest })).modeSettle
      else if s.flag (Reg.NT_STATE k) 1 then
        ((((s.put (Reg.NT_STATE k) 1 1 0).put (Reg.NT_STATE k) 8 8 (pinRate s.mode)).pwSet (fun p => { p with rateQ := rest }))).modeSettle
      else s.put (Reg.NT_STATE k) 1 1 1

/-- The greatest of temperatures, `d` for none. -/
def hottest (d : Int) : List Int → Int
  | [] => d
  | t :: r => r.foldl max t

/-- THERMAL_SAMPLE (R716, R717): at each multiple of 1,000,000 ns, the dies' readings, each stack's, the far-tier devices',
and the inlet's. -/
def Side.thermalSample (s : Side) (dies stackTemps far : List Int) (inlet : Int) : Side :=
  let due := s.now / 1000000 * 1000000
  if due ≤ s.power.lastSample then s
  else
    let s := s.pwSet (fun p => { p with lastSample := due })
    let die := hottest 0 dies
    let temps := (upTo s.part.stacks).map (fun k => stackTemps.getD k 0)
    let stack := hottest 0 (if s.part.farGB = 0 then temps else hottest 0 far :: temps)
    let s := (upTo s.part.stacks).foldl (fun s k =>
      if s.flag (Reg.NT_STATE k) 0 then s.put (Reg.NT_STATE k) 24 8 (unsigned 8 (temps.getD k 0)) else s) s
    let s := if s.part.farGB ≠ 0 ∧ s.flag Reg.FT_STATE 0 then s.put Reg.FT_STATE 8 8 (unsigned 8 (hottest 0 far)) else s
    let s := ((s.put Reg.PW_THERM 40 8 (unsigned 8 die)).put Reg.PW_THERM 48 8 (unsigned 8 stack)).put Reg.PW_THERM 56 8 (unsigned 8 inlet)
    let wd : Int := s.fld Reg.PW_THERM 0 8
    let ws : Int := s.fld Reg.PW_THERM 8 8
    let wi : Int := s.fld Reg.PW_THERM 16 8
    let hot := decide (wd ≤ die) || decide (ws ≤ stack) || decide (wi ≤ inlet)
    let cool := decide (die ≤ wd - 10) && decide (stack ≤ ws - 10) && decide (inlet ≤ wi - 10)
    let c := s.fld Reg.PW_STATE 5 2
    let s :=
      if hot ∧ 0 < c ∧ s.power.lastFall.all (fun t => decide (t + 1000000000 ≤ due)) = true then
        ((((s.put Reg.PW_STATE 5 2 (c - 1)).put Reg.PW_STATE 7 1 1).count Reg.PW_CNT 32 16).pwSet (fun p => { p with lastFall := some due })).retarget due
      else s
    let since := if cool then some (s.power.coolSince.getD due) else none
    let s := s.pwSet (fun p => { p with coolSince := since })
    if since.any (fun t => decide (t + 1000000000 ≤ due)) ∧ s.fld Reg.PW_STATE 5 2 < 3 ∧
        s.power.lastRise.all (fun t => decide (t + 1000000000 ≤ due)) = true then
      let c := s.fld Reg.PW_STATE 5 2 + 1
      let s := (s.put Reg.PW_STATE 5 2 c).pwSet (fun p => { p with lastRise := some due })
      (if c = 3 then s.put Reg.PW_STATE 7 1 0 else s).retarget due
    else s

/-! ### Canter credits (R712) -/

/-- The credit of an engine. -/
def Side.credit (s : Side) (e : Nat) : Int := s.power.credits.getD e 800000

/-- R712: one step of `ns` ns of the credits: +3 a ns, -4 a ns while the engine runs a command or a Trot-up. -/
def Side.creditStep (s : Side) (ns : Nat) : Side :=
  if s.mode ≠ 2 then s
  else s.pwSet (fun p => { p with credits := (upTo s.part.engines).map (fun e =>
    let c := s.credit e + 3 * ns - (if s.powered 0x0E e && !(s.idle 0x0E e) then 4 * (ns : Int) else 0)
    max (-800000) (min 800000 c)) })

end Sys2Proof.Machine
end

