-- ==== Sys2Proof/Machine/Trot.lean ====
section
/-!
DEFINITION. Machine/Trot.lean: the frame boundary (R39), Trot-ups (R636 to R641), their pattern packs (R658 to R663), and the
end of START (R623).
-/
namespace Sys2Proof.Machine

/-! ### Pattern packs (R658 to R663) -/

/-- The class of a Trot-up unit in a pack (R658). -/
def trotClass (unit : Nat) : Nat :=
  match unit with
  | 0x0E => 0
  | 0x0F => 1
  | 0x0A => 2
  | 0x08 => 3
  | _ => 4

/-- The classes present on a side (R659). -/
def Side.packClasses (s : Side) : List Nat := if s.part.stalls = 0 then [0, 2, 3, 4] else [0, 1, 2, 3, 4]

/-- BASE of a pack slot. -/
def Side.packBase (s : Side) (a : Nat) : Nat := s.fld (Reg.TP_BASE a) 12 52 * 4096 % 2 ^ 46

/-- Whether a slot may be adopted: VERIFIED and not BAD. -/
def Side.packGood (s : Side) (a : Nat) : Bool := s.flag (Reg.TP_BASE a) 0 && !(s.flag (Reg.TP_BASE a) 1)

/-- The version of the pack in use or chosen; 0 is the built-in pack (R661). -/
def Side.packVersion (s : Side) (p : Option Nat) : Nat := match p with | none => 0 | some a => s.fld (Reg.TP_VER a) 0 32

/-- The patterns that a pack has for a unit (R636, R661). -/
def Side.packPatterns (s : Side) (p : Option Nat) (unit : Nat) : Nat :=
  match p with
  | none => 4
  | some a => max 1 (s.num (s.packBase a + 8 + trotClass unit) 1)

/-- R659: whether the pack of a slot is well formed. The slot's extent is the content that the Keeper verified (R690). -/
def Side.packOk (s : Side) (a : Nat) : Bool :=
  let b := s.packBase a
  let hd := s.num b 64
  let len := sfld hd 4 0 32
  let room := (s.kp.images.find? (fun i => i.target == 9 + a)).elim 0 KImage.length
  let npat (c : Nat) : Nat := sfld hd (8 + c) 0 8
  let nent := sfld hd 16 0 16
  let cs := s.packClasses
  let ents := (upTo nent).map (fun i => s.num (b + 64 + 32 * i) 32)
  let mine := ents.filter (fun e => cs.contains (sfld e 0 0 3))
  let keys := mine.map (fun e => (sfld e 0 0 3, sfld e 1 0 8))
  !(anySet hd [byteRange 13 15, byteRange 18 63]) && decide (64 + 32 * nent ≤ len) && decide (len ≤ room) &&
    nent == (cs.map npat).foldl (fun x y => x + y) 0 &&
    cs.all (fun c => decide (1 ≤ npat c) && decide (npat c ≤ 64)) &&
    ents.all (fun e => !(anySet e [(0, 3, 5), byteRange 2 3, byteRange 12 15, byteRange 24 31])) &&
    cs.all (fun c => (upTo (npat c)).all (fun i => (keys.filter (fun k => k == (c, i))).length == 1)) &&
    mine.all (fun e => decide (1 ≤ sfld e 8 0 32) && decide (sfld e 8 0 32 ≤ 32768) && decide (sfld e 4 0 32 + sfld e 8 0 32 ≤ len))

/-- A pack slot has been VERIFIED: its structure is checked (R659) and its version shown; LENGTH bytes of it are protected
(R660). -/
def Side.packVerified (s : Side) (a : Nat) : Side :=
  let s := s.swSet (fun w => { w with stale := w.stale.filter (fun x => x != a) })
  let s := s.put (Reg.TP_VER a) 0 32 (s.num (s.packBase a) 4)
  let len := s.num (s.packBase a + 4) 4
  let s := if s.guards.any (fun g => g.key == 0x1409 + a && decide (g.hi < s.packBase a + len)) then
      s.addGuard ⟨0x1409 + a, s.packBase a - 512, s.packBase a + len, 0x14, false, none⟩ else s
  if s.packOk a then s else (s.put (Reg.TP_BASE a) 1 1 1).count Reg.TP_CNT 16 16

/-- The newest pack that may be adopted, where its version is above the one in use (R661). -/
def Side.newestPack (s : Side) : Option Nat :=
  let ok := (upTo 2).filter (fun a => s.packGood a && decide (s.packVersion s.sw.pack < s.packVersion (some a)))
  match ok with
  | [] => none
  | [a] => some a
  | a :: b :: _ => if s.packVersion (some a) < s.packVersion (some b) then some b else some a

/-- Whether a slot holds the pack in use, or the one chosen for the next frame (R663). -/
def Side.packUsed (s : Side) (a : Nat) : Bool := s.sw.pack == some a || s.sw.nextPack == some a

/-- TP_BASE_WRITE (R663, R664). -/
def Side.tpBase (s : Side) (level a : Nat) (v : Word) : Side :=
  if level < 2 ∨ s.packUsed a then s.put Reg.TP_CNT 0 1 1
  else
    let s := (s.wr (Reg.TP_BASE a) 0).put (Reg.TP_BASE a) 12 52 (v.fld 12 52)
    (s.swSet (fun w => { w with stale := w.stale.filter (fun x => x != a) })).dropGuard (0x1400 + 9 + a)

/-- R661 at a frame boundary: the pack chosen one frame before comes into use, and the next one is chosen. -/
def Side.packStep (s : Side) : Side :=
  let s := match s.sw.nextPack with
    | some a =>
        if s.sw.pack = some a then s
        else (((s.swSet (fun w => { w with pack := some a })).put Reg.SW_TROT 32 32 (s.packVersion (some a))).count Reg.TP_CNT 48 16)
    | none => s
  match s.newestPack with
  | some a => s.swSet (fun w => { w with nextPack := some a })
  | none =>
      (upTo 2).foldl (fun s a =>
        if s.packGood a ∧ s.packUsed a = false ∧ s.sw.stale.contains a = false then
          (s.swSet (fun w => { w with stale := a :: w.stale })).count Reg.TP_CNT 32 16
        else s) s

/-- TROT_PACK_FETCH (R662): a unit fetches the input of its pattern of the next frame from the chosen pack. -/
def Side.packFetch (s : Side) (unit inst : Nat) : Side :=
  let p := match s.sw.nextPack with | some a => some a | none => s.sw.pack
  let m := (s.rd Reg.SW_FRAME).toNat + 1
  s.onTrot unit inst (fun t => { t with next := some (s.packVersion p, m % s.packPatterns p unit) })

/-! ### Units and frames -/

/-- The Trot-up units (R636). -/
def Side.trotUnits (s : Side) : List (Nat × Nat) :=
  ((s.part.modeUnits 3).filter (fun (u : Nat × Nat) => s.powered u.1 u.2) ++
    (if s.fld Reg.TV_CHAIN 0 13 = 0 then [] else [(0x0A, 0)]) ++ [(0x08, 0), (0x0B, 0)]).filter (fun (u : Nat × Nat) => !(s.withdrawn u.1 u.2))

/-- A unit at a frame boundary (R638, R640): what has not passed is undecided, and the next Trot-up becomes pending. -/
def TrotUnit.atBoundary (t : TrotUnit) (n : Nat) (pattern : Nat × Nat) : TrotUnit :=
  if t.want.isSome || t.rerun.isSome || t.run.isSome then
    { t with
      want := some n
      undecided := (n - 1) :: t.undecided.take 1
      late := some (n - 1, if t.rerun.isSome || t.run.isSome then t.pattern else pattern) }
  else { t with want := some n, undecided := [] }

/-- FRAME_BOUNDARY (R39): the latest frame boundary due: RERUNS returns to 0, the camera triggers take their driving slots (R223), a mode
takes effect, a control period comes into force, packs step, and Trot-ups become pending. -/
def Side.frameBoundary (s : Side) : Side :=
  let n := s.frameOf s.now
  let t := s.framePhase + n * s.framePeriod
  if s.now < t ∨ s.sw.bound.any (fun b => decide (t ≤ b)) = true then s
  else
    let s := s.swSet (fun w => { w with bound := some t })
    let s := (s.wr Reg.SW_FRAME (BitVec.ofNat 64 n)).put Reg.SW_STATE 8 8 0
    let s := s.dt (fun d => { d with cPhase := s.fld Reg.DT_CPER 32 32, cPeriod := s.fld Reg.DT_CPER 0 32 })
    let s := s.triggerBoundary
    let s := if s.flag Reg.PW_STATE 4 ∧ (s.rd Reg.PW_EFFECT).toNat ≤ t then s.modeEffect else s
    if s.sw.armed = false ∨ s.stewardOn = false then s
    else
      let was (u : Nat) : Nat × Nat := (s.packVersion s.sw.pack, (n - 1) % s.packPatterns s.sw.pack u)
      let s := s.packStep
      let units := s.trotUnits
      let kept := (s.sw.trots.filter (fun u => units.contains (u.unit, u.inst))).map (fun u => u.atBoundary n (was u.unit))
      let news := (units.filter (fun (u : Nat × Nat) => !(kept.any (fun k => k.unit == u.1 && k.inst == u.2)))).map
        (fun (u : Nat × Nat) => TrotUnit.fresh u.1 u.2 n false)
      let s := s.swSet (fun w => { w with trots := kept ++ news, first := some (w.first.getD n) })
      let late := (kept.filter (fun k => k.late.isSome)).map (fun k => (k.unit, k.inst))
      { s with unver := (s.unver.filter (fun u => units.contains u && !(late.contains u))) ++ late }

/-- TROT_UP_UNDECIDED (R640): event 0x04, and withdrawal after two frames. -/
def Side.trotUndecided (s : Side) (unit inst : Nat) : Side :=
  match s.trot unit inst with
  | none => s
  | some t =>
      match t.late with
      | none => s
      | some (f, pat) =>
          let s := (s.raise 0x04 unit inst none f 0 (some pat)).onTrot unit inst (fun t => { t with late := none })
          if t.undecided.length < 2 then s
          else if unit = 0x0A then
            ((s.withdrawChainmen (upTo 4096) true (some pat)).1).swSet (fun w => { w with
              trots := w.trots.filter (fun t => !(t.unit == unit && t.inst == inst)) })
          else (s.withdraw unit inst (some pat)).1

/-- Whether a command of class 0 that targets an instance is ready (R638). -/
def Side.classZeroReady (s : Side) (unit inst : Nat) : Bool :=
  s.ops.any (fun o => o.cls == 0 && o.unit == unit && s.ready o &&
    (if unit = 0x0E ∨ unit = 0x0F then o.f 4 0 16 == inst || o.f 4 0 16 == 0xFFFF else true))

/-- The next control boundary at or after now (R189, R639). -/
def Side.nextControl (s : Side) : Nat :=
  let d := s.datum
  if s.now ≤ d.cPhase then d.cPhase else d.cPhase + ceilDiv (s.now - d.cPhase) d.cPeriod * d.cPeriod

/-- Whether a Trot-up of a unit may start now (R636, R638, R639). -/
def Side.trotMayStart (s : Side) (t : TrotUnit) : Bool :=
  (t.want.isSome || t.rerun.isSome) && s.idle t.unit t.inst && s.powered t.unit t.inst && !(s.withdrawn t.unit t.inst) &&
    (t.rerun.isSome || t.owes || !(s.classZeroReady t.unit t.inst)) &&
    (t.unit != 0x0B || decide (s.now + 5000 ≤ s.nextControl))

/-- TROT_UP_START (R636 to R639): the re-run that is due, else the pending Trot-up. -/
def Side.trotStart (s : Side) (unit inst : Nat) : Side :=
  match s.trot unit inst with
  | none => s
  | some t =>
      if s.trotMayStart t then
        match t.rerun, t.want with
        | some f, _ => s.onTrot unit inst (fun t => { t with rerun := none, run := some (f, s.now, true) })
        | none, some f =>
            s.onTrot unit inst (fun t => { t with
              want := none
              run := some (f, s.now, false)
              pattern := t.next.getD (s.packVersion s.sw.pack, f % s.packPatterns s.sw.pack unit)
              next := none })
        | none, none => s
      else s

/-- R636: a fault whose re-run passed is transient; its event carries TRANSIENT while it still waits. -/
def Side.markTransient (s : Side) (unit inst : Nat) : Side :=
  { s with events := s.events.map (fun e =>
      if e.code == 0x03 && e.unit == unit && e.inst == inst then { e with flags := Nat.lor e.flags 1 } else e) }

/-- A Trot-up passed (R636, R640). -/
def Side.trotPass (s : Side) (unit inst frame : Nat) (rerun : Bool) : Side :=
  let s := s.onTrot unit inst (fun t => { t with
    run := none
    first := []
    owes := false
    lastPass := s.now
    undecided := t.undecided.filter (fun f => f != frame)
    firstOk := t.firstOk || s.sw.first == some frame })
  let s : Side := { s with unver := s.unver.filter (fun u => u != (unit, inst)) }
  if rerun then
    let s := (s.markTransient unit inst).count Reg.SW_CNT 32 16
    if unit = 0x0E ∨ unit = 0x0F then (s.countFault unit inst s.now false).1 else s
  else s

/-- TROT_UP_RESULT (R636): the XOR of expected and observed signatures, and of the Chainmen those whose result differs. -/
def Side.trotResult (s : Side) (unit inst diff : Nat) (bad : List Nat) : Side :=
  match s.trot unit inst with
  | none => s
  | some t =>
      match t.run with
      | none => s
      | some (frame, _, rerun) =>
          let bad := bad.filter (fun c => decide (c < 4096) && !(s.sw.chain.contains c))
          let ok := if unit = 0x0A then bad.isEmpty else diff == 0
          let diff := diff % 2 ^ 64
          if ok then s.trotPass unit inst frame rerun
          else if rerun = false then
            (s.raise 0x03 unit inst none diff 0 (some t.pattern)).onTrot unit inst (fun t => { t with
              run := none, rerun := some frame, first := bad })
          else
            let s := s.onTrot unit inst (fun t => { t with run := none, first := [] })
            let (s, fl) := if unit = 0x0A then s.withdrawChainmen (t.first ++ bad) false (some t.pattern)
              else s.withdraw unit inst (some t.pattern)
            let s := s.raise 0x03 unit inst none diff (2 + fl) (some t.pattern)
            let s := s.onTrot unit inst (fun t => { t with
              owes := false
              undecided := t.undecided.filter (fun f => f != frame)
              firstOk := t.firstOk || s.sw.first == some frame })
            s.withdrawEffect unit inst

/-- SIDE_LEAVE_START (R623, R647). -/
def Side.leaveStart (s : Side) : Side :=
  let decided := s.trotUnits.all (fun u => match s.trot u.1 u.2 with | some t => t.firstOk | none => false)
  if s.stewardOn ∧ s.swState = 0 ∧ s.sw.first.isSome ∧ decided ∧ s.peer ≠ 0 then
    let lost := (s.rd Reg.SW_WDRAW).toNat != 0 || !s.sw.chain.isEmpty
    let s := (s.setState (if lost then 2 else 1)).swSet (fun w => { w with leftAt := s.now })
    if s.id = 1 ∨ (s.peer = 1 ∧ s.flag Reg.SW_STATE 4) then s.setLead false else s
  else s

end Sys2Proof.Machine
end

