-- ==== Sys2Proof/Machine/Keeper.lean ====
section
/-!
DEFINITION. Machine/Keeper.lean: the Keeper (R652 to R657, R677 to R705): fault-signature records, verification of images,
anti-rollback, quotes, the owner key, debug tokens, the Hobble fuse, MACsec keys and the TAP.
-/
namespace Sys2Proof.Machine

/-- The Keeper's part of a side updated. -/
def Side.kpSet (s : Side) (f : Keeper → Keeper) : Side := { s with kp := f s.kp }

/-- KP_STATE.CFG_ERR. -/
def Side.kpErr (s : Side) : Side := s.put Reg.KP_STATE 5 1 1

/-- Whether Keeper firmware runs (R686, R688). -/
def Side.keeperOn (s : Side) : Bool := s.phase == .boot || s.phase == .up || s.phase == .nofw

/-! ### Deterministic CBOR (R653; RFC 8949 4.2.1) -/

/-- The head of an item: its major type and argument. -/
def cborHead (major n : Nat) : List Byte :=
  let m := major * 32
  if n < 24 then [BitVec.ofNat 8 (m + n)]
  else if n < 2 ^ 8 then BitVec.ofNat 8 (m + 24) :: toBytesBE 1 n
  else if n < 2 ^ 16 then BitVec.ofNat 8 (m + 25) :: toBytesBE 2 n
  else if n < 2 ^ 32 then BitVec.ofNat 8 (m + 26) :: toBytesBE 4 n
  else BitVec.ofNat 8 (m + 27) :: toBytesBE 8 n

/-- An unsigned integer. -/
def cborUint (n : Nat) : List Byte := cborHead 0 n

/-- An integer. -/
def cborInt (i : Int) : List Byte := if 0 ≤ i then cborHead 0 i.toNat else cborHead 1 (-1 - i).toNat

/-- A byte string. -/
def cborBytes (bs : List Byte) : List Byte := cborHead 2 bs.length ++ bs

/-- An array of encoded items. -/
def cborArray (l : List (List Byte)) : List Byte := cborHead 4 l.length ++ l.flatten

/-- A map of unsigned keys in ascending order and encoded values. -/
def cborMap (l : List (Nat × List Byte)) : List Byte :=
  cborHead 5 l.length ++ (l.map (fun e => cborUint e.1 ++ e.2)).flatten

/-- A boolean. -/
def cborBool (b : Bool) : List Byte := [if b then 0xF5 else 0xF4]

/-- The FP16 code of an FP32 code that FP16 holds exactly. -/
def halfOf (c : Nat) : Option Nat :=
  let sgn := bits c 31 1 * 2 ^ 15
  let e := bits c 23 8
  let m := bits c 0 23
  if e = 0 then (if m = 0 then some sgn else none)
  else if e = 255 then (if m % 2 ^ 13 = 0 then some (sgn + 31 * 2 ^ 10 + m / 2 ^ 13) else none)
  else if 113 ≤ e ∧ e ≤ 142 then (if m % 2 ^ 13 = 0 then some (sgn + (e - 112) * 2 ^ 10 + m / 2 ^ 13) else none)
  else if 103 ≤ e ∧ e < 113 then
    (if (2 ^ 23 + m) % 2 ^ (126 - e) = 0 then some (sgn + (2 ^ 23 + m) / 2 ^ (126 - e)) else none)
  else none

/-- A float from its FP32 code, in the shortest form that holds it. -/
def cborFloat (c : Nat) : List Byte :=
  match halfOf c with
  | some h => 0xF9 :: toBytesBE 2 h
  | none => 0xFA :: toBytesBE 4 c

/-! ### Fault-signature records (R652 to R657, R664) -/

/-- The firmware measurement of the side (R687). -/
def Side.fwMeasure (s : Side) : List Byte := shake256 ((s.kp.fw.map (fun i => toBytes 64 i.digest)).flatten) 64

/-- The fused device identifier. -/
def Side.deviceId (s : Side) : List Byte := toBytes 8 (s.rd (Reg.KP_DEVICE 0)).toNat ++ toBytes 8 (s.rd (Reg.KP_DEVICE 1)).toNat

/-- A signed record (R653): the inner map as a byte string, and its signature. -/
def Side.signedBytes (s : Side) (quote : Bool) (inner : List Byte) : List Byte :=
  cborMap [(1, cborBytes inner), (2, cborBytes (toBytes 114 (Config.sign s.id quote inner)))]

/-- The inner map of a fault-signature record (R654): the temperatures of die, stack and far tier, and the voltages in mV, that
the monitors sampled last. -/
def Side.fsInner (s : Side) (f : FsEvent) (die stack far : Int) (v48 core io : Nat) : List Byte :=
  let e := f.ev
  let opt (c : Bool) (k : Nat) (b : List Byte) : List (Nat × List Byte) := if c then [(k, b)] else []
  cborMap ([(0, cborUint 1), (1, cborBytes s.deviceId), (2, cborBytes s.fwMeasure), (3, cborUint s.id), (4, cborUint e.unit),
      (5, cborUint e.inst), (6, cborUint e.code), (7, cborUint e.time)] ++
    (match e.pattern with | some (v, i) => [(8, cborArray [cborUint v, cborUint i])] | none => []) ++
    opt (e.code == 0x01) 9 (cborArray [cborFloat (e.detail % 2 ^ 32), cborFloat (e.detail / 2 ^ 32)]) ++
    opt (e.code == 0x03) 9 (cborUint e.detail) ++
    [(10, cborArray [cborInt die, cborInt stack, if s.part.farGB = 0 then [0xF6] else cborInt far]),
     (11, cborArray [cborUint v48, cborUint core, cborUint io]), (12, cborUint f.mode)] ++
    (match e.cmd with | some (c, q) => [(13, cborUint c), (14, cborUint q)] | none => []) ++
    [(15, cborUint e.detail), (16, cborUint (s.rd Reg.FS_SEQ).toNat), (17, cborUint s.kp.fsLost), (18, cborUint f.state),
     (19, cborUint (e.flags % 16))])

/-- FS_RECORD_WRITE (R655, R656): the oldest queued event becomes a record in its slot. -/
def Side.fsWrite (s : Side) (die stack far : Int) (v48 core io : Nat) : Side :=
  match s.kp.fsq with
  | [] => s
  | f :: rest =>
      if s.keeperOn = false then s
      else
        let body := (s.signedBytes false (s.fsInner f die stack far v48 core io)).take 496
        let seq := (s.rd Reg.FS_SEQ).toNat
        let n := 16 * 2 ^ s.fld Reg.FS_CFG 0 4
        let bs := toBytes 8 seq ++ toBytes 2 body.length ++ toBytes 6 0 ++ body ++ List.replicate (496 - body.length) 0
        let s := s.ringEntry 0 (s.fld Reg.FS_BASE 9 55 * 512 + seq % n * 512) bs
        ((s.kpSet (fun k => { k with fsq := rest, fsLost := 0 })).wr Reg.FS_SEQ (BitVec.ofNat 64 (seq + 1))).count Reg.FS_CNT 32 16

/-- A write to FS_CFG (R664). -/
def Side.fsCfg (s : Side) (level : Nat) (v : Word) : Side :=
  let s := if v.flag 5 then s.put Reg.FS_CFG 5 1 0 else s
  if level < 2 ∨ 8 < v.fld 0 4 ∨ (s.flag Reg.FS_CFG 4 ∧ v.fld 0 4 ≠ s.fld Reg.FS_CFG 0 4) then s.put Reg.FS_CFG 5 1 1
  else (s.put Reg.FS_CFG 0 4 (v.fld 0 4)).put Reg.FS_CFG 4 1 (v.fld 4 1)

/-- A write to FS_BASE or FS_MASK (R664). -/
def Side.fsReg (s : Side) (level k : Nat) (v : Word) : Side :=
  if level < 2 ∨ (k = Reg.FS_BASE ∧ s.flag Reg.FS_CFG 4) then s.put Reg.FS_CFG 5 1 1 else s.wr k v

/-! ### Images (R681 to R684, R690 to R694) -/

/-- The register of a target, and the kind its image must have (R683, R690). -/
def targetOf (t : Nat) : Option (Nat × Nat) :=
  if t = 0 then some (Reg.TV_RMAP, 0x05)
  else if t ≤ 8 then some (Reg.BR_IMG (t - 1), 0x06)
  else if t = 9 ∨ t = 10 then some (Reg.TP_BASE (t - 9), 0x07)
  else if 0x10 ≤ t ∧ t ≤ 0x1F then some (Reg.KP_GRAPH (t - 0x10), 0x04)
  else none

/-- A field of a 512 B seal held as a number (R681). -/
def sealLength (v : Nat) : Nat := sfld v 16 0 64
@[inherit_doc sealLength] def sealSvn (v : Nat) : Nat := sfld v 4 0 32
@[inherit_doc sealLength] def sealVersion (v : Nat) : Nat := sfld v 8 0 32
@[inherit_doc sealLength] def sealKind (v : Nat) : Nat := sfld v 2 0 8

/-- R684 check 1 but for the place of seal and content. -/
def sealBad (v : Nat) : Bool :=
  sfld v 0 0 16 != 1 || anySet v [byteRange 12 15, byteRange 48 255, byteRange 370 511] || sealLength v == 0 || decide (63 < sealSvn v)

/-- The signers accepted for a kind (R683). -/
def signerOk (kind signer : Nat) : Bool :=
  match kind with
  | 1 | 2 | 3 => signer == 0
  | 4 | 5 | 6 => signer == 1
  | 7 => signer == 0 || signer == 1
  | _ => false

/-- The owner key that was written (R680). -/
def Side.ownerKey (s : Side) : Nat := fromBytes ((s.kp.ownerKey.map (toBytes 8)).flatten.take 57)

/-- The digest of an image (R682). -/
def imageDigest (head content : List Byte) : Nat := fromBytes (shake256 (head.take 256 ++ content) 64)

/-- R684: the checks from 2 on, in order, of a seal and content. -/
def Side.imageResult (s : Side) (kind : Nat) (head content : List Byte) (poison : Bool) : Nat :=
  let v := fromBytes head
  let signer := sfld v 3 0 8
  let dev := sfld v 24 0 128
  if sealKind v ≠ kind then 2
  else if signerOk kind signer = false then 3
  else if signer = 1 ∧ s.flag Reg.KP_STATE 6 = false then 4
  else if dev ≠ 0 ∧ dev ≠ fromBytes s.deviceId then 5
  else if sealSvn v < s.kp.roll.getD (kind - 1) 0 then 6
  else if poison then 7
  else if Config.sealOk (if signer = 1 then some s.ownerKey else none) (imageDigest head content) (sfld v 256 0 912) = false then 8
  else 0

/-- The key of a target's protected extent (R693). -/
def guardKey (t : Nat) : Nat := 0x1400 + t

/-- The result of a verification (R684). -/
def Side.verifyResult (s : Side) (kind base : Nat) : Nat :=
  let b := local46 base
  let v := s.num (b - 512) 512
  if base < 512 ∨ s.extentOk (base - 512) 512 = false ∨ sealBad v ∨ s.extentOk (base - 512) (512 + sealLength v) = false then 1
  else s.imageResult kind (s.bytes (b - 512) 512) (s.bytes b (sealLength v)) (s.poisoned (b - 512) (512 + sealLength v))

/-- R692, R693: a verification ends with a result. -/
def Side.verifyEnd (s : Side) (result : Nat) : Side :=
  match s.kp.verify with
  | none => s
  | some w =>
      match targetOf w.target with
      | none => s
      | some (reg, kind) =>
          let s := (s.kpSet (fun k => { k with verify := none })).wr Reg.KP_VSTAT (BitVec.ofNat 64 (w.target * 65536 + result * 256))
          let s :=
            if result = 0 then
              let b := local46 w.base
              let v := s.num (b - 512) 512
              let img : KImage := ⟨w.target, kind, sealSvn v, sealVersion v, imageDigest (s.bytes (b - 512) 512) (s.bytes b (sealLength v)), sealLength v⟩
              let s := (s.put reg 0 1 1).kpSet (fun k => { k with images := k.images.filter (fun i => i.target != w.target) ++ [img] })
              if kind = 7 then s.packVerified (w.target - 9) else s
            else (s.dropGuard (guardKey w.target)).count Reg.KP_CNT 48 16
          if s.flag Reg.KP_VCFG 21 then s.signal (s.fld Reg.KP_VCFG 8 13) 1 else s

/-- KP_VERIFY_END (R692). -/
def Side.kpVerifyEnd (s : Side) : Side :=
  match s.kp.verify with
  | none => s
  | some w =>
      match targetOf w.target with
      | none => s
      | some (_, kind) => s.verifyEnd (s.verifyResult kind w.base)

/-- R691, R693: the BASE of a target is written: VERIFIED clears, the protection is released, and a verification of it ends with
BASE_CHANGED. -/
def Side.baseWritten (s : Side) (t : Nat) : Side :=
  match targetOf t with
  | none => s
  | some (reg, _) =>
      let s := ((s.put reg 0 1 0).dropGuard (guardKey t)).kpSet (fun k => { k with images := k.images.filter (fun i => i.target != t) })
      if s.kp.verify.any (fun w => w.target == t) then s.verifyEnd 9 else s

/-- KP_VREQ (R690, R691, R705). -/
def Side.kpVreq (s : Side) (level t : Nat) : Side :=
  let bound := decide (1 ≤ t) && decide (t ≤ 8) && s.ops.any (fun o => o.unit == 0x0B && o.opcode == 1 && o.run.isSome && o.f 32 0 3 == t - 1)
  let used := (t == 9 || t == 10) && s.packUsed (t - 9)
  match targetOf t with
  | none => s.kpErr
  | some (reg, _) =>
      if level < 2 ∨ s.kp.verify.isSome ∨ (t = 0 ∧ s.flag Reg.TV_CTRL 0) ∨ bound ∨ used then s.kpErr
      else
        let base := s.fld reg 12 52 * 4096
        let b := local46 base
        let s := (s.put reg 0 1 0).kpSet (fun k => { k with verify := some ⟨t, base, s.now⟩, images := k.images.filter (fun i => i.target != t) })
        let s := s.put Reg.KP_VSTAT 0 1 1
        let n := sealLength (s.num (b - 512) 512)
        if 512 ≤ base ∧ s.extentOk (base - 512) (512 + n) then
          s.addGuard ⟨guardKey t, b - 512, b + n, 0x14, false, none⟩
        else s.dropGuard (guardKey t)

/-- A write to KP_GRAPH_g (R705). -/
def Side.kpGraph (s : Side) (level g : Nat) (v : Word) : Side :=
  if level < 2 then s.kpErr else (s.put (Reg.KP_GRAPH g) 12 52 (v.fld 12 52)).baseWritten (0x10 + g)

/-- KP_ROLL (R694). -/
def Side.kpRoll (s : Side) (level : Nat) (v : Word) : Side :=
  let kind := v.fld 0 8
  let val := v.fld 8 8
  if level < 2 ∨ kind = 0 ∨ 7 < kind then s.kpErr
  else if s.kp.roll.getD (kind - 1) 0 < val ∧ val ≤ 63 ∧
      (s.kp.images ++ s.kp.fw).all (fun i => i.kind != kind || decide (val ≤ i.svn)) = true then
    (s.kpSet (fun k => { k with roll := setAt k.roll (kind - 1) val })).put Reg.KP_ROLLCNT (6 * (kind - 1)) 6 val
  else s.kpErr

/-! ### Quotes (R695) -/

/-- KP_QREQ (R695). -/
def Side.kpQreq (s : Side) (level : Nat) (v : Word) : Side :=
  if level < 2 ∨ s.kp.quote.isSome then s.kpErr
  else
    let nonce := fromBytes (((upTo 4).map (fun w => toBytes 8 (s.rd (Reg.KP_NONCE w)).toNat)).flatten)
    (s.kpSet (fun k => { k with quote := some (v.fld 6 58 * 64, nonce, s.now) })).put Reg.KP_QSTAT 0 1 1

/-- The inner map of a quote (R695). -/
def Side.quoteInner (s : Side) (nonce : Nat) : List Byte :=
  cborMap [(0, cborUint 1), (1, cborBytes s.deviceId), (2, cborBytes s.fwMeasure), (3, cborUint s.id),
    (4, cborBytes (toBytes 32 nonce)), (5, cborUint s.now),
    (6, cborArray ((upTo 3).map (fun i => cborBytes (toBytes 64 ((s.kp.fw.map (fun f => f.digest)).getD i 0))))),
    (7, cborArray (s.kp.roll.map cborUint)), (8, cborBool s.kp.hobble), (9, cborUint (s.fld Reg.KP_STATE 8 2)),
    (10, cborBytes (toBytes 57 (Config.idPub s.id))),
    (11, cborArray ((upTo 0x20).filterMap (fun t => (s.kp.images.find? (fun i => i.target == t)).map (fun i =>
      cborArray [cborUint i.target, cborUint i.kind, cborUint i.svn, cborUint i.version, cborBytes (toBytes 64 i.digest)])))),
    (12, cborBytes (match s.kp.ownerHash with | some h => toBytes 32 h | none => []))]

/-- KP_QUOTE_WRITE (R695). -/
def Side.quoteWrite (s : Side) : Side :=
  match s.kp.quote with
  | none => s
  | some (base, nonce, _) =>
      let n := s.fld Reg.KP_QSTAT 32 32 + 1
      let body := (s.signedBytes true (s.quoteInner nonce)).take 4080
      let bs := toBytes 8 n ++ toBytes 2 body.length ++ toBytes 6 0 ++ body ++ List.replicate (4080 - body.length) 0
      let s := s.ringEntry 0x14 base bs
      ((s.kpSet (fun k => { k with quote := none })).put Reg.KP_QSTAT 0 1 0).put Reg.KP_QSTAT 32 32 n

/-! ### Owner key, debug, Hobble (R680, R700 to R704) -/

/-- A write to KP_OWNER_w (R680): that of KP_OWNER_7 programs or checks OWNER_HASH. -/
def Side.kpOwner (s : Side) (level w : Nat) (v : Word) : Side :=
  if level < 2 then s.kpErr
  else
    let s := s.kpSet (fun k => { k with ownerKey := setAt k.ownerKey w v.toNat })
    if w ≠ 7 then s
    else
      let h := fromBytes (shake256 (toBytes 57 s.ownerKey) 32)
      match s.kp.ownerHash with
      | none => (s.kpSet (fun k => { k with ownerHash := some h })).put Reg.KP_STATE 6 1 1
      | some h' => if h' = h then s.put Reg.KP_STATE 6 1 1 else s.kpErr

/-- The debug challenge renewed (R701): four free words. -/
def Side.newChallenge (s : Side) : Side :=
  (upTo 4).foldl (fun s w =>
    let (d, s) := s.draw
    s.wr (Reg.KP_DCHAL w) (BitVec.ofNat 64 (Config.freeNat d))) s

/-- A write to KP_DTOK_w (R701, R702): that of KP_DTOK_14 checks the token. -/
def Side.kpToken (s : Side) (level w : Nat) (v : Word) : Side :=
  if level < 2 then s.kpErr
  else
    let s := s.kpSet (fun k => { k with token := setAt k.token w v.toNat })
    if w ≠ 14 then s
    else
      let tok := (s.kp.token.map (toBytes 8)).flatten
      let t := fromBytes tok
      let scope := sfld t 114 0 8
      let chal := ((upTo 4).map (fun w => toBytes 8 (s.rd (Reg.KP_DCHAL w)).toNat)).flatten
      let digest := fromBytes (shake256 (s.deviceId ++ toBytes 1 s.id ++ chal ++ toBytes 1 scope) 64)
      let ok := !s.kp.hobble && decide (scope < 4) && !(anySet t [byteRange 115 119]) && Config.tokenOk s.ownerKey digest (sfld t 0 0 912)
      let s :=
        if ok then
          let s := if s.swState = 0 then s else (s.hardSilence 0x17 0)
          s.put Reg.KP_STATE 8 2 (Nat.lor (s.fld Reg.KP_STATE 8 2) scope)
        else s.count Reg.KP_CNT 32 16
      s.newChallenge

/-- KP_HOBBLE (R704): the TAP stays in Test-Logic-Reset from then on. -/
def Side.kpHobble (s : Side) (level : Nat) (v : Word) : Side :=
  if level < 2 ∨ v.fld 0 16 ≠ 0x4842 then s.kpErr
  else
    let s := s.kpSet (fun k => { k with hobble := true, tap := ⟨.testLogicReset, none, [], false⟩ })
    (s.put Reg.KP_STATE 7 1 1).put Reg.KP_STATE 8 2 0

/-! ### MACsec (R696, R699) -/

/-- MKA_SAK_INSTALL (R696): on a port whose MKA runs from the CAK held, a new SAK, which nothing reads. -/
def Side.sakInstall (s : Side) (port sak : Nat) : Side :=
  match s.kp.cak with
  | none => s
  | some (ports, _, _) =>
      if s.keeperOn ∧ port ≤ 9 ∧ bitAt ports port then
        ((s.kpSet (fun k => { k with saks := alSet k.saks port sak })).put (Reg.ET_SEC port) 4 1 1).count (Reg.ET_SECCNT port) 0 16
      else s

/-- A write to ET_SEC or ET_SECWIN (R699): at level 2; while ENABLE is 1 only ENABLE changes. -/
def Side.etSec (s : Side) (level port k : Nat) (v : Word) : Side :=
  let sec := Reg.ET_SEC port
  let s := if k = sec ∧ v.flag 5 ∧ 2 ≤ level then s.put sec 5 1 0 else s
  if level < 2 then s.put sec 5 1 1
  else if k = sec then
    if s.flag sec 0 then
      (if v.fld 1 3 = s.fld sec 1 3 then s else s.put sec 5 1 1).put sec 0 1 (v.fld 0 1)
    else s.put sec 0 4 (v.fld 0 4)
  else if s.flag sec 0 then s.put sec 5 1 1
  else s.wr k v

/-! ### The TAP (R700, R704; IEEE 1149.1) -/

/-- The next state of a TAP controller at a TCK edge with TMS. -/
def TapState.next (t : TapState) (tms : Bool) : TapState :=
  match t, tms with
  | .testLogicReset, true => .testLogicReset
  | .testLogicReset, false => .runTestIdle
  | .runTestIdle, true => .selectDr
  | .runTestIdle, false => .runTestIdle
  | .selectDr, true => .selectIr
  | .selectDr, false => .captureDr
  | .captureDr, true => .exit1Dr
  | .captureDr, false => .shiftDr
  | .shiftDr, true => .exit1Dr
  | .shiftDr, false => .shiftDr
  | .exit1Dr, true => .updateDr
  | .exit1Dr, false => .pauseDr
  | .pauseDr, true => .exit2Dr
  | .pauseDr, false => .pauseDr
  | .exit2Dr, true => .updateDr
  | .exit2Dr, false => .shiftDr
  | .updateDr, true => .selectDr
  | .updateDr, false => .runTestIdle
  | .selectIr, true => .testLogicReset
  | .selectIr, false => .captureIr
  | .captureIr, true => .exit1Ir
  | .captureIr, false => .shiftIr
  | .shiftIr, true => .exit1Ir
  | .shiftIr, false => .shiftIr
  | .exit1Ir, true => .updateIr
  | .exit1Ir, false => .pauseIr
  | .pauseIr, true => .exit2Ir
  | .pauseIr, false => .pauseIr
  | .exit2Ir, true => .updateIr
  | .exit2Ir, false => .shiftIr
  | .updateIr, true => .selectDr
  | .updateIr, false => .runTestIdle

/-- The bits of a number, lowest first. -/
def bitList (n v : Nat) : List Bool := (upTo n).map (bitAt v)

/-- The number that bits spell, lowest first. -/
def ofBitList : List Bool → Nat
  | [] => 0
  | b :: r => (if b then 1 else 0) + 2 * ofBitList r

/-- TAP_ACCESS (R700, R704): one TCK edge. An instruction other than IDCODE is BYPASS unless the JTAG scope is unlocked and the
code is not all ones; what such an instruction's data register holds is open. -/
def Side.tapEdge (s : Side) (tms tdi trst : Bool) : Side :=
  if s.kp.hobble || trst then s.kpSet (fun k => { k with tap := ⟨.testLogicReset, none, [], false⟩ })
  else
    let t := s.kp.tap
    let (d, s) := s.draw
    let bypass (c : Nat) : Bool := c == 2 ^ Config.tapIrLen - 1 || !(s.flag Reg.KP_STATE 8)
    let shifted : Tap := { t with tdo := t.shift.headD false, shift := t.shift.drop 1 ++ [tdi] }
    let t : Tap := match t.st with
      | .captureDr => { t with shift := match t.ir with
          | none => bitList 32 (Config.tapIdcode s.id)
          | some c => if c = Config.tapIdcodeCode then bitList 32 (Config.tapIdcode s.id)
              else if bypass c then [false] else Config.tapScan c d }
      | .captureIr => { t with shift := bitList Config.tapIrLen 1 }
      | .shiftDr | .shiftIr => shifted
      | .updateIr => { t with ir := some (ofBitList t.shift) }
      | .testLogicReset => { t with ir := none }
      | _ => t
    s.kpSet (fun k => { k with tap := { t with st := t.st.next tms } })

end Sys2Proof.Machine
end

