-- ==== Sys2Proof/Machine/Memory.lean ====
section
/-!
DEFINITION. Machine/Memory.lean: the memory controllers' own rows (R435, R447, R448), queue pairs and the RC commands
(R449 to R454).
-/
namespace Sys2Proof.Machine

/-! ### Controllers -/

/-- SPLIT_GIB changes: the near tier is seen through the new map (R435). -/
def Side.setSplit (s : Side) (gib : Nat) : Side :=
  let m := if gib = s.fld Reg.NT_MAP 0 8 then s.mem else s.mem.remap s.part s.split (gib * 2 ^ 30)
  Side.put { s with mem := m } Reg.NT_MAP 0 8 gib

/-- NT_MAP_WRITE (R435): a write at an access level, 2 for the host protocol. -/
def Side.ntMapWrite (s : Side) (level : Nat) (v : Word) : Side :=
  let err (s : Side) : Side := s.put Reg.NT_MAP 17 1 1
  let s := if v.flag 17 then s.put Reg.NT_MAP 17 1 0 else s
  let split := v.fld 0 8
  if level < 2 then err s
  else if s.flag Reg.NT_MAP 16 then (if split ≠ s.fld Reg.NT_MAP 0 8 then err s else s)
  else if split % s.part.stacks ≠ 0 ∨ s.part.nearGB < split then err s
  else
    let s := s.setSplit split
    if v.flag 16 then s.put Reg.NT_MAP 16 1 1 else s

/-- FT_SCRUB (R456): 169 to 255 are not performed. -/
def Side.ftScrubWrite (s : Side) (v : Word) : Side := if v.fld 0 8 ≤ 168 then s.put Reg.FT_SCRUB 0 8 (v.fld 0 8) else s

/-- FT_SCRUB_READ (R448): the scrub reads the next far-tier line, and meets no error or one of R444. No event is sent. -/
def Side.ftScrubRead (s : Side) (err : Option ErrKind) : Side :=
  let far := s.part.farGB * 2 ^ 30
  if far = 0 ∨ s.fld Reg.FT_SCRUB 0 8 = 0 ∨ s.flag Reg.FT_STATE 0 = false then s
  else
    let a := 0x2000_0000_0000 + s.scrubLine * 64
    let s : Side := { s with scrubLine := (s.scrubLine + 1) % (far / 64) }
    match err with
    | some .fix => s.count Reg.FT_ERR 16 16
    | some .retry => s.count Reg.FT_ERR 32 16
    | some .readBad | some .retryFail => (s.markBad a).count Reg.FT_ERR 48 16
    | _ => s

/-- ERROR_CHECK_AND_SCRUB (R444, R447): a powered stack's scrub meets a correctable error in a line and writes it back
corrected, the line's bytes as its agents left them. -/
def Side.ecsRead (s : Side) (stack : Nat) (fixed : Bool) : Side :=
  if s.part.hasInst 0x16 stack && s.flag (Reg.NT_STATE stack) 0 && fixed then s.count (Reg.NT_ERR stack) 16 16 else s

/-! ### Queue pairs (R449 to R454, R734) -/

/-- Whether a queue pair is in READY. -/
def Side.qpReady (s : Side) (q : Nat) : Bool := decide (q < 16) && s.fld (Reg.QP_STATE q) 0 2 == 1

/-- The connection of a queue pair. -/
def Side.qp (s : Side) (q : Nat) : QPair := s.host.qps.getD q ⟨0, 0, 0, 0, 0, 0, 0⟩

/-- A queue pair enters ERROR (R453, R735). -/
def Side.qpError (s : Side) (q : Nat) : Side := if s.qpReady q then s.put (Reg.QP_STATE q) 0 2 2 else s

/-- An RDMA WRITE sent to the host, at the level of the message: its address, key, length and bytes. -/
def Side.rdmaWrite (s : Side) (q va rkey : Nat) (bs : List Byte) : Side :=
  s.send (s.qp q).port (toBytes 8 va ++ toBytes 4 rkey ++ toBytes 4 bs.length ++ bs)

/-- What R450 and R451 say of the admission of an RC command. -/
def rcChecks (s : Side) (cmd : Nat) : Checks :=
  let op := sfld cmd 0 0 8
  let n := sfld cmd 52 0 32
  if op = 1 ∨ op = 2 then
    { reserved := anySet cmd [(56, 4, 4), byteRange 57 63], length := decide (1048576 < n),
      address := s.badExtent (sfld cmd 32 0 64) n, space := if s.qpReady (sfld cmd 56 0 4) then none else some 0,
      worst := (10000 * 20 + n * 17, 20) }
  else { opcode := true }

/-- The queue pair of an RC command. -/
def Op.qp (o : Op) : Nat := o.f 56 0 4

/-- The failed end of an RC command (R452, R453): ADDRESS_FAULT with the syndrome, or TIMEOUT. -/
def Side.rcFail (s : Side) (o : Op) (e : RdmaEnd) (got : Nat) : Side :=
  let s := s.qpError o.qp
  match e with
  | .nak syn => (s.count (Reg.QP_CNT o.qp) 32 16).complete o stAddress (got + syn % 256 * 2 ^ 32)
  | _ => s.complete o stTimeout got

/-- Whether a command that moves data over a queue pair may end so now, after `got` bytes: with a TIMEOUT from its worst-case run time on, otherwise by then
(R452). On a port whose MACsec has no key nothing is sent, and so nothing comes back (R449, R697). -/
def Side.rcMayEnd (s : Side) (o : Op) (qp : Nat) (e : RdmaEnd) (got : Nat) : Bool :=
  let sends := s.secSends (s.qp qp).port
  o.run.all (fun r => match e with
    | .timeout => decide (r.2 + o.worst ≤ s.now) && (sends || got == 0)
    | _ => decide (s.now ≤ r.2 + o.worst) && sends)

/-- RC_READ (R450 to R454): `data` are the bytes received, all of them where it ends well. -/
def rcRead (e : RdmaEnd) (data : List Byte) (o : Op) (s : Side) : Side :=
  let n := o.f 52 0 32
  let a := local46 (o.f 32 0 64)
  let got := data.take n
  if n = 0 then s.complete o stDone
  else if s.rcMayEnd o o.qp e got.length = false then s
  else match e with
    | .ok =>
        if got.length ≠ n then s
        else
          let (s, met) := s.scatter 0x17 (goodAt a got)
          s.finish o met stDone n
    | _ =>
        let (s, met) := s.scatter 0x17 (goodAt a got ++ badAt (a + got.length) (n - got.length))
        if met && e == .timeout then (s.qpError o.qp).complete o stAddress got.length else s.rcFail o e got.length

/-- RC_WRITE (R450 to R454): `got` bytes were transferred where it does not end well. -/
def rcWrite (e : RdmaEnd) (got : Nat) (o : Op) (s : Side) : Side :=
  let n := o.f 52 0 32
  let a := local46 (o.f 32 0 64)
  let va := o.f 40 0 64
  let key := o.f 48 0 32
  if n = 0 then s.complete o stDone
  else if s.rcMayEnd o o.qp e (min got n) = false then s
  else if s.readGuarded 0x17 a n then s.complete o stAddress
  else if s.poisoned a n then s.complete o stPoison
  else match e with
    | .ok => (s.rdmaWrite o.qp va key (s.bytes a n)).complete o stDone n
    | _ =>
        let k := min got n
        (if k = 0 then s else s.rdmaWrite o.qp va key (s.bytes a k)).rcFail o e k

end Sys2Proof.Machine
end

