-- ==== Sys2Proof/Machine/Outrider.lean ====
section
/-!
DEFINITION. Machine/Outrider.lean: the KV cache (R458 to R494): pages, page tables and the Tally, free rings, append, moves,
release and flush.
-/
namespace Sys2Proof.Machine

/-! ### Sequences and pages (R458 to R463) -/

/-- A field of a sequence descriptor (R459), held as a number. -/
def seqRoot (q : Nat) : Nat := sfld q 0 0 64
@[inherit_doc seqRoot] def seqId (q : Nat) : Nat := sfld q 8 0 32
@[inherit_doc seqRoot] def seqPageLog (q : Nat) : Nat := sfld q 12 0 4
@[inherit_doc seqRoot] def seqPplLog (q : Nat) : Nat := sfld q 13 0 5
@[inherit_doc seqRoot] def seqLayers (q : Nat) : Nat := sfld q 14 0 16
@[inherit_doc seqRoot] def seqHkv (q : Nat) : Nat := sfld q 16 0 8
@[inherit_doc seqRoot] def seqD (q : Nat) : Nat := 64 * 2 ^ sfld q 17 0 2
@[inherit_doc seqRoot] def seqClass (q : Nat) : Nat := sfld q 17 2 2
@[inherit_doc seqRoot] def seqOwner (q : Nat) : Nat := sfld q 17 4 1
@[inherit_doc seqRoot] def seqKfmt (q : Nat) : Nat := sfld q 18 0 4
@[inherit_doc seqRoot] def seqVfmt (q : Nat) : Nat := sfld q 18 4 4
@[inherit_doc seqRoot] def seqQp (q : Nat) : Nat := sfld q 19 0 4
@[inherit_doc seqRoot] def seqWin (q : Nat) : Nat := sfld q 20 0 16
@[inherit_doc seqRoot] def seqHostVa (q : Nat) : Nat := sfld q 24 0 64
@[inherit_doc seqRoot] def seqRkey (q : Nat) : Nat := sfld q 32 0 32

/-- P, the positions of a page (R458). -/
def seqP (q : Nat) : Nat := 2 ^ seqPageLog q

/-- The virtual page number of a position in a layer (R460). -/
def seqVpn (q layer pos : Nat) : Nat :=
  let pi := pos >>> seqPageLog q
  layer * 2 ^ seqPplLog q + (if seqWin q = 0 then pi else pi % seqWin q)

/-- The offsets of the regions of a page (R461): keys, key scales, values, value scales, key sums, row sums, and PB. -/
def pageRegions (q : Nat) : List Nat :=
  let n := seqHkv q * seqP q * seqD q
  let k := 64
  let ks := k + n * fmtBits (seqKfmt q) / 8
  let v := ks + n / 16
  let vs := v + n * fmtBits (seqVfmt q) / 8
  let sum := vs + n / 16
  let row := sum + seqHkv q * seqD q * 4
  [k, ks, v, vs, sum, row, row + seqHkv q * seqP q * 4]

/-- PB (R461). -/
def pageBytes (q : Nat) : Nat := (pageRegions q).getD 6 0

/-- The page size of a class (R468); for any instance, the largest of the side's Outriders (R140). -/
def Side.classBytes (s : Side) (i c : Nat) : Nat :=
  if i = 0xFFFF then (upTo s.part.dies).foldl (fun a k => max a (s.fld (Reg.OR_CLS k c) 16 16 * 4096)) 0
  else s.fld (Reg.OR_CLS i c) 16 16 * 4096

/-- A level-2 entry from its fields (R463). -/
def entryOf (addr fill state gen posBase : Nat) : Nat :=
  addr / 4096 * 4096 + fill % 2 ^ 16 * 2 ^ 64 + state % 8 * 2 ^ 80 + gen % 256 * 2 ^ 88 + posBase % 2 ^ 32 * 2 ^ 96

/-- The fields of a level-2 entry. -/
def entryAddr (e : Nat) : Nat := e % 2 ^ 64 / 4096 * 4096
@[inherit_doc entryAddr] def entryFill (e : Nat) : Nat := sfld e 8 0 16
@[inherit_doc entryAddr] def entryState (e : Nat) : Nat := sfld e 10 0 3
@[inherit_doc entryAddr] def entryGen (e : Nat) : Nat := sfld e 11 0 8
@[inherit_doc entryAddr] def entryPos (e : Nat) : Nat := sfld e 12 0 32

/-! ### Walks and the Tally (R464 to R467) -/

/-- An Outrider. -/
def Side.outrider (s : Side) (i : Nat) : Outrider := s.outriders.getD i ⟨[], [], []⟩

/-- An Outrider updated. -/
def Side.onOutrider (s : Side) (i : Nat) (f : Outrider → Outrider) : Side :=
  { s with outriders := setAt s.outriders i (f (s.outrider i)) }

/-- An entry put at the most recently used place of a Tally of 128. -/
def Outrider.touch (u : Outrider) (e : TallyEntry) : Outrider :=
  { u with tally := (e :: u.tally.filter (fun x => !(x.seq == e.seq && x.vpn == e.vpn))).take 128 }

/-- The address of the level-2 entry of a page. Where there is none, with the status of a walk that ends so: POISON_CONSUMED where
the level-1 entry is poisoned, ADDRESS_FAULT where the table it names is no memory that the Outrider may read (R47, R291),
PAGE_FAULT where it is not valid. -/
def Side.l2Addr (s : Side) (q vpn : Nat) : Option Nat × Nat :=
  let a := local46 (seqRoot q) + 16 * (vpn / 256)
  if s.poisoned a 16 then (none, stPoison)
  else
    let e := s.num a 16
    let l := local46 (entryAddr e) + 16 * (vpn % 256)
    if sfld e 0 0 1 = 0 ∨ sfld e 0 1 11 ≠ 0 ∨ sfld e 8 0 64 ≠ 0 then (none, stPageFault)
    else if s.extentOk (entryAddr e) 4096 = false ∨ s.readGuarded 0x0C l 16 = true then (none, stAddress)
    else (some l, stDone)

/-- A walk (R464, R466): the level-2 entry found, or none with the status of a walk that ends so. -/
def Side.walk (s : Side) (i q vpn : Nat) : (Option Nat × Nat) × Side :=
  match (s.outrider i).tally.find? (fun x => x.seq == seqId q && x.vpn == vpn) with
  | some x => ((some x.entry, stDone), (s.onOutrider i (fun u => u.touch x)).count (Reg.OR_TALLY i) 32 32)
  | none =>
      let s := s.count (Reg.OR_TALLY i) 0 32
      match s.l2Addr q vpn with
      | (none, p) => ((none, p), s)
      | (some a, _) =>
          let e := s.num a 16
          if s.poisoned a 16 then ((none, stPoison), s)
          else if sfld e 0 0 12 ≠ 0 ∨ sfld e 10 3 5 ≠ 0 ∨ 4 ≤ entryState e then ((none, stPageFault), s)
          else ((some e, stDone), s.onOutrider i (fun u => u.touch ⟨seqId q, vpn, e⟩))

/-- A level-2 entry written in memory and in the Tally together (R465, R466). -/
def Side.putEntry (s : Side) (i q vpn e : Nat) : Side × Bool :=
  let s := s.onOutrider i (fun u => u.touch ⟨seqId q, vpn, e⟩)
  match s.l2Addr q vpn with
  | (some a, _) => s.scatter 0x0C (goodAt a (toBytes 16 e))
  | (none, _) => (s, false)

/-- A translation for a reader (R473, R485): the page's entry only where it is RESIDENT, and within the indices of a layer. -/
def Side.translate (s : Side) (i q vpn : Nat) (inside : Bool) : (Option Nat × Nat) × Side :=
  let fault (w : Nat) (s : Side) : (Option Nat × Nat) × Side := ((none, w), s.count (Reg.OR_CNT i) 48 16)
  if s.flag (Reg.OR_CTRL i) 0 = false ∨ inside = false then fault stPageFault s
  else
    let (r, s) := s.walk i q vpn
    match r.1 with
    | some e => if entryState e = 1 then (r, s) else fault stPageFault s
    | none => fault r.2 s

/-! ### Free pages (R468 to R471) -/

/-- The rings of a class. -/
def Side.orRings (s : Side) (i c : Nat) : OrRings := (s.outrider i).rings.getD c OrRings.empty

/-- Rings updated. -/
def Side.onRings (s : Side) (i c : Nat) (f : OrRings → OrRings) : Side :=
  s.onOutrider i (fun u => { u with rings := setAt u.rings c (f (u.rings.getD c OrRings.empty)) })

/-- Pages reserved by the commands in flight on an Outrider's near (0) or far (1) ring of a class (R470). -/
def Side.orResv (s : Side) (i c ring : Nat) : Nat :=
  (s.ops.filter (fun o => o.unit == 0x0C && o.f 4 0 16 == i && o.pages == [c, ring])).foldl (fun a o => a + o.resv) 0

/-- The pages that a reservation of `n` lacks. -/
def Side.orMissing (s : Side) (i c ring n : Nat) : Nat :=
  let r := s.orRings i c
  let free := if ring = 0 then r.near.length else r.far.length
  n - (free - s.orResv i c ring)

/-- A page address written to the storage of a ring, in entry k mod N for the k-th since enabling (R493; DESIGN CHOICE, log
entry 54). -/
def Side.ringStore (s : Side) (i c : Nat) (far : Bool) (page : Nat) : Side :=
  let r := s.orRings i c
  let (base, log, k) := if far then ((s.rd (Reg.OR_FBASE i c)).toNat, s.fld (Reg.OR_CLS i c) 4 4, r.farAt)
    else ((s.rd (Reg.OR_NBASE i c)).toNat, s.fld (Reg.OR_CLS i c) 0 4, r.nearAt)
  let s := (s.scatter 0x0C (goodAt (local46 base + 8 * (k % (16 * 2 ^ log))) (toBytes 8 page))).1
  s.onRings i c (fun r => if far then { r with farAt := k + 1 } else { r with nearAt := k + 1 })

/-- A page pushed on a ring, poppable at once. -/
def Side.ringPush (s : Side) (i c : Nat) (far : Bool) (page : Nat) : Side :=
  (s.ringStore i c far page).onRings i c (fun r => if far then { r with far := r.far ++ [page] } else { r with near := r.near ++ [page] })

/-- A near page freed: poppable once every command that translated before has completed (R471). -/
def Side.freeNear (s : Side) (i c page : Nat) : Side :=
  let readers := (s.ops.filter (fun o => o.unit == 0x0F && o.run.isSome && o.resv == i + 1 && o.hasPage)).map (fun o => o.reader)
  if readers.isEmpty then s.ringPush i c false page
  else (s.ringStore i c false page).onOutrider i (fun u => { u with held := u.held ++ [⟨c, page, readers⟩] })

/-- A far page freed. -/
def Side.freeFar (s : Side) (i c page : Nat) : Side := s.ringPush i c true page

/-- A page popped from the near ring. -/
def Side.popNear (s : Side) (i c : Nat) : Nat × Side :=
  let r := s.orRings i c
  (r.near.headD 0, s.onRings i c (fun r => { r with near := r.near.drop 1 }))

/-- A page popped from the far ring. -/
def Side.popFar (s : Side) (i c : Nat) : Nat × Side :=
  let r := s.orRings i c
  (r.far.headD 0, s.onRings i c (fun r => { r with far := r.far.drop 1 }))

/-- OR_CTRL.CFG_ERR set. -/
def Side.orErr (s : Side) (i : Nat) : Side := s.put (Reg.OR_CTRL i) 1 1 1

/-- OR_NPUSH and OR_FPUSH (R469). -/
def Side.orPush (s : Side) (i c : Nat) (far : Bool) (v : Word) : Side :=
  let a := v.toNat
  let size := s.classBytes i c
  let r := s.orRings i c
  let room := if far then decide (r.far.length < 16 * 2 ^ s.fld (Reg.OR_CLS i c) 4 4)
    else decide (r.near.length < 16 * 2 ^ s.fld (Reg.OR_CLS i c) 0 4)
  let placed := match s.loc a with
    | some l => if far then decide (0x2000_0000_0000 ≤ l) && decide (l + size ≤ 0x2000_0000_0000 + s.part.farGB * 2 ^ 30)
        else s.part.inNear l size
    | none => false
  if s.flag (Reg.OR_CTRL i) 0 && a % 4096 == 0 && placed && room then
    s.ringPush i c far a
  else s.orErr i

/-- OUTRIDER_ENABLE (R494). -/
def Side.orEnable (s : Side) (i : Nat) (on : Bool) : Side :=
  if s.flag (Reg.OR_CTRL i) 0 = on then s
  else if on then
    let inPlace (a n : Nat) : Bool := match s.loc a with
      | some l => s.part.inNear l n || (decide (0x3001_0000_0000 ≤ l) && s.part.populated l n)
      | none => false
    let ok := (upTo 4).all (fun c => s.fld (Reg.OR_CLS i c) 16 16 == 0 ||
      (inPlace (s.rd (Reg.OR_NBASE i c)).toNat (8 * 16 * 2 ^ s.fld (Reg.OR_CLS i c) 0 4) &&
        (s.part.farGB == 0 || inPlace (s.rd (Reg.OR_FBASE i c)).toNat (8 * 16 * 2 ^ s.fld (Reg.OR_CLS i c) 4 4))))
    if ok then
      (s.put (Reg.OR_CTRL i) 0 1 1).onOutrider i (fun _ => ⟨List.replicate 4 OrRings.empty, [], []⟩)
    else s.orErr i
  else s.put (Reg.OR_CTRL i) 0 1 0

/-- Writes of OR_CLS, OR_NBASE and OR_FBASE (R493, R494). -/
def Side.orCfgWrite (s : Side) (i k : Nat) (cls : Bool) (v : Word) : Side :=
  if s.flag (Reg.OR_CTRL i) 0 then s.orErr i
  else if cls && (decide (4096 < v.fld 16 16) || decide (13 ≤ v.fld 4 4) || decide (13 ≤ v.fld 0 4)) then s.orErr i
  else s.wr k v

/-- What OR_NSTAT, OR_FSTAT and OR_HELD read (R493). -/
def Side.orStat (s : Side) (i c ring : Nat) : Word :=
  let r := s.orRings i c
  BitVec.ofNat 64 ((if ring = 0 then r.near.length else r.far.length) * 2 ^ 32 + s.orResv i c ring)
@[inherit_doc Side.orStat] def Side.orHeld (s : Side) (i : Nat) : Word := BitVec.ofNat 64 (s.outrider i).held.length

/-! ### Admission (R473 to R492) -/

/-- KV storage formats (R459). -/
def kvFmtOk (f : Nat) : Bool := f == 4 || f == 9 || f == 8 || f == 0xA

/-- Whether a reserved field of a sequence descriptor is set. -/
def seqReserved (q : Nat) : Bool :=
  anySet q [(12, 4, 4), (13, 5, 3), (17, 5, 3), (19, 4, 4), byteRange 22 23, byteRange 36 63]

/-- Whether a descriptor's formats are refused with BAD_FORMAT. -/
def seqFormat (q : Nat) : Bool := !(kvFmtOk (seqKfmt q)) || !(kvFmtOk (seqVfmt q)) || sfld q 17 0 2 == 3

/-- Whether a descriptor field lies outside R459, or its page does not fit its class (R468). -/
def Side.seqLength (s : Side) (i q : Nat) : Bool :=
  let root := seqRoot q
  let placed := match s.loc root with
    | some l => s.part.inNear l 16 || decide (0x3001_0000_0000 ≤ l)
    | none => true
  root % 4096 != 0 || !placed || seqId q == 0 || decide (seqPageLog q < 4) || decide (10 < seqPageLog q) || decide (16 < seqPplLog q) ||
    seqLayers q == 0 || decide (256 < seqLayers q) || seqHkv q == 0 || decide (64 < seqHkv q) ||
    (seqWin q != 0 && (decide (seqWin q < 2) || decide (2 ^ seqPplLog q < seqWin q))) || decide (s.classBytes i (seqClass q) < pageBytes q)

/-- The bytes of the level-1 table (R463). -/
def seqTableBytes (q : Nat) : Nat := 16 * ceilDiv (seqLayers q * 2 ^ seqPplLog q) 256

/-- The reservation an Outrider command makes: pages, class, ring (R470). -/
def orReserve (cmd q : Nat) : Nat × List Nat :=
  let op := sfld cmd 0 0 8
  let c := seqClass q
  if op = 2 then
    let d := sfld cmd 40 0 2
    (if d = 2 then 0 else sfld cmd 41 0 8, [c, if d = 0 then 1 else 0])
  else (0, [])

/-- The near pages an append of `n` tokens may need (R476). -/
def appendPages (q n : Nat) : Nat := if n = 0 then 0 else ceilDiv (n - 1) (seqP q) + 1

/-- What R473 to R492 say of the admission of an Outrider command. -/
def orChecks (s : Side) (cmd : Nat) : Checks :=
  let op := sfld cmd 0 0 8
  let inst := sfld cmd 4 0 16
  let p := sfld cmd 32 0 64
  let q := s.struct p 64 8
  let ok := s.readable p 64 8
  let closed : Option Nat := if s.flag (Reg.OR_CTRL inst) 0 then none else some 0
  let wrong := inst == 0xFFFF || (ok && op != 4 && seqOwner q != inst)
  let missing (ring n : Nat) : Option Nat :=
    let m := s.orMissing inst (seqClass q) ring n
    if ok ∧ 0 < m then some (m * s.classBytes inst (seqClass q)) else none
  if op = 1 then
    let ka := sfld cmd 40 0 64
    let va := sfld cmd 48 0 64
    let kr := s.struct ka 128 8
    let vr := s.struct va 128 8
    let k := descOf kr
    let v := descOf vr
    let ok1 := s.readable ka 128 8
    let ok2 := s.readable va 128 8
    let f1 := ok1 && !k.badFormat
    let f2 := ok2 && !v.badFormat
    let n := k.sz 2
    let pos := sfld cmd 56 0 32
    let kvF (d : Desc) : Bool := d.rank != 3 || d.stride.getD 0 0 != 1 || !(d.fmt == 0 || d.fmt == 2 || d.fmt == 3)
    let shape (d : Desc) : Bool := d.size != [seqD q, seqHkv q, n]
    let bOut := n * seqHkv q * (seqD q * (fmtBits (seqKfmt q) + fmtBits (seqVfmt q)) / 8 + seqD q / 8 + 4) +
      appendPages q n * (seqHkv q * seqD q * 4 + 64)
    { reserved := anySet cmd [byteRange 62 63] || (ok && seqReserved q) || (ok1 && descReserved kr) || (ok2 && descReserved vr),
      blocks := [(p, 64, 8), (ka, 128, 8), (va, 128, 8)],
      format := (ok && seqFormat q) || (ok1 && (k.badFormat || kvF k)) || (ok2 && (v.badFormat || kvF v)),
      length := (ok && s.seqLength inst q) || (f1 && k.badLength) || (f2 && v.badLength) || (ok && f1 && shape k) || (ok && f2 && shape v) ||
        (f1 && decide (1024 < n)) || (ok && decide (seqLayers q ≤ sfld cmd 60 0 16)) ||
        (ok && f1 && n != 0 && ((seqWin q == 0 && decide (2 ^ seqPplLog q ≤ (pos + n - 1) >>> seqPageLog q)) || decide (2 ^ 32 - 1 < pos + n - 1))),
      address := wrong || (ok && s.badExtent (seqRoot q) (seqTableBytes q)) || (f1 && s.descAddress k) || (f2 && s.descAddress v),
      space := if closed.isSome then closed else missing 0 (appendPages q n),
      worst := (2000 * 128 + (k.bytes + v.bytes) + bOut + 4 * 128 * n * seqHkv q, 128) }
  else if op = 2 ∨ op = 3 then
    let d := sfld cmd 40 0 2
    let n := if op = 2 then sfld cmd 41 0 8 else sfld cmd 40 0 16
    let g := s.classBytes inst (seqClass q)
    { reserved := (if op = 2 then anySet cmd [(40, 2, 6), byteRange 42 43, byteRange 48 63] else anySet cmd [byteRange 42 43, byteRange 48 63]) ||
        (ok && seqReserved q),
      blocks := [(p, 64, 8)], format := ok && sfld q 17 0 2 == 3, absent := op == 2 && decide (d ≤ 1) && s.part.farGB == 0,
      length := decide ((if op = 2 then 64 else 4096) < n) ||
        (ok && (seqFormat q || s.seqLength inst q || decide (seqLayers q * 2 ^ seqPplLog q < sfld cmd 44 0 32 + n))),
      address := wrong || (ok && s.badExtent (seqRoot q) (seqTableBytes q)),
      space := if closed.isSome then closed
        else if op = 2 ∧ 2 ≤ d ∧ ok ∧ s.qpReady (seqQp q) = false then some 0
        else if op = 2 ∧ d ≠ 2 then missing (if d = 0 then 1 else 0) n else none,
      worst := if op = 3 then (2000 + 50 * n, 1)
        else if d ≤ 1 then (2000 * 128 + n * (g + 500 * 128), 128) else (10000 * 20 + n * g * 17, 20) }
  else if op = 4 then
    { reserved := anySet cmd [byteRange 36 63], address := inst == 0xFFFF, space := closed, worst := (1000, 1) }
  else { opcode := true }

/-- The reservation recorded with an admitted Outrider command: its pages and which ring (R470). -/
def Side.orReservation (s : Side) (cmd : Nat) : Nat × List Nat :=
  let q := s.struct (sfld cmd 32 0 64) 64 8
  if sfld cmd 0 0 8 = 1 then (appendPages q ((descOf (s.struct (sfld cmd 40 0 64) 128 8)).sz 2), [seqClass q, 0])
  else orReserve cmd q

/-! ### Append (R475 to R484) -/

/-- A page that an append writes: its VPN, address, the fill before, POS_BASE, GEN, whether it starts at FILL 0 here, and the
first token and how many. -/
structure PagePlan where
  vpn : Nat
  addr : Nat
  fill : Nat
  posBase : Nat
  gen : Nat
  first : Nat
  count : Nat
  deriving DecidableEq, Repr

/-- How resolving an append failed (R478). -/
inductive AppendFail where
  | noPage (status vpn : Nat)
  | outOfOrder
  deriving DecidableEq, Repr

/-- The runs of new positions by page: first position, first token, count. -/
def appendRuns (p pos n : Nat) : Nat → Nat → List (Nat × Nat × Nat)
  | 0, _ => []
  | f + 1, done =>
      if n ≤ done then []
      else
        let c := min (n - done) (p - (pos + done) % p)
        (pos + done, done, c) :: appendRuns p pos n f (done + c)

/-- R478: the page of one run resolved, against the entries already resolved in this command. -/
def Side.resolvePage (s : Side) (i q vpn : Nat) (run : Nat × Nat × Nat) (plans : List PagePlan) (ring : List Nat) :
    Except AppendFail (PagePlan × List Nat) × Side :=
  let f := run.1
  let p := seqP q
  let entry (r : Option Nat × Nat) : Except AppendFail (PagePlan × List Nat) :=
    match r.1 with
    | none => .error (.noPage r.2 vpn)
    | some e =>
        if entryState e = 0 then
          if f % p = 0 then .ok (⟨vpn, ring.headD 0, 0, f, entryGen e, run.2.1, run.2.2⟩, ring.drop 1) else .error .outOfOrder
        else if entryState e = 1 then
          if entryPos e + entryFill e = f then
            .ok (⟨vpn, entryAddr e, entryFill e, entryPos e, entryGen e, run.2.1, run.2.2⟩, ring)
          else if seqWin q ≠ 0 ∧ entryPos e < f - f % p ∧ f % p = 0 then
            .ok (⟨vpn, entryAddr e, 0, f, (entryGen e + 1) % 256, run.2.1, run.2.2⟩, ring)
          else .error .outOfOrder
        else .error (.noPage stPageFault vpn)
  match plans.reverse.find? (fun x => x.vpn == vpn) with
  | some x => (entry (some (entryOf x.addr (x.fill + x.count) 1 x.gen x.posBase), stDone), s)
  | none => let (r, s) := s.walk i q vpn; (entry r, s)

/-- R478: every page of an append resolved, in position order. -/
def Side.resolveAll (s : Side) (i q layer : Nat) (ring : List Nat) :
    List (Nat × Nat × Nat) → List PagePlan → Except AppendFail (List PagePlan × List Nat) × Side
  | [], plans => (.ok (plans, ring), s)
  | run :: rest, plans =>
      match s.resolvePage i q (seqVpn q layer run.1) run plans ring with
      | (.error e, s) => (.error e, s)
      | (.ok (p, ring), s) => s.resolveAll i q layer ring rest (plans ++ [p])

/-- A positive quotient rounded toward +∞ to FP16, its code; 0x7BFF beyond 65,504 with true (R479, R480). -/
def fp16Up (v : FVal) : Nat × Bool :=
  match v with
  | .fin _ m e =>
      if m = 0 then (0, false)
      else
        let q := flt16.ulp m e
        let k := if q ≤ e then m * 2 ^ (e - q).toNat else ceilDiv m (2 ^ (q - e).toNat)
        if (FVal.ofInt 65504).lt (.fin false k q) then (0x7BFF, true) else (flt16.code (.fin false k q), false)
  | _ => (0x7BFF, true)

/-- qmax of R479. -/
def kvQmax (f : Nat) : Nat := if f = 4 then 448 else if f = 9 then 127 else if f = 8 then 6 else 7

/-- A block of 32 values quantised (R479, R480): the scale's code, the element codes and whether it saturated. -/
def kvBlock (f : Nat) (vs : List FVal) : Nat × List Nat × Bool :=
  let amax := vs.foldl (fun a v => if a.lt v.abs then v.abs else a) FVal.zero
  let qm := FVal.ofInt (kvQmax f : Nat)
  let (sc, sat) := fp16Up (amax.div qm)
  let scale := flt16.ieee sc
  let one (v : FVal) : Nat :=
    if sc = 0 then 0
    else
      let x := v.div scale
      let x := if qm.lt x.abs then (match x with | .fin true _ _ => qm.neg | _ => qm) else x
      if f = 9 then unsigned 8 (x.rint.getD 0) else if f = 0xA then unsigned 4 (x.rint.getD 0)
      else
        let fl := if f = 4 then fltE4M3 else fltE2M1
        fl.code (match x with | .fin sg m e => fl.quant sg m e | v => v)
  (sc, vs.map one, sat)

/-- A vector of D values quantised: the scale codes, the element codes, the dequantised values and whether it saturated. -/
def kvVector (f : Nat) (vs : List FVal) : List Nat × List Nat × List FVal × Bool :=
  (upTo (vs.length / 32)).foldl (fun acc b =>
    let (sc, es, sat) := kvBlock f ((vs.drop (32 * b)).take 32)
    let dq := es.map (fun c => (flt16.ieee sc).mul (fmtVal f c))
    (acc.1 ++ [sc], acc.2.1 ++ es, acc.2.2.1 ++ dq, acc.2.2.2 || sat)) ([], [], [], false)

/-- Elements packed under R370 into bytes. -/
def packBytes (w : Nat) (es : List Nat) : List Byte :=
  toBytes (es.length * w / 8) (((upTo es.length).zip es).foldl (fun a e => a + e.2 % 2 ^ w * 2 ^ (w * e.1)) 0)

/-- A head vector of a new token: its values, whether one that is not poisoned is a NaN or an infinity, whether one is poisoned
(R481). -/
structure HeadIn where
  k : List FVal
  v : List FVal
  nonfinite : Bool
  poison : Bool
  deriving DecidableEq, Repr

/-- The writes of one page of an append, whether a block saturated, and whether existing key sums were poisoned. -/
def Side.pageWrites (s : Side) (q layer : Nat) (pl : PagePlan) (tok : Nat → Nat → HeadIn) : List (Nat × Byte × Bool) × Bool × Bool :=
  let r := pageRegions q
  let a := local46 pl.addr
  let off (k : Nat) : Nat := a + r.getD k 0
  let p := seqP q
  let d := seqD q
  let bk := fmtBits (seqKfmt q)
  let bv := fmtBits (seqVfmt q)
  let mark (bad : Bool) (at_ : Nat) (bs : List Byte) : List (Nat × Byte × Bool) := (goodAt at_ bs).map (fun w => (w.1, w.2.1, bad))
  let head (h : Nat) : List (Nat × Byte × Bool) × Bool × Bool :=
    let sumAt := off 4 + h * d * 4
    let oldBad := pl.fill != 0 && s.poisoned sumAt (d * 4)
    let old : List FVal := (upTo d).map (fun e => if pl.fill = 0 then FVal.zero else of32 (s.num (sumAt + 4 * e) 4))
    let step (acc : List (Nat × Byte × Bool) × List FVal × Bool × Bool) (j : Nat) : List (Nat × Byte × Bool) × List FVal × Bool × Bool :=
      let t := pl.fill + j
      let x := tok (pl.first + j) h
      let bad := x.nonfinite || x.poison
      let (ks, ke, kd, sk) := if bad then (List.replicate (d / 32) 0, List.replicate d 0, List.replicate d FVal.zero, false) else kvVector (seqKfmt q) x.k
      let (vs, ve, vd, sv) := if bad then (List.replicate (d / 32) 0, List.replicate d 0, List.replicate d FVal.zero, false) else kvVector (seqVfmt q) x.v
      let row := to32 (r32 (vd.foldl FVal.add FVal.zero))
      let ht := h * p + t
      (acc.1 ++ mark bad (off 0 + ht * d * bk / 8) (packBytes bk ke) ++ mark bad (off 1 + ht * d / 16) (packBytes 16 ks) ++
          mark bad (off 2 + ht * d * bv / 8) (packBytes bv ve) ++ mark bad (off 3 + ht * d / 16) (packBytes 16 vs) ++
          mark bad (off 5 + ht * 4) (toBytes 4 row),
        (acc.2.1.zip kd).map (fun e => r32 (e.1.add e.2)), acc.2.2.1 || bad, acc.2.2.2 || sk || sv)
    let (ws, sums, bad, sat) := (upTo pl.count).foldl step ([], old, false, false)
    (ws ++ mark (bad || oldBad) sumAt (sums.map (fun v => toBytes 4 (to32 v))).flatten, sat, oldBad)
  let header := toBytes 4 (seqId q) ++ toBytes 2 layer ++ toBytes 2 (pl.fill + pl.count) ++ toBytes 4 pl.posBase ++ toBytes 1 pl.gen ++
    toBytes 1 (seqKfmt q + 16 * seqVfmt q) ++ toBytes 1 (seqHkv q) ++ toBytes 1 (sfld q 17 0 2 + 16 * seqPageLog q) ++ toBytes 48 0
  (upTo (seqHkv q)).foldl (fun acc h =>
    let x := head h
    (acc.1 ++ x.1, acc.2.1 || x.2.1, acc.2.2 || x.2.2)) (goodAt a header, false, false)

/-- The end of an Outrider command (R474). -/
def Side.orEnd (s : Side) (o : Op) (met : Bool) (status : Nat) (flags count skipped : Nat) : Side :=
  let st := if status = stDone ∧ flags ≠ 0 then stFlagged else status
  s.finish o met st (count % 2 ^ 32 + flags * 2 ^ 32 + o.inst * 2 ^ 40 + skipped % 2 ^ 16 * 2 ^ 48)

/-- The pages of an OR_APPEND resolved against the ring of its class (R478). -/
def Side.appendPlan (s : Side) (o : Op) : Except AppendFail (List PagePlan × List Nat) × Side :=
  let q := o.block (o.f 32 0 64)
  let n := (descOf (o.block (o.f 40 0 64))).sz 2
  s.resolveAll o.inst q (o.f 60 0 16) (s.orRings o.inst (seqClass q)).near (appendRuns (seqP q) (o.f 56 0 32) n n 0) []

/-- What the pages of an OR_APPEND came to: the side, whether a write met a protected extent, whether poison was met, the flags. -/
structure AppendRun where
  s : Side
  met : Bool
  poison : Bool
  flags : Nat
  deriving DecidableEq, Repr

/-- The pages of an OR_APPEND written, and then their entries (R479 to R484). -/
def Side.appendRun (s : Side) (o : Op) (plans : List PagePlan) (ring : List Nat) : AppendRun :=
  let i := o.inst
  let q := o.block (o.f 32 0 64)
  let kd := descOf (o.block (o.f 40 0 64))
  let vd := descOf (o.block (o.f 48 0 64))
  let el (d : Desc) (t h e : Nat) : FVal × Bool := let x := d.elem s.view [e, h, t]; (fmtVal d.fmt x.1, x.2)
  let tok (t h : Nat) : HeadIn :=
    let ks := (upTo (seqD q)).map (fun e => el kd t h e)
    let vs := (upTo (seqD q)).map (fun e => el vd t h e)
    let vals (l : List (FVal × Bool)) : List FVal := l.map (fun x => x.1)
    ⟨vals ks, vals vs, (ks ++ vs).any (fun x => !x.2 && !x.1.isFin), (ks ++ vs).any (fun x => x.2)⟩
  let heads := (upTo (kd.sz 2)).map (fun t => (upTo (seqHkv q)).map (fun h => tok t h))
  let non := heads.flatten.any (fun x => x.nonfinite)
  let pois := heads.flatten.any (fun x => x.poison)
  let s := s.onRings i (seqClass q) (fun r => { r with near := ring })
  let (s, met, sat, oldBad) := plans.foldl (fun (acc : Side × Bool × Bool × Bool) pl =>
    let (ws, st, ob) := acc.1.pageWrites q (o.f 60 0 16) pl tok
    let (s, m) := if acc.1.extentOk pl.addr (pageBytes q) then acc.1.scatter 0x0C ws else (acc.1, true)
    (s, acc.2.1 || m, acc.2.2.1 || st, acc.2.2.2 || ob)) (s, false, false, false)
  let (s, met) := plans.foldl (fun (acc : Side × Bool) pl =>
    let (s, m) := acc.1.putEntry i q pl.vpn (entryOf pl.addr (pl.fill + pl.count) 1 pl.gen pl.posBase)
    (s, acc.2 || m)) (s, met)
  ⟨s, met, pois || oldBad, (if non then 1 else 0) + (if sat then 2 else 0)⟩

/-- OR_APPEND (R478 to R484). -/
def orAppend (o : Op) (s : Side) : Side :=
  let kd := descOf (o.block (o.f 40 0 64))
  let vd := descOf (o.block (o.f 48 0 64))
  if kd.sz 2 = 0 then s.orEnd o false stDone 0 0 0
  else if s.readGuarded 0x0C kd.place.1 kd.place.2 || s.readGuarded 0x0C vd.place.1 vd.place.2 then s.orEnd o true stDone 0 0 0
  else match s.appendPlan o with
    | (.error (.noPage st vpn), s) => (s.count (Reg.OR_CNT o.inst) 48 16).orEnd o false st 0 vpn 0
    | (.error .outOfOrder, s) => s.orEnd o false stDone 4 0 0
    | (.ok (plans, ring), s) =>
        let r := s.appendRun o plans ring
        r.s.orEnd o r.met (if r.poison then stPoison else stDone) r.flags (kd.sz 2) 0

/-! ### Moves (R485 to R490) -/

/-- A page's bytes copied from one side-local address to another, with their poison. -/
def Side.copyPage (s : Side) (src dst n : Nat) : Side × Bool :=
  s.scatter 0x0C ((upTo n).map (fun k => (dst + k, s.mem.get (src + k), s.poisoned (src + k) 1)))

/-- What an OR_MOVE carries from page to page. -/
structure MoveRun where
  s : Side
  met : Bool
  moved : Nat
  skipped : Nat
  poison : Bool
  failed : Option RdmaEnd
  deriving DecidableEq, Repr

/-- One page of an OR_MOVE (R487, R489, R490). `fail` is the page, by its place among those moved, at which the host's side
of a swap failed, and the bytes it got to; `data` the bytes the host sends, page after page. -/
def movePage (i q dir : Nat) (fail : Option (Nat × RdmaEnd × Nat)) (data : List Byte) (r : MoveRun) (vpn : Nat) : MoveRun :=
  if r.failed.isSome then r
  else
    let c := seqClass q
    let pb := pageBytes q
    let (w, s) := r.s.walk i q vpn
    let skip : MoveRun :=
      { r with s := s, skipped := r.skipped + 1, poison := r.poison || w.2 == stPoison, met := r.met || w.2 == stAddress }
    match w.1 with
    | none => skip
    | some e =>
        let st := entryState e
        let old := local46 (entryAddr e)
        let keep (addr state : Nat) : Nat := entryOf addr (entryFill e) state (entryGen e) (entryPos e)
        let va := (seqHostVa q + vpn * s.classBytes i c) % 2 ^ 64
        let failing := match fail with | some (k, x, got) => if k = r.moved then some (x, got) else none | none => none
        let done (s : Side) (m : Bool) (lo : Nat) (bad : Bool) : MoveRun :=
          { r with s := s.count (Reg.OR_CNT i) lo 16, met := r.met || m, moved := r.moved + 1, poison := r.poison || bad }
        let barred := s.extentOk (entryAddr e) pb = false ∨ s.readGuarded 0x0C old pb = true
        if (dir = 0 ∨ dir = 2) ∧ st = 1 ∧ barred ∨ dir = 1 ∧ st = 2 ∧ barred then { skip with met := true }
        else if dir = 0 then
          if st = 1 ∧ entryFill e = seqP q ∧ seqWin q = 0 then
            let bad := s.poisoned old pb
            let (page, s) := s.popFar i c
            let (s, m1) := s.copyPage old (local46 page) pb
            let (s, m2) := s.putEntry i q vpn (keep page 2)
            done (s.freeNear i c (entryAddr e)) (m1 || m2) 32 bad
          else skip
        else if dir = 1 then
          if st = 2 then
            let bad := s.poisoned old pb
            let (page, s) := s.popNear i c
            let (s, m1) := s.copyPage old (local46 page) pb
            let (s, m2) := s.putEntry i q vpn (keep page 1)
            done (s.freeFar i c (entryAddr e)) (m1 || m2) 16 bad
          else skip
        else if dir = 2 then
          if st ≠ 1 then skip
          else if s.poisoned old pb then { skip with poison := true }
          else match failing with
            | some (x, got) => { r with s := s.rdmaWrite (seqQp q) va (seqRkey q) (s.bytes old (min got pb)), failed := some x }
            | none =>
                let s := s.rdmaWrite (seqQp q) va (seqRkey q) (s.bytes old pb)
                let (s, m) := s.putEntry i q vpn (keep 0 3)
                done (s.freeNear i c (entryAddr e)) m 0 false
        else
          if st ≠ 3 then skip
          else
            let (page, s) := s.popNear i c
            let bs := (data.drop (r.moved * pb)).take pb
            match failing with
            | some (x, got) =>
                let g := bs.take got
                let (s, m) := s.scatter 0x0C (goodAt (local46 page) g ++ badAt (local46 page + g.length) (pb - g.length))
                { r with s := s.ringPush i c false page, met := r.met || m, failed := some x }
            | none =>
                let (s, m1) := s.scatter 0x0C (goodAt (local46 page) bs ++ badAt (local46 page + bs.length) (pb - bs.length))
                let (s, m2) := s.putEntry i q vpn (keep page 1)
                done s (m1 || m2) 0 false

/-- The pages of an OR_MOVE moved in turn, up to one at which the host's side failed (R486). -/
def Side.moveRun (s : Side) (o : Op) (fail : Option (Nat × RdmaEnd × Nat)) (data : List Byte) : MoveRun :=
  let dir := o.f 40 0 2
  let failing := if dir < 2 then none else match fail with | some (_, .ok, _) => none | f => f
  ((upTo (o.f 41 0 8)).map (fun k => o.f 44 0 32 + k)).foldl (movePage o.inst (o.block (o.f 32 0 64)) dir failing data)
    ⟨s, false, 0, 0, false, none⟩

/-- OR_MOVE (R486 to R490). A TIMEOUT comes no sooner than the worst-case run time, as for R452. -/
def orMove (fail : Option (Nat × RdmaEnd × Nat)) (data : List Byte) (o : Op) (s : Side) : Side :=
  let qp := seqQp (o.block (o.f 32 0 64))
  let (e, got) := match fail with | some (k, x, b) => (x, k + b) | none => (RdmaEnd.ok, 0)
  if o.f 41 0 8 = 0 then s.orEnd o false stDone 0 0 0
  else if 2 ≤ o.f 40 0 2 ∧ s.rcMayEnd o qp e got = false then s
  else
    let r := s.moveRun o fail data
    match r.failed with
    | some (.nak syn) => ((r.s.qpError qp).count (Reg.QP_CNT qp) 32 16).complete o stAddress (r.moved + syn % 256 * 2 ^ 32)
    | some _ => (r.s.qpError qp).complete o (if r.met then stAddress else stTimeout) r.moved
    | none => r.s.orEnd o r.met (if r.poison then stPoison else stDone) 0 r.moved r.skipped

/-! ### Release and flush (R491, R492) -/

/-- One page of an OR_RELEASE: the side, whether an access met an extent it may not, whether it was released, whether a poisoned
entry was read. -/
def Side.releasePage (s : Side) (i q vpn : Nat) : Side × Bool × Bool × Bool :=
  let c := seqClass q
  let (w, s) := s.walk i q vpn
  match w.1 with
  | none => (s, w.2 == stAddress, false, w.2 == stPoison)
  | some e =>
      let st := entryState e
      if st = 0 then (s, false, false, false)
      else
        let (s, m) := s.putEntry i q vpn (entryOf 0 0 0 ((entryGen e + 1) % 256) 0)
        let s := if st = 1 then s.freeNear i c (entryAddr e) else if st = 2 then s.freeFar i c (entryAddr e) else s
        (s, m, true, false)

/-- The pages of an OR_RELEASE released in turn: the side, whether an access met an extent it may not, how many were released, whether
a poisoned entry was read. -/
def Side.releaseRun (s : Side) (o : Op) : Side × Bool × Nat × Bool :=
  (upTo (o.f 40 0 16)).foldl (fun (acc : Side × Bool × Nat × Bool) k =>
    let (s, m, ok, p) := acc.1.releasePage o.inst (o.block (o.f 32 0 64)) (o.f 44 0 32 + k)
    (s, acc.2.1 || m, acc.2.2.1 + (if ok then 1 else 0), acc.2.2.2 || p)) (s, false, 0, false)

/-- OR_RELEASE (R491). -/
def orRelease (o : Op) (s : Side) : Side :=
  let n := o.f 40 0 16
  if n = 0 then s.orEnd o false stDone 0 0 0
  else
    let r := s.releaseRun o
    r.1.orEnd o r.2.1 (if r.2.2.2 then stPoison else stDone) 0 r.2.2.1 (n - r.2.2.1)

/-- OR_FLUSH (R492). -/
def orFlush (o : Op) (s : Side) : Side :=
  let i := o.inst
  let id := o.f 32 0 32
  let keep := (s.outrider i).tally.filter (fun x => id != 0 && x.seq != id)
  let n := (s.outrider i).tally.length - keep.length
  (s.onOutrider i (fun u => { u with tally := keep })).orEnd o false stDone 0 n 0

end Sys2Proof.Machine
end

