-- ==== Sys2Proof/Machine/Pillar.lean ====
section
/-!
DEFINITION. Machine/Pillar.lean: point clouds (R290 to R333): frames, the path of a point, the voxel table, Morton order,
pillars and rule books.
-/
namespace Sys2Proof.Machine

/-! ### Admission (R292 to R329) -/

/-- What R293 to R329 say of the admission of a Pillar command. -/
def plChecks (s : Side) (cmd : Nat) : Checks :=
  let op := sfld cmd 0 0 8
  let a := sfld cmd 32 0 64
  let closed : Option Nat := if s.flag Reg.PL_CTRL 0 then none else some 0
  if op = 1 then
    let p := sfld cmd 40 0 64
    let b := s.struct p 64 1
    let ok := s.readable p 64 1
    let cap := sfld b 16 0 32
    let bad (o lo hi : Nat) : Bool := decide (sfld b o 0 32 < lo) || decide (hi < sfld b o 0 32)
    { reserved := anySet cmd [byteRange 48 63] || (ok && anySet b [byteRange 44 63]), blocks := [(p, 64, 1)],
      length := ok && (decide (4194304 < cap) || bad 20 20000 2000000 || bad 24 500000 5000000 || bad 28 0 200000000 ||
        bad 32 0 30000000 || decide (sfld b 40 0 32 < sfld b 36 0 32)),
      address := ok && (s.notNear (sfld b 0 0 64) (cap * 32) || decide (sfld b 0 0 6 ≠ 0) ||
        s.notNear (sfld b 8 0 64) (4 * min cap 2162688) || decide (sfld b 8 0 2 ≠ 0)),
      space := closed, worst := (2000, 1) }
  else if op = 2 then
    let p := sfld cmd 48 0 64
    let b := s.struct p 64 1
    let ok := s.readable p 64 1
    let n := sfld cmd 56 0 16
    let m := sfld b 4 0 16
    { reserved := anySet cmd [(58, 5, 3), byteRange 59 63] || (ok && anySet b [(18, 5, 3), byteRange 19 19, byteRange 60 63]),
      blocks := [(p, 64, 1)],
      format := ok && (sfld b 18 1 2 == 3 || sfld b 18 3 2 == 3),
      length := decide (4096 < n) || (ok && (m == 0 || decide (1024 < m) || sfld b 2 0 16 == 0)),
      address := s.badExtent (sfld cmd 40 0 64) (24 * n) || decide (sfld cmd 40 0 3 ≠ 0),
      space := closed, worst := (1000 + n * (40 + m), 1) }
  else if op = 3 then
    let h := sfld cmd 40 0 64
    { reserved := anySet cmd [byteRange 48 63], address := s.badExtent h 128 || decide (h % 64 ≠ 0), space := closed,
      worst := (2000, 1) }
  else if op = 4 then
    let b := s.struct a 64 1
    let ok := s.readable a 64 1
    let first := sfld cmd 40 0 32
    let n := sfld cmd 44 0 32
    { reserved := anySet cmd [byteRange 48 63] || (ok && anySet b [(24, 3, 5), byteRange 27 63]), blocks := [(a, 64, 1)],
      format := ok && decide (2 ≤ sfld b 24 0 2),
      length := decide (131072 < n) || (ok && (decide (7 < sfld b 25 0 8) || decide (6 < sfld b 26 0 8))),
      address := ok && (s.badExtent (sfld b 16 0 64) (16 * n) ||
        (sfld b 8 0 64 != 0 && s.badExtent (sfld b 8 0 64 + 4 * first) (4 * n)) ||
        (sfld b 8 0 64 == 0 && s.badExtent (sfld b 0 0 64 + 32 * first) (32 * n))),
      space := closed, worst := (2000 * 2 + n, 2) }
  else if op = 5 then
    let runs := (s.struct a 16 1) >>> 96 % 128
    let n := if 1 ≤ runs ∧ runs ≤ 64 then 16 + 16 * runs else 16
    let b := s.struct a n 1
    let ok := s.readable a n 1
    let out := sfld cmd 40 0 32
    let rs := upTo (if runs ≤ 64 then runs else 0)
    let left := rs.foldl (fun a r => a + (sfld b (24 + 16 * r) 0 32 - sfld b (28 + 16 * r) 0 32)) 0
    { reserved := anySet cmd [byteRange 44 63] || (ok && anySet b [byteRange 13 15]), blocks := [(a, n, 1)],
      length := decide (1048576 < out) || (ok && (runs == 0 || decide (64 < runs) ||
        rs.any (fun r => decide (sfld b (24 + 16 * r) 0 32 < sfld b (28 + 16 * r) 0 32)))),
      address := ok && (s.badExtent (sfld b 0 0 64 + 16 * sfld b 8 0 32) (16 * min out left) ||
        rs.any (fun r => s.badExtent (sfld b (16 + 16 * r) 0 64) (16 * sfld b (24 + 16 * r) 0 32))),
      space := closed, worst := (2000 * 20 + out * 3, 20) }
  else if op = 6 then
    let b := s.struct a 64 1
    let ok := s.readable a 64 1
    let n := sfld cmd 44 0 32
    let w := sfld b 12 0 16
    let h := sfld b 14 0 16
    let pp := sfld b 24 0 16
    let out (x : Nat) : Bool := x == 0 || decide (1024 < x)
    { reserved := anySet cmd [byteRange 48 63] || (ok && anySet b [byteRange 27 27, byteRange 48 63]), blocks := [(a, 64, 1)],
      length := decide (524288 < n) ||
        (ok && (decide (sfld b 8 0 32 < sfld cmd 40 0 32 + n) || out w || out h || out pp)),
      address := ok && (s.badExtent (sfld b 0 0 64) (16 * sfld b 8 0 32) || s.badExtent (sfld b 40 0 64) (4 * w * h) ||
        s.badExtent (sfld b 32 0 64 + 16 * sfld b 28 0 32) (16 * n)),
      space := closed, worst := (2000 * 4 + n + 65535, 4) }
  else if op = 7 then
    let k := sfld (s.struct a 64 1) 13 0 8
    let n := if 1 ≤ k ∧ k ≤ 128 then 64 + 4 * k else 64
    let b := s.struct a n 1
    let ok := s.readable a n 1
    let cnt := sfld cmd 44 0 32
    let foot := 16 + 16 * k + 8 * cnt * k
    let rb := sfld cmd 48 0 64
    { reserved := anySet cmd [byteRange 60 63] || (ok && (anySet b [byteRange 14 15, byteRange 28 63] ||
        (upTo ((n - 64) / 4)).any (fun i => sfld b (64 + 4 * i + 3) 0 8 != 0))), blocks := [(a, n, 1)],
      length := decide (65536 < cnt) || (ok && (decide (sfld b 24 0 32 < sfld cmd 40 0 32 + cnt) || k == 0 ||
        decide (128 < k) || decide (2 < sfld b 12 0 8))),
      address := s.badExtent rb (sfld cmd 56 0 32) || decide (rb % 8 ≠ 0) ||
        (ok && (s.badExtent (sfld b 0 0 64) (16 * sfld b 8 0 32) || s.badExtent (sfld b 16 0 64) (16 * sfld b 24 0 32))),
      space := if closed.isSome then closed else if ok ∧ sfld cmd 56 0 32 < foot then some foot else none,
      worst := (2000 * 4 + cnt * k, 4) }
  else { opcode := true }

/-! ### Frames (R290 to R296, R317, R332) -/

/-- The registers that show the open or last frame (R332). -/
def Side.plShow (s : Side) (f : PlFrame) : Side :=
  s.wr Reg.PL_LIVE (BitVec.ofNat 64 (f.c.accepted + f.c.voxels * 2 ^ 32))

/-- PL_OPEN (R293 to R295). -/
def plOpen (o : Op) (s : Side) : Side :=
  let b := o.block (o.f 40 0 64)
  let t := o.f 32 0 64
  let w (k : Nat) : Nat := sfld b k 0 32
  if w 16 = 0 then s.complete o stDone
  else if s.pl.isSome then s.complete o stFlagged 2
  else s.consume o 0x08 ((s.poseKeys t).map (fun k => (s.poseAddr k, 128))) [] fun s =>
    let p := s.poseAt t
    let f : PlFrame :=
      { t := t, pts := local46 (sfld b 0 0 64), vox := local46 (sfld b 8 0 64), cap := w 16, um := w 20, slice := w 24,
        past := w 28, future := w 32, minMm := w 36, maxMm := w 40, thinMm := s.fld Reg.PL_THIN 0 32, pose := p, table := [],
        badEntries := [], c := ⟨0, 0, 0, 0, 0, 0, 0, 0, 0, 0, 0, 0, 0, 0⟩, first := [none, none, none],
        egoMin := match p with | some p => p.src | none => 0,
        streams := 0, lame := 0, stamps := none, thinning := false, far := [] }
    let s : Side := { s with pl := some f }
    let s := ((s.plShow f).wr Reg.PL_OPENT (BitVec.ofNat 64 t)).put Reg.PL_CTRL 2 1 1
    if p.isSome then s.complete o stDone 0 else s.complete o stFlagged 1

/-- The open frame is released (R290, R292). -/
def Side.plRelease (s : Side) : Side :=
  let s : Side := { s with pl := none }
  (s.wr Reg.PL_OPENT 0).put Reg.PL_CTRL 2 1 0

/-- The 128 bytes of a frame header (R317). -/
def PlFrame.header (f : PlFrame) (side : Nat) : List Byte :=
  let c4 (v : Nat) : List Byte := toBytes 4 (min v 0xFFFF_FFFF)
  let sl (i : Nat) : List Byte := match f.first.getD i none with
    | some (j, _) => toBytes 2 (unsigned 16 j) | none => toBytes 2 0x8000
  let st (i : Nat) : List Byte := match f.first.getD i none with
    | some (_, g) => toBytes 1 g | none => toBytes 1 0xFF
  let spill := (f.table.filter (fun e => decide (2 ^ 21 ≤ e.1))).length
  let (lo, hi) := f.stamps.getD (0, 0)
  toBytes 8 f.t ++ c4 f.c.accepted ++ c4 f.c.voxels ++ c4 f.c.thinned ++ c4 f.c.dropped ++ c4 f.c.lost ++ sl 0 ++ sl 1 ++ sl 2 ++
    st 0 ++ st 1 ++ st 2 ++ toBytes 1 side ++ toBytes 1 (match f.pose with | some p => p.src | none => 0) ++
    toBytes 1 (if f.c.undeskewed = 0 then f.egoMin else 0) ++ c4 f.c.empty ++ c4 f.c.outWindow ++ c4 f.c.filtered ++
    c4 f.c.outGrid ++ c4 f.c.undeskewed ++ c4 f.c.badPkt ++ c4 f.c.truncPkt ++ c4 f.c.poisonPkt ++ toBytes 4 f.streams ++
    toBytes 4 f.lame ++ c4 spill ++ c4 f.c.tableErr ++ toBytes 8 (unsigned 64 lo) ++ toBytes 8 (unsigned 64 hi) ++
    toBytes 4 f.cap ++ toBytes 4 f.um ++ toBytes 4 f.slice ++ toBytes 12 0

/-- PL_CLOSE (R296, R317). -/
def plClose (o : Op) (s : Side) : Side :=
  match s.pl with
  | some f =>
      if f.t ≠ o.f 32 0 64 then s.complete o stFlagged (2 ^ 63)
      else
        let (s, met) := s.scatter 0x08 (goodAt (local46 (o.f 40 0 64)) (f.header s.id))
        let s := s.count Reg.PL_CNT 48 16
        let s := if 0 < f.c.thinned then s.count Reg.PL_CNT 32 16 else s
        let s := if 0 < f.c.dropped then s.count Reg.PL_CNT 16 16 else s
        let s := if 0 < f.c.lost then s.count Reg.PL_CNT 0 16 else s
        let s := s.plRelease
        s.finish o met (if f.c.thinned + f.c.dropped + f.c.lost = 0 then stDone else stFlagged)
          (f.c.accepted + f.c.voxels % 2 ^ 22 * 2 ^ 32)
  | none => s.complete o stFlagged (2 ^ 63)

/-- The address of the voxel table (R291). -/
def Side.plTable (s : Side) : Nat := s.fld Reg.PL_TBASE 20 44 * 2 ^ 20

/-- PILLAR_ENABLE (R291, R292, R333). -/
def Side.pillarEnable (s : Side) (on : Bool) : Side :=
  if s.flag Reg.PL_CTRL 0 = on then s
  else if on then
    let a := s.plTable
    let l := local46 a
    if s.loc a = some l ∧ 0x3000_0000_0000 ≤ l ∧ l + 33 * 2 ^ 20 ≤ 0x3000_0400_0000 then
      (s.put Reg.PL_CTRL 0 1 1).addGuard ⟨0x0800, l, l + 33 * 2 ^ 20, 0x08, true, none⟩
    else s.put Reg.PL_CTRL 1 1 1
  else ((s.plRelease).put Reg.PL_CTRL 0 1 0).dropGuard 0x0800

/-! ### The path of a point (R305 to R314) -/

/-- The floor of a number times a natural over a positive one, exactly; none for NaN and infinities. -/
def FVal.floorMul (v : FVal) (n d : Nat) : Option Int :=
  match v with
  | .fin s m e =>
      let x : Int := if s then -((m * n : Nat) : Int) else ((m * n : Nat) : Int)
      some (if 0 ≤ e then (x * ((2 ^ e.toNat : Nat) : Int)).fdiv (d : Int) else x.fdiv ((d * 2 ^ (-e).toNat : Nat) : Int))
  | _ => none

/-- The voxel coordinate of a coordinate (R309). -/
def voxCoord (um : Nat) (c : FVal) : Option Nat :=
  match c.floorMul 1000000 um with
  | some i => if 0 ≤ i + 2 ^ 20 ∧ i + 2 ^ 20 < 2 ^ 21 then some (i + 2 ^ 20).toNat else none
  | none => none

/-- A point of a packet as decoded (R305): its coordinates, whether it is EMPTY by its zeros, its stamp, intensity and place. -/
structure PlPoint where
  p : V3
  zero : Bool
  stamp : Int
  inten : Nat
  slot : Nat
  chain : Nat
  pos : Nat
  deriving DecidableEq, Repr

/-- A coordinate field in its format and the bytes it takes (R299, R305). -/
def coordVal (cfmt v : Nat) (scale : FVal) : FVal :=
  if cfmt = 0 then of32 (v % 2 ^ 32)
  else if cfmt = 1 then (FVal.ofInt (signed 32 v)).mul scale
  else (FVal.ofInt (signed 16 v)).mul scale

/-- A polar point (R305): each coordinate the FP32 value nearest the exact result. -/
def polar (r az el : FVal) : V3 :=
  if r.isFin && az.isFin && el.isFin then
    let ce := fxCos (toFx el)
    let k (x : Int) : FVal := r32 (r.mul (ofFx x))
    ⟨k (fxMul ce (fxCos (toFx az))), k (fxMul ce (fxSin (toFx az))), k (fxSin (toFx el))⟩
  else ⟨.nan, .nan, .nan⟩

/-- A point decoded from the bytes at an address under a layout block (R299, R305). -/
def Side.plDecode (s : Side) (b a slot chain n : Nat) (src : Nat) : PlPoint :=
  let cf := sfld b 18 1 2
  let w := if cf = 2 then 2 else 4
  let fld (o : Nat) : Nat := s.num (a + sfld b o 0 16) w
  let sc := of32 (sfld b 20 0 32)
  let asc := of32 (sfld b 24 0 32)
  let tf := sfld b 18 3 2
  let time := if tf = 2 then 0 else s.num (a + sfld b 14 0 16) (if tf = 0 then 4 else 2) * sfld b 28 0 32
  let io := sfld b 16 0 16
  let x := coordVal cf (fld 8) sc
  let (p, zero) : V3 × Bool :=
    if sfld b 18 0 1 = 0 then
      let p : V3 := ⟨r32 x, r32 (coordVal cf (fld 10) sc), r32 (coordVal cf (fld 12) sc)⟩
      (p, p.x.isZero && p.y.isZero && p.z.isZero)
    else (polar x (coordVal cf (fld 10) asc) (coordVal cf (fld 12) asc), x.isZero)
  ⟨p, zero, (src + time : Nat), if io = 0xFFFF then 0 else s.num (a + io) 1, slot, chain, n⟩

/-- Whether a squared length in m² is below, or above, a distance in mm, exactly. -/
def sqCompare (d2 : FVal) (mm : Nat) : Bool × Bool :=
  let a := d2.mul (FVal.ofInt 1000000)
  let b := FVal.ofInt (mm * mm : Nat)
  (a.lt b, b.lt a)

/-- P = q_T⁻¹ · (q_s · (q_e · p + t_e) + p_s − p_T) in FP64, rounded once to FP32. -/
def plPlace (b : Nat) (pT pS : Pose) (p : V3) : V3 :=
  let w (k : Nat) : Nat := sfld b (32 + 4 * k) 0 32
  let qe := Quat.of flt32 [w 0, w 1, w 2, w 3]
  let te := V3.of flt32 [w 4, w 5, w 6]
  let inner := (qe.rotate p).add te
  let q := ((Quat.of flt32 pS.q).rotate inner).add ((V3.of flt64 pS.pos).sub (V3.of flt64 pT.pos))
  let r := (Quat.of flt32 pT.q).conj.rotate q
  ⟨r32 r.x, r32 r.y, r32 r.z⟩

/-- The pose that stands for none: no rotation and no displacement. -/
def poseNone : Pose := ⟨0, [0, 0, 0], [0x3F800000, 0, 0, 0], [0, 0, 0], [0, 0, 0]⟩

/-- One probe sequence of R311 over an area of `size` entries whose first has the number `base`: the entry and whether it
is empty, none where 16 entries hold other keys, with the entries found uncorrectable (R314). -/
def plProbe (f : PlFrame) (errs : List Nat) (key base size home : Nat) : Nat → Nat → List Nat → Option (Nat × Bool) × List Nat
  | 0, _, bad => (none, bad)
  | n + 1, i, bad =>
      let e := base + (home + i) % size
      if f.badEntries.contains e ∨ bad.contains e then plProbe f errs key base size home n (i + 1) bad
      else if errs.contains e then plProbe f errs key base size home n (i + 1) (bad ++ [e])
      else match f.table.find? (fun c => c.1 == e) with
        | none => (some (e, true), bad)
        | some c => if c.2.key = key then (some (e, false), bad) else plProbe f errs key base size home n (i + 1) bad

/-- The comparison of R313: whether the new point wins. -/
def plWins (a b : PlCell) : Bool :=
  if a.stamp ≠ b.stamp then decide (b.stamp < a.stamp)
  else
    let x := of64 a.d2
    let y := of64 b.d2
    if x.lt y then true else if y.lt x then false
    else if a.stream ≠ b.stream then decide (a.stream < b.stream)
    else if a.chain ≠ b.chain then chainBefore a.chain b.chain
    else decide (a.pos < b.pos)

/-- What a PL_INGEST accumulates: the frame, the writes to memory, the accepted points, whether a point was thinned, dropped
or lost, and whether a table entry was uncorrectable. -/
structure PlRun where
  f : PlFrame
  ws : List (Nat × Byte × Bool)
  took : Nat
  limited : Bool
  skipped : Bool
  poison : Bool
  tabErr : Bool
  deriving DecidableEq, Repr

/-- The first point counted as THINNED (0), DROPPED (1) or LOST_CELL (2), with its slice and stream (R317). -/
def PlFrame.note (f : PlFrame) (i : Nat) (j : Int) (g : Nat) : PlFrame :=
  if (f.first.getD i none).isSome then f else { f with first := setAt f.first i (some (j, g)) }

/-- A point offered to its voxel (R310 to R314): the run after it, and whether its cell was lost. -/
def plOffer (r : PlRun) (errs : List Nat) (key row : Nat) (new : PlCell) : PlRun × Bool :=
  let f := r.f
  let h1 := (key * 0x9E3779B97F4A7C15 % 2 ^ 64) >>> 43
  let h2 := (key * 0xC2B2AE3D27D4EB4F % 2 ^ 64) >>> 48
  let (m, bad) := plProbe f errs key 0 (2 ^ 21) h1 16 0 []
  let (at?, bad) := match m with
    | some x => (some x, bad)
    | none => plProbe f errs key (2 ^ 21) 65536 h2 16 0 bad
  let f := { f with badEntries := bad.foldl nsAdd f.badEntries, c := { f.c with tableErr := f.c.tableErr + bad.length } }
  let r := { r with tabErr := r.tabErr || !bad.isEmpty }
  match at? with
  | none => ({ r with f := { f with c := { f.c with lost := f.c.lost + 1 } }, limited := true }, true)
  | some (e, true) =>
      let o := f.c.voxels
      ({ r with f := { f with table := alSet f.table e { new with ord := o }, c := { f.c with voxels := o + 1 } },
                ws := r.ws ++ goodAt (f.vox + 4 * o) (toBytes 4 row) }, false)
  | some (e, false) =>
      match f.table.find? (fun c => c.1 == e) with
      | none => ({ r with f := f }, false)
      | some c =>
          if plWins new c.2 then
            ({ r with f := { f with table := alSet f.table e { new with ord := c.2.ord } },
                      ws := r.ws ++ goodAt (f.vox + 4 * c.2.ord) (toBytes 4 row) }, false)
          else ({ r with f := f }, false)

/-- One point on the path of R308. -/
def Side.plPoint (s : Side) (b : Nat) (errs : List Nat) (r : PlRun) (q : PlPoint) : PlRun :=
  let f := r.f
  let c := f.c
  let g := q.slot + 32 * s.id
  let rel : Int := q.stamp - f.t
  let d2 := ((q.p.x.mul q.p.x).add (q.p.y.mul q.p.y)).add (q.p.z.mul q.p.z)
  if q.zero || !(q.p.x.isFin && q.p.y.isFin && q.p.z.isFin) then { r with f := { f with c := { c with empty := c.empty + 1 } } }
  else if rel < -(f.past : Int) ∨ (f.future : Int) < rel then { r with f := { f with c := { c with outWindow := c.outWindow + 1 } } }
  else if (sqCompare d2 f.minMm).1 || (sqCompare d2 f.maxMm).2 then { r with f := { f with c := { c with filtered := c.filtered + 1 } } }
  else
    let j := rel.fdiv (f.slice : Int)
    let mid : Int := f.t + j * f.slice + (f.slice / 2 : Nat)
    let bad := f.pose.isSome && decide (0 ≤ mid) && s.posePoison mid.toNat
    let r := if bad then { r with poison := true } else r
    let pS := if f.pose.isSome && decide (0 ≤ mid) && !bad then s.poseAt mid.toNat else none
    let pT := f.pose.getD poseNone
    let und := pS.isNone
    let p := plPlace b pT (pS.getD pT) q.p
    let f := if und then { f with c := { f.c with undeskewed := f.c.undeskewed + 1 } }
      else { f with egoMin := min f.egoMin (pS.getD pT).src }
    match voxCoord f.um p.x, voxCoord f.um p.y, voxCoord f.um p.z with
    | some vx, some vy, some vz =>
        let far := (sqCompare ((p.x.mul p.x).add (p.y.mul p.y)) f.thinMm).2
        let idx := alGet 0 f.far q.slot
        let f := if far then { f with far := alSet f.far q.slot (idx + 1) } else f
        if f.thinning ∧ far ∧ idx % 2 = 1 then
          { r with f := ({ f with c := { f.c with thinned := f.c.thinned + 1 } }).note 0 j g, limited := true }
        else if f.c.accepted = f.cap then
          { r with f := ({ f with c := { f.c with dropped := f.c.dropped + 1 } }).note 1 j g, limited := true }
        else
          let row := f.c.accepted
          let key := vx + vy * 2 ^ 21 + vz * 2 ^ 42
          let centre (v : Nat) : FVal := r64 (FVal.ratio ((2 * (v : Int) - 2 ^ 21 + 1) * f.um) 2000000)
          let dx := sub64 p.x (centre vx)
          let dy := sub64 p.y (centre vy)
          let dz := sub64 p.z (centre vz)
          let dd := add64 (add64 (mul64 dx dx) (mul64 dy dy)) (mul64 dz dz)
          let new : PlCell := ⟨key, 0, row, q.stamp, to64 dd, g, q.chain, q.pos⟩
          let (r, lost) := plOffer { r with f := f, took := r.took + 1 } errs key row new
          let f := r.f
          let f := if lost then f.note 2 j g else f
          let bytes := (toBytes 4 (to32 p.x) ++ toBytes 4 (to32 p.y) ++ toBytes 4 (to32 p.z)) ++ toBytes 4 (unsigned 32 rel) ++
            toBytes 8 key ++ toBytes 1 (g + (if lost then 64 else 0) + (if und then 128 else 0)) ++ toBytes 1 q.inten ++
            toBytes 2 (unsigned 16 j) ++ toBytes 4 q.chain
          let stamps := match f.stamps with
            | none => (q.stamp, q.stamp)
            | some (a, z) => (min a q.stamp, max z q.stamp)
          { r with ws := r.ws ++ goodAt (f.pts + 32 * row) bytes,
                   f := { f with c := { f.c with accepted := row + 1 }, stamps := some stamps,
                                 streams := if bitAt f.streams q.slot then f.streams else f.streams + 2 ^ q.slot,
                                 thinning := f.thinning || decide (f.cap - f.cap / 8 ≤ row + 1) } }
    | _, _, _ => { r with f := { f with c := { f.c with outGrid := f.c.outGrid + 1 } } }

/-- The bytes that a point is decoded from, at an address under a layout block (R299). -/
def plFields (b a : Nat) : List (Nat × Nat) :=
  let w := if sfld b 18 1 2 = 2 then 2 else 4
  let tf := sfld b 18 3 2
  [(a + sfld b 8 0 16, w), (a + sfld b 10 0 16, w), (a + sfld b 12 0 16, w)] ++
    (if tf = 2 then [] else [(a + sfld b 14 0 16, if tf = 0 then 4 else 2)]) ++
    (if sfld b 16 0 16 = 0xFFFF then [] else [(a + sfld b 16 0 16, 1)])

/-- One packet of the list (R302 to R304), against the landing counters at the start of the command. -/
def Side.plPacket (s : Side) (b slot release write : Nat) (errs : List Nat) (r : PlRun) (e : Nat) : PlRun :=
  let src := sfld e 0 0 64
  let chain := sfld e 8 0 32
  let pos := sfld e 12 0 32
  let len := sfld e 16 0 32
  let d (a : Nat) : Nat := (a + 2 ^ 32 - release % 2 ^ 32) % 2 ^ 32
  if len = 0 ∨ s.maxSample slot < len ∨ src = 0 ∨ d write < d pos + len then
    { r with f := { r.f with c := { r.f.c with badPkt := r.f.c.badPkt + 1 } }, skipped := true }
  else
    let a := local46 (s.ringBase slot) + pos % s.ringSize slot
    let off := sfld b 0 0 16
    let stride := sfld b 2 0 16
    let nmax := sfld b 4 0 16
    let co := sfld b 6 0 16
    let fits := (len - off) / stride
    let cnt := if co = 0xFFFF then fits else s.num (a + co) 2
    let n := min (min cnt nmax) fits
    let trunc := decide (nmax < cnt) || decide (fits < cnt)
    if (co != 0xFFFF && s.poisoned (a + co) 2) ||
        (upTo n).any (fun k => (plFields b (a + off + k * stride)).any (fun e => s.poisoned e.1 e.2)) then
      { r with f := { r.f with c := { r.f.c with poisonPkt := r.f.c.poisonPkt + 1 } }, skipped := true, poison := true }
    else
      let r := if trunc then
          { r with f := { r.f with c := { r.f.c with truncPkt := r.f.c.truncPkt + 1 } }, skipped := true } else r
      (upTo n).foldl (fun r k => s.plPoint b errs r (s.plDecode b (a + off + k * stride) slot chain k src)) r

/-- The packets that a PL_INGEST names read in turn into the open frame (R302 to R314). The landing counters of the slot at the start of
the command stand in `pages`; `tabErrs` are the table entries whose probe meets an uncorrectable error. -/
def Side.ingestRun (s : Side) (tabErrs : List Nat) (o : Op) (f : PlFrame) : PlRun :=
  let list := local46 (o.f 40 0 64)
  ((upTo (o.f 56 0 16)).map (fun i => s.num (list + 24 * i) 24)).foldl
    (s.plPacket (o.block (o.f 48 0 64)) (o.f 58 0 5) (o.pages.getD 0 0) (o.pages.getD 1 0) tabErrs) ⟨f, [], 0, false, false, false, false⟩

/-- The flags that a PL_INGEST sets in RESULT for packets skipped and points limited (R298). -/
def PlRun.flags (r : PlRun) : Nat := (if r.skipped then 8 else 0) + (if r.limited then 16 else 0)

/-- Why a PL_INGEST into an open frame, or into none, takes no packet (R298): no frame of its T open, its slot not one that ingests, its
stream lame. -/
def Side.ingestBars (s : Side) (o : Op) : Nat :=
  let slot := o.f 58 0 5
  let start := match o.run with | some (_, t) => t | none => s.now
  (if (s.pl.filter (fun f => f.t == o.f 32 0 64)).isNone then 1 else 0) +
    (if !(s.slotOn slot) || s.kind slot != 1 || !(s.lands slot) then 2 else 0) + (if s.streamState slot start == 2 then 4 else 0)

/-- PL_INGEST (R297 to R314). -/
def plIngest (tabErrs : List Nat) (o : Op) (s : Side) : Side :=
  let slot := o.f 58 0 5
  let n := o.f 56 0 16
  let why := s.ingestBars o
  if n = 0 then s.complete o stDone
  else match s.pl.filter (fun f => f.t == o.f 32 0 64) with
    | none => s.complete o stFlagged (why * 2 ^ 32)
    | some f =>
        if why ≠ 0 then
          let f := { f with lame := if 4 ≤ why ∧ bitAt f.lame slot = false then f.lame + 2 ^ slot else f.lame }
          let s : Side := { s with pl := some f }
          s.complete o stFlagged (why * 2 ^ 32)
        else s.consume o 0x08 [(local46 (o.f 40 0 64), 24 * n)] [] fun s =>
          let r := s.ingestRun tabErrs o f
          let (s, met) := s.scatter 0x08 r.ws
          let s : Side := { s with pl := some r.f }
          (s.plShow r.f).finish o met (if r.poison || r.tabErr then stPoison else if r.flags = 0 then stDone else stFlagged)
            (r.took + r.flags * 2 ^ 32)

/-! ### Morton order (R318 to R322) -/

/-- The bits of a coordinate spread `step` apart from bit `lo`. -/
def spread (step lo v : Nat) : Nat := (upTo 21).foldl (fun a i => if bitAt v i then a + 2 ^ (lo + step * i) else a) 0

/-- The bits of a key gathered `step` apart from bit `lo`. -/
def gather (step lo v : Nat) : Nat := (upTo 21).foldl (fun a i => if bitAt v (lo + step * i) then a + 2 ^ i else a) 0

/-- The key of R318 from a voxel key. -/
def mortonKey (mode coarsen pshift vkey : Nat) : Nat :=
  let vx := bits vkey 0 21 >>> coarsen
  let vy := bits vkey 21 21 >>> coarsen
  let vz := bits vkey 42 21 >>> coarsen
  if mode = 0 then spread 3 0 vx + spread 3 1 vy + spread 3 2 vz
  else spread 2 21 (vx >>> pshift) + spread 2 22 (vy >>> pshift) + vz

/-- The order of R318: by key, then by row. -/
def entryLe (a b : Nat × Nat) : Bool := decide (a.1 < b.1) || (a.1 == b.1 && decide (a.2 ≤ b.2))

/-- The 16 bytes of a sort entry. -/
def entryBytes (e : Nat × Nat) : List Byte := toBytes 8 e.1 ++ toBytes 4 e.2 ++ toBytes 4 0

/-- DEDUP (R319): an entry whose key equals that of the entry written just before it is dropped. -/
def dedup (on : Bool) (last : Option Nat) : List (Nat × Nat) → List (Nat × Nat)
  | [] => []
  | e :: r => if on && last == some e.1 then dedup on last r else e :: dedup on (some e.1) r

/-- What a pass of the Pillar over memory comes to: the extents it reads, its byte writes, its RESULT. -/
structure PlPass where
  reads : List (Nat × Nat)
  ws : List (Nat × Byte × Bool)
  result : Nat
  deriving DecidableEq, Repr

/-- A pass of the Pillar made, and its command ended (R446, R760). -/
def Side.pass (s : Side) (o : Op) (p : PlPass) : Side :=
  s.consume o 0x08 p.reads p.ws fun s =>
    let (s, met) := s.scatter 0x08 p.ws
    s.finish o met stDone p.result

/-- The entries of a PL_SORT's rows in order (R318 to R320). -/
def Side.sortPass (s : Side) (o : Op) : PlPass :=
  let b := o.block (o.f 32 0 64)
  let first := o.f 40 0 32
  let n := o.f 44 0 32
  let pts := local46 (sfld b 0 0 64)
  let vox := local46 (sfld b 8 0 64)
  let listed := sfld b 8 0 64 != 0
  let rows := (upTo n).map (fun i => if listed then s.num (vox + 4 * (first + i)) 4 else first + i)
  let es := rows.map (fun r =>
    (mortonKey (sfld b 24 0 2) (sfld b 25 0 8) (sfld b 26 0 8) (s.num (pts + 32 * r + 16) 8), r))
  let out := dedup (sfld b 24 2 1 == 1) none (es.mergeSort entryLe)
  ⟨(if listed then [(vox + 4 * first, 4 * n)] else []) ++ rows.map (fun r => (pts + 32 * r + 16, 8)),
    goodAt (local46 (sfld b 16 0 64)) (out.map entryBytes).flatten, out.length⟩

/-- PL_SORT (R318 to R320). -/
def plSort (o : Op) (s : Side) : Side := if o.f 44 0 32 = 0 then s.complete o stDone else s.pass o (s.sortPass o)

/-- The entry at an address. -/
def Side.entryAt (s : Side) (a : Nat) : Nat × Nat := (s.num a 8, s.num (a + 8) 4)

/-- The next entries of a merge (R322): up to `fuel` of them in order of key, row and run, with the cursors after. Each run
is its index, address, count and cursor. -/
def Side.mergeTake (s : Side) : Nat → List (Nat × Nat × Nat × Nat) → List (Nat × Nat) → List (Nat × Nat) × List (Nat × Nat × Nat × Nat)
  | 0, runs, acc => (acc.reverse, runs)
  | n + 1, runs, acc =>
      let heads := (runs.filter (fun r => decide (r.2.2.2 < r.2.2.1))).map (fun r => (r.1, s.entryAt (r.2.1 + 16 * r.2.2.2)))
      match heads with
      | [] => (acc.reverse, runs)
      | h :: t =>
          let best := t.foldl (fun a x => if entryLe a.2 x.2 then a else x) h
          s.mergeTake n (runs.map (fun r => if r.1 = best.1 then (r.1, r.2.1, r.2.2.1, r.2.2.2 + 1) else r)) (best.2 :: acc)

/-- The next entries of a PL_MERGE, the counts of its descriptor moved on (R321, R322). -/
def Side.mergePass (s : Side) (o : Op) : PlPass :=
  let a := o.f 32 0 64
  let b := o.block a
  let n := o.f 40 0 32
  let out := local46 (sfld b 0 0 64)
  let cur := sfld b 8 0 32
  let ded := sfld b 12 7 1 == 1
  let runs := (upTo (sfld b 12 0 7)).map (fun r =>
    (r, local46 (sfld b (16 + 16 * r) 0 64), sfld b (24 + 16 * r) 0 32, sfld b (28 + 16 * r) 0 32))
  let (es, runs') := s.mergeTake n runs []
  let last := if 0 < cur ∧ ded then some (s.entryAt (out + 16 * (cur - 1))).1 else none
  let kept := dedup ded last es
  let l := local46 a
  let done := runs'.all (fun r => decide (r.2.2.1 ≤ r.2.2.2))
  ⟨(runs.zip runs').map (fun p => (p.1.2.1 + 16 * p.1.2.2.2, 16 * (p.2.2.2.2 - p.1.2.2.2))) ++
      (if last.isSome then [(out + 16 * (cur - 1), 16)] else []),
    goodAt (out + 16 * cur) (kept.map entryBytes).flatten ++ goodAt (l + 8) (toBytes 4 (cur + kept.length)) ++
      (runs'.map (fun r => goodAt (l + 28 + 16 * r.1) (toBytes 4 r.2.2.2))).flatten,
    kept.length + if done then 2 ^ 63 else 0⟩

/-- PL_MERGE (R321, R322). -/
def plMerge (o : Op) (s : Side) : Side := if o.f 40 0 32 = 0 then s.complete o stDone else s.pass o (s.mergePass o)

/-! ### Pillars and rule books (R323 to R329) -/

/-- The run of equal pillar bits from entry `i`: how many entries, of at most `fuel` (R324). -/
def Side.pillarRun (s : Side) (base n key : Nat) : Nat → Nat → Nat
  | 0, _ => 0
  | f + 1, i => if i < n ∧ bits (s.num (base + 16 * i) 8) 21 42 = key then 1 + s.pillarRun base n key f (i + 1) else 0

/-- The pillars that a PL_PILLAR finds, and where they stand on its grid (R323 to R325). -/
def Side.pillarPass (s : Side) (o : Op) : PlPass :=
  let a := o.f 32 0 64
  let b := o.block a
  let first := o.f 40 0 32
  let cnt := o.f 44 0 32
  let base := local46 (sfld b 0 0 64)
  let n := sfld b 8 0 32
  let w := sfld b 12 0 16
  let h := sfld b 14 0 16
  let key (i : Nat) : Nat := bits (s.num (base + 16 * i) 8) 21 42
  let starts := ((upTo cnt).map (fun i => first + i)).filter (fun i => i == 0 || key i != key (i - 1))
  let cells : List (Int × Int × Nat × Nat) := starts.map (fun i =>
    ((gather 2 0 (key i) : Int) - (sfld b 16 0 32 : Nat), (gather 2 1 (key i) : Int) - (sfld b 20 0 32 : Nat), i, s.pillarRun base n (key i) 65535 i))
  let inside := cells.filter (fun (c : Int × Int × Nat × Nat) => decide (0 ≤ c.1) && decide (c.1 < (w : Int)) && decide (0 ≤ c.2.1) && decide (c.2.1 < (h : Int)))
  let ord0 := sfld b 28 0 32
  let ws := ((upTo inside.length).zip inside).map (fun (e : Nat × Int × Int × Nat × Nat) =>
    let ord := ord0 + e.1
    let ix := e.2.1.toNat
    let iy := e.2.2.1.toNat
    goodAt (local46 (sfld b 32 0 64) + 16 * ord) (toBytes 2 ix ++ toBytes 2 iy ++ toBytes 4 e.2.2.2.1 ++ toBytes 2 e.2.2.2.2 ++
      toBytes 2 (min e.2.2.2.2 (sfld b 24 0 16)) ++ toBytes 4 0) ++
    goodAt (local46 (sfld b 40 0 64) + 4 * (iy * w + ix)) (toBytes 4 ord))
  let ws := ws.flatten ++ goodAt (local46 a + 28) (toBytes 4 (ord0 + inside.length))
  let beyond := match cells.getLast? with | some c => c.2.2.1 + c.2.2.2 | none => first + cnt
  let lo := if first = 0 then 0 else first - 1
  ⟨[(base + 16 * lo, 16 * (min n (max (beyond + 1) (first + cnt)) - lo))], ws,
    inside.length + (cells.length - inside.length) * 2 ^ 32⟩

/-- PL_PILLAR (R323 to R325). -/
def plPillar (o : Op) (s : Side) : Side := if o.f 44 0 32 = 0 then s.complete o stDone else s.pass o (s.pillarPass o)

/-- The coordinates that a MODE 0 key spells. -/
def mortonCoords (key : Nat) : List Nat := [gather 3 0 key, gather 3 1 key, gather 3 2 key]

/-- The rule-book chunk that a PL_RULES makes (R326 to R329). -/
def Side.rulesPass (s : Side) (o : Op) : PlPass :=
  let b := o.block (o.f 32 0 64)
  let first := o.f 40 0 32
  let cnt := o.f 44 0 32
  let k := sfld b 13 0 8
  let inB := local46 (sfld b 0 0 64)
  let nIn := sfld b 8 0 32
  let outB := local46 (sfld b 16 0 64)
  let keys := (upTo nIn).map (fun i => s.num (inB + 16 * i) 8 % 2 ^ 63)
  let rule (i : Nat) (r : Nat) : Option (Nat × Nat) :=
    let u := mortonCoords (s.num (outB + 16 * r) 8)
    let v := (upTo 3).map (fun a =>
      ((u.getD a 0 * 2 ^ sfld b 12 0 8 : Nat) : Int) + signed 8 (sfld b (64 + 4 * i + a) 0 8))
    if v.all (fun x => decide (0 ≤ x) && decide (x < 2 ^ 21)) then
      let c (a : Nat) : Nat := (v.getD a 0).toNat
      (keys.findIdx? (fun x => x == spread 3 0 (c 0) + spread 3 1 (c 1) + spread 3 2 (c 2))).map (fun j => (j, r))
    else none
  let segs := (upTo k).map (fun i => (upTo cnt).filterMap (fun j => rule i (first + j)))
  let total := segs.foldl (fun a g => a + g.length) 0
  let desc := (upTo k).map (fun i =>
    let before := (segs.take i).foldl (fun a g => a + g.length) 0
    toBytes 4 before ++ toBytes 4 (segs.getD i []).length ++ toBytes 1 (sfld b (64 + 4 * i) 0 8) ++
      toBytes 1 (sfld b (65 + 4 * i) 0 8) ++ toBytes 1 (sfld b (66 + 4 * i) 0 8) ++ toBytes 5 0)
  let bs := toBytes 4 first ++ toBytes 4 cnt ++ toBytes 1 k ++ toBytes 7 0 ++ desc.flatten ++
    (segs.map (fun g => (g.map (fun r => toBytes 4 r.1 ++ toBytes 4 r.2)).flatten)).flatten
  ⟨[(inB, 16 * nIn), (outB + 16 * first, 16 * cnt)], goodAt (local46 (o.f 48 0 64)) bs, total⟩

/-- PL_RULES (R326 to R329). -/
def plRules (o : Op) (s : Side) : Side := if o.f 44 0 32 = 0 then s.complete o stDone else s.pass o (s.rulesPass o)

end Sys2Proof.Machine
end

