-- ==== Sys2Proof/Machine/Plat.lean ====
section
/-!
DEFINITION. Machine/Plat.lean: the Plat fusion grid (R334 to R366): painting, the own half, the exchange, the merge and the
publication of epochs.
-/
namespace Sys2Proof.Machine

/-! ### Geometry (R334 to R337, R342) -/

/-- The Plat updated. -/
def Side.ptSet (s : Side) (f : Plat → Plat) : Side := { s with pt := f s.pt }

/-- PT_CTRL.ENABLE. -/
def Side.ptOn (s : Side) : Bool := s.flag Reg.PT_CTRL 0

/-- W, H, LAYERS and SLICES of PT_GEOM. -/
def Side.ptW (s : Side) : Nat := s.fld Reg.PT_GEOM 48 16
@[inherit_doc Side.ptW] def Side.ptH (s : Side) : Nat := s.fld Reg.PT_GEOM 32 16
@[inherit_doc Side.ptW] def Side.ptLayers (s : Side) : Nat := s.fld Reg.PT_GEOM 0 5
@[inherit_doc Side.ptW] def Side.ptSlices (s : Side) : Nat := s.fld Reg.PT_GEOM 5 6

/-- CUTOFF and PUB of PT_TIME. -/
def Side.ptCutoff (s : Side) : Nat := s.fld Reg.PT_TIME 0 32
@[inherit_doc Side.ptCutoff] def Side.ptPub (s : Side) : Nat := s.fld Reg.PT_TIME 32 32

/-- Bytes of an element of a layer format (R336). -/
def layerBytes (f : Nat) : Nat := if f = 0 then 4 else if f = 9 then 1 else 2

/-- The format of layer `l`, and its OP (R353). -/
def Side.layerFmt (s : Side) (l : Nat) : Nat := s.fld (Reg.PT_LAYER l) 0 4
@[inherit_doc Side.layerFmt] def Side.layerOp (s : Side) (l : Nat) : Nat := s.fld (Reg.PT_LAYER l) 4 4

/-- The offset of layer `l` in a cell; with LAYERS, that of the occupancy bytes (R335). -/
def Side.layerOff (s : Side) (l : Nat) : Nat := (upTo l).foldl (fun a k => a + layerBytes (s.layerFmt k)) 0

/-- CELL_BYTES of a grid, by the value of its GEOM (R335). -/
def Side.cellBytesOf (s : Side) (geom : Nat) : Nat := roundUp (s.layerOff (bits geom 0 5) + bits geom 5 6) 4

/-- CELL_BYTES (R335). -/
def Side.cellBytes (s : Side) : Nat := roundUp (s.layerOff s.ptLayers + s.ptSlices) 4

/-- The bytes of all cells, and of a whole buffer (R342). -/
def Side.gridBytes (s : Side) : Nat := s.ptW * s.ptH * s.cellBytes
@[inherit_doc Side.gridBytes] def Side.bufBytes (s : Side) : Nat := 512 + s.gridBytes + 131072

/-- The addresses of the own-half, receive and published buffers. -/
def Side.ptHalfBuf (s : Side) (h : Nat) : Nat := local46 (s.rd (Reg.PT_HBASE h)).toNat
@[inherit_doc Side.ptHalfBuf] def Side.ptRxBuf (s : Side) (h : Nat) : Nat := local46 (s.rd (Reg.PT_RXBASE h)).toNat
@[inherit_doc Side.ptHalfBuf] def Side.ptPubBuf (s : Side) (b : Nat) : Nat := local46 (s.rd (Reg.PT_PBASE b)).toNat

/-- The no-data element of a layer format (R336, R344). -/
def noData (f : Nat) : Nat := if f = 0 then 0x7FC00000 else if f = 2 then 0x7FC0 else if f = 3 then 0x7E00 else 0x80

/-- Whether an element of a layer format means no data. -/
def isNoData (f v : Nat) : Bool := if f = 9 then v % 256 == 0x80 else (fmtVal f v).isNan

/-- Whether a time is a validity time T_n (R39). -/
def Side.isFrameTime (s : Side) (t : Nat) : Bool :=
  s.framePeriod != 0 && decide (s.framePhase ≤ t) && (t - s.framePhase) % s.framePeriod == 0

/-- R350: the validity time a side collects at a time: the first, not merged yet, whose cut-off is not past. -/
def Side.ptCollect (s : Side) (t : Nat) : Nat :=
  if t ≤ s.pt.next + s.ptCutoff then s.pt.next
  else s.pt.next + ceilDiv (t - s.pt.next - s.ptCutoff) s.framePeriod * s.framePeriod

/-- PT_CTRL.SEALED and PT_CTRL.PEER (R365). -/
def Side.ptSealed (s : Side) : Bool := s.ptOn && s.pt.seals.any (fun h => h.t == s.ptCollect s.now)
@[inherit_doc Side.ptSealed] def Side.ptPeer (s : Side) : Bool :=
  s.ptOn && s.pt.halves.any (fun h => h.t == s.ptCollect s.now && !h.bad &&
    s.pt.tracks.any (fun k => k.t == h.t && !k.bad && decide (sfld h.header 20 0 16 ≤ k.count)))

/-! ### Admission (R339, R344, R345) -/

/-- What R338 to R345 say of the admission of a Plat command. -/
def ptChecks (s : Side) (cmd : Nat) : Checks :=
  let op := sfld cmd 0 0 8
  if op = 1 then
    let p := sfld cmd 32 0 64
    let b := s.struct p 128 8
    let ok := s.readable p 128 8
    let first := sfld cmd 40 0 32
    let n := sfld cmd 44 0 32
    let nch := sfld b 20 0 8
    let st := sfld b 16 0 16
    let off := sfld b 18 0 16
    let out (x hi : Nat) : Bool := x == 0 || decide (hi < x)
    { reserved := anySet cmd [byteRange 48 63] || (ok && anySet b [(22, 5, 3), byteRange 23 23, byteRange 84 87, byteRange 100 127]),
      blocks := [(p, 128, 8)], format := ok && sfld b 21 0 8 != 2 && sfld b 21 0 8 != 3,
      length := decide (4194304 < n) || (ok && (out nch 64 || out (sfld b 32 0 16) 4096 || out (sfld b 34 0 16) 4096 ||
        decide (st < 8) || decide (512 < st) || decide (st < off + 2 * nch) || st % 4 != 0 || off % 2 != 0 || decide (off < 4))),
      address := ok && (s.badExtent (sfld b 0 0 64 + 32 * first) (32 * n) || s.badExtent (sfld b 8 0 64 + st * first) (st * n) ||
        s.badExtent (sfld b 24 0 64) (2 * sfld b 32 0 16 * sfld b 34 0 16 * nch)),
      worst := (2000 + n * (2 + ceilDiv nch 8), 1) }
  else if op = 2 then
    let n := sfld cmd 38 0 16
    { reserved := anySet cmd [(32, 1, 7), byteRange 33 35, byteRange 40 63], length := decide (s.ptH < sfld cmd 36 0 16 + n),
      address := !(s.part.inNear (s.ptHalfBuf (sfld cmd 32 0 1)) s.bufBytes),
      worst := (2000 * 128 + n * s.ptW * s.cellBytes, 128) }
  else if op = 3 then
    let p := sfld cmd 40 0 64
    let b := s.struct p 64 1
    let ok := s.readable p 64 1
    let n := sfld b 24 0 16
    { reserved := anySet cmd [byteRange 48 63] || (ok && anySet b [(26, 3, 5), byteRange 27 63]), blocks := [(p, 64, 1)],
      format := ok && decide (5 ≤ sfld b 26 0 3), length := ok && decide (1024 < n),
      address := ok && (s.badExtent (sfld b 0 0 64) 4096 || (sfld b 8 0 64 != 0 && s.badExtent (sfld b 8 0 64) 128) ||
        s.badExtent (sfld b 16 0 64) (128 * n)),
      worst := (2000 + n * 20, 1) }
  else { opcode := true }

/-! ### Painting (R338 to R341) -/

/-- What a PT_PAINT comes to: the extents it reads, its byte writes, the rows it painted, and whether it moved them between two poses. -/
structure PaintPass where
  reads : List (Nat × Nat)
  ws : List (Nat × Byte × Bool)
  rows : Nat
  posed : Bool
  deriving DecidableEq, Repr

/-- The rows of a PT_PAINT that fall on its image, each given its pixel's features (R340, R341). T is the validity time the Plat collects
when the command starts. -/
def Side.paintPass (s : Side) (o : Op) : PaintPass :=
  let b := o.block (o.f 32 0 64)
  let first := o.f 40 0 32
  let n := o.f 44 0 32
  let start := match o.run with | some (_, t) => t | none => s.now
  let w (k : Nat) : Nat := sfld b k 0 32
  let nch := sfld b 20 0 8
  let fw := sfld b 32 0 16
  let fh := sfld b 34 0 16
  let poses := if s.ptOn then (s.poseAt (s.ptCollect start), s.poseAt (sfld b 88 0 64)) else (none, none)
  let pts := local46 (sfld b 0 0 64)
  let out := local46 (sfld b 8 0 64)
  let feat := local46 (sfld b 24 0 64)
  let move (p : V3) : V3 := match poses with
    | (some a, some c) => (Quat.of flt32 c.q).conj.rotate
        ((((Quat.of flt32 a.q).rotate p).add (V3.of flt64 a.pos)).sub (V3.of flt64 c.pos))
    | _ => p
  let pixel (r : Nat) : Option (Nat × Nat) :=
    let v := s.num (pts + 32 * r) 12
    let p := move (V3.of flt32 [sfld v 0 0 32, sfld v 4 0 32, sfld v 8 0 32])
    let x := ((Quat.of flt32 [w 56, w 60, w 64, w 68]).conj).rotate (p.sub (V3.of flt32 [w 72, w 76, w 80]))
    if !(x.x.isFin && x.y.isFin && x.z.isFin) || x.z.lt (of32 (w 96)) then none
    else
      let f (k c : Nat) (q : FVal) : Option Int :=
        (mul64 (add64 (div64 (mul64 (of32 (w k)) q) x.z) (of32 (w c))) (of32 (w 36))).floor
      match f 40 48 x.x, f 44 52 x.y with
      | some fu, some fv =>
          if 0 ≤ fu ∧ fu < (fw : Int) ∧ 0 ≤ fv ∧ fv < (fh : Int) then some (fu.toNat, fv.toNat) else none
      | _, _ => none
  let rows := (upTo n).filterMap (fun i => (pixel (first + i)).map (fun px => (first + i, px)))
  let src (px : Nat × Nat) : Nat := feat + (px.2 * fw + px.1) * nch * 2
  let ws := (rows.map (fun (e : Nat × Nat × Nat) =>
    let d := out + e.1 * sfld b 16 0 16
    let m := s.num d 4
    let bit := sfld b 22 0 5
    goodAt (d + sfld b 18 0 16) (s.bytes (src e.2) (2 * nch)) ++
      goodAt d (toBytes 4 (if bitAt m bit then m else m + 2 ^ bit)))).flatten
  let comp := match poses with | (some _, some _) => true | _ => false
  let seen := if s.ptOn then (s.poseKeys (s.ptCollect start) ++ s.poseKeys (sfld b 88 0 64)).map (fun k => (s.poseAddr k, 128)) else []
  ⟨seen ++ [(pts + 32 * first, 32 * n)] ++ rows.map (fun e => (src e.2, 2 * nch)) ++
    rows.map (fun e => (out + e.1 * sfld b 16 0 16, 4)), ws, rows.length, comp⟩

/-- PT_PAINT (R340, R341). -/
def ptPaint (o : Op) (s : Side) : Side :=
  if o.f 44 0 32 = 0 then s.complete o stDone
  else
    let p := s.paintPass o
    s.consume o 0x09 p.reads p.ws fun s =>
      let (s, met) := s.scatter 0x09 p.ws
      s.finish o met (if p.posed then stDone else stFlagged) (p.rows + if p.posed then 0 else 2 ^ 32)

/-! ### The own half (R342 to R349) -/

/-- The bytes of a cell without data (R344). -/
def Side.blankCell (s : Side) : List Byte :=
  let ls := ((upTo s.ptLayers).map (fun l => toBytes (layerBytes (s.layerFmt l)) (noData (s.layerFmt l)))).flatten
  let bs := ls ++ List.replicate s.ptSlices 0xFF
  bs ++ List.replicate (s.cellBytes - bs.length) 0

/-- Whether own-half buffer `h` is sealed (R343). -/
def Side.ptBufSealed (s : Side) (h : Nat) : Bool := s.guards.any (fun g => g.key == 0x0900 + h && g.holds s.now)

/-- PT_BLANK (R344). -/
def ptBlank (o : Op) (s : Side) : Side :=
  let h := o.f 32 0 1
  let first := o.f 36 0 16
  let n := o.f 38 0 16
  if n = 0 then s.complete o stDone
  else if s.ptBufSealed h then s.complete o stFlagged (2 ^ 63)
  else
    let a := s.ptHalfBuf h + 512 + first * s.ptW * s.cellBytes
    let (s, met) := s.scatter 0x09 (goodAt a (List.replicate (n * s.ptW) s.blankCell).flatten)
    s.finish o met stDone 0

/-- Bytes 64 to 127 of a half header: this side's geometry (R347, R351). -/
def Side.ptGeometry (s : Side) : List Byte :=
  toBytes 8 (s.rd Reg.PT_GEOM).toNat ++ toBytes 8 (s.rd Reg.PT_ORIGIN).toNat ++ toBytes 4 (s.fld Reg.PT_SLICE 0 16) ++
    ((upTo 16).map (fun l => toBytes 1 (s.fld (Reg.PT_LAYER l) 0 8))).flatten ++ toBytes 28 0

/-- The lesser non-zero of two numbers, 0 where both are 0. -/
def leastNonZero (a b : Nat) : Nat := if a = 0 then b else if b = 0 then a else min a b

/-- CHAIN_LAST of the entry of slot `i` in an alignment record (R261, R262). -/
def recordChain (rcd i : Nat) : Nat :=
  match (upTo (sfld rcd 22 0 16)).find? (fun k => sfld rcd (128 + 96 * k) 0 8 == i) with
  | some k => sfld rcd (128 + 96 * k + 4) 0 32
  | none => 0

/-- The 512 bytes of a half header (R347). -/
def Side.halfHeader (s : Side) (t start rcd pil b : Nat) (noAlign noPillar : Bool) (ntrack : Nat) : List Byte :=
  let r (o w : Nat) : Nat := if noAlign then 0 else sfld rcd o 0 w
  let p (o w : Nat) : Nat := if noPillar then 0 else sfld pil o 0 w
  toBytes 8 t ++ toBytes 8 start ++ toBytes 1 (s.id + (if noAlign then 2 else 0) + (if noPillar then 4 else 0)) ++
    toBytes 1 (r 20 8) ++ toBytes 1 (sfld b 26 0 3) ++ toBytes 1 (p 39 8) ++ toBytes 2 ntrack ++ toBytes 2 0 ++
    toBytes 4 (r 24 32) ++ toBytes 4 (r 28 32) ++ toBytes 4 (r 32 32) ++ toBytes 4 0 ++
    toBytes 8 (leastNonZero (r 40 64) (p 88 64)) ++ toBytes 4 (p 16 32) ++ toBytes 4 (p 20 32) ++ toBytes 4 (p 24 32) ++ toBytes 4 0 ++
    s.ptGeometry ++ ((upTo 32).map (fun i => toBytes 4 (if noAlign then 0 else recordChain rcd i))).flatten ++ toBytes 256 0

/-- A track as sealed (R349): ID bit 31 its side, FUSED, the reserved bits and PEER_ID zero. -/
def sealTrack (side v : Nat) : Nat :=
  let v := putBits v 31 1 side
  let v := putBits v 40 8 0
  putBits v (68 * 8) 32 0

/-- Whether a track is kept at seal: EXIST and POS finite (R349). -/
def trackOk (v : Nat) : Bool :=
  (of32 (sfld v 8 0 32)).isFin && (of32 (sfld v 12 0 32)).isFin && (of32 (sfld v 16 0 32)).isFin && (of32 (sfld v 20 0 32)).isFin

/-- The offsets of the poisoned bytes of an extent. -/
def Side.poisonOffsets (s : Side) (a n : Nat) : List Nat :=
  if s.poisoned a n then (upTo n).filter (fun i => s.poisoned (a + i) 1) else []

/-- When a command started, its own time where it has not. -/
def Side.startOf (s : Side) (o : Op) : Nat := match o.run with | some (_, x) => x | none => s.now

/-- What a PT_SEAL seals: the extents it reads, its header, its byte writes, how many tracks it keeps and drops, and the flags of its
RESULT for no alignment record, no Pillar frame of its time, and dropped tracks (R346 to R349). -/
structure SealPass where
  reads : List (Nat × Nat)
  header : List Byte
  ws : List (Nat × Byte × Bool)
  kept : Nat
  bad : Nat
  flags : Nat
  deriving DecidableEq, Repr

/-- What a PT_SEAL seals (R347 to R349). -/
def Side.sealPass (s : Side) (o : Op) : SealPass :=
  let t := o.f 32 0 64
  let b := o.block (o.f 40 0 64)
  let al := local46 (sfld b 0 0 64)
  let pi := local46 (sfld b 8 0 64)
  let tr := local46 (sfld b 16 0 64)
  let n := sfld b 24 0 16
  let rcd := s.num al 4096
  let pil := s.num pi 128
  let noAlign := sfld rcd 0 0 64 != t
  let noPillar := sfld b 8 0 64 == 0 || sfld pil 0 0 64 != t
  let ts := (upTo n).map (fun i => s.num (tr + 128 * i) 128)
  let kept := (ts.filter trackOk).map (sealTrack s.id)
  let bad := n - kept.length
  let buf := s.ptHalfBuf (s.frameOf t % 2)
  let header := s.halfHeader t (s.startOf o) rcd pil b noAlign noPillar kept.length
  ⟨[(al, 4096), (tr, 128 * n)] ++ (if sfld b 8 0 64 = 0 then [] else [(pi, 128)]), header,
    goodAt buf header ++ goodAt (buf + 512 + s.gridBytes) (kept.map (fun v => toBytes 128 v)).flatten, kept.length, bad,
    (if noAlign then 4 else 0) + (if noPillar then 8 else 0) + (if bad = 0 then 0 else 16)⟩

/-- PT_SEAL (R346 to R349). -/
def ptSeal (o : Op) (s : Side) : Side :=
  let t := o.f 32 0 64
  let start := s.startOf o
  let wrong := s.isFrameTime t = false ∨ start < t ∨ t + s.ptCutoff < start
  let sealed' := s.pt.seals.any (fun h => h.t == t)
  if wrong ∨ sealed' then s.complete o stFlagged ((if wrong then 2 ^ 32 else 0) + (if sealed' then 2 ^ 33 else 0))
  else
    let p := s.sealPass o
    s.consume o 0x09 p.reads p.ws fun s =>
      let h := s.frameOf t % 2
      let buf := s.ptHalfBuf h
      let (s, met) := s.scatter 0x09 p.ws
      let s := s.finish o met (if p.flags = 0 then stDone else stFlagged) (p.bad + p.flags * 2 ^ 32)
      let s := s.ptSet (fun g => { g with seals := g.seals ++ [⟨t, s.now, fromBytes p.header⟩] })
      let till := match s.pt.merged with | some (u, e) => if u = t then some e else none | none => none
      let s := s.addGuard ⟨0x0900 + h, buf, buf + s.bufBytes, 0x09, false, till⟩
      let len := 512 + s.gridBytes
      let s := s.xsend 3 t (s.bytes buf len) (s.poisonOffsets buf len)
      s.xsend 4 t (s.bytes (buf + len) (128 * p.kept)) (s.poisonOffsets (buf + len) (128 * p.kept))

/-! ### The exchange (R43, R44, R350, R351) -/

/-- A received message placed in a buffer: bytes from offset `got` on were not received whole and are poisoned (R33). -/
def Side.ptPlace (s : Side) (a : Nat) (m : XMsg) (got : Nat) : Side :=
  (s.scatter 0x09 (((upTo m.bytes.length).zip m.bytes).map (fun e => (a + e.1, e.2, m.bad.contains e.1 || decide (got ≤ e.1))))).1

/-- HALF_GRID_RECEIVE (R43, R350, R351). -/
def Side.halfReceive (s : Side) (m : XMsg) (got : Nat) : Side :=
  let t := m.time
  if s.ptOn = false ∨ t ≠ s.ptCollect s.now then (s.ptSet (fun p => { p with late := some t })).count Reg.PT_CNT 48 16
  else
    let hb := m.bytes.take 512
    if (hb.drop 64).take 64 ≠ s.ptGeometry then s.count Reg.PT_CNT2 48 16
    else
      let bad := !m.bad.isEmpty || decide (got < m.bytes.length)
      let s := if bad ∧ s.pt.tracks.any (fun h => h.t == t && h.bad) = false then s.count Reg.PT_CNT2 32 16 else s
      let s := s.ptPlace (s.ptRxBuf (s.frameOf t % 2)) m got
      s.ptSet (fun p => { p with halves := (p.halves.filter (fun h => h.t != t)) ++ [⟨t, s.now, fromBytes hb, bad⟩] })

/-- TRACK_LIST_RECEIVE (R43, R350, R351). The track list of a half that was discarded goes with it: DISCARD counts the two once
(DEDUCED from the worked examples of chapters 01 and 08, log entry 109). -/
def Side.tracksReceive (s : Side) (m : XMsg) (got : Nat) : Side :=
  let t := m.time
  if s.ptOn = false ∨ t ≠ s.ptCollect s.now then if s.pt.late = some t then s else s.count Reg.PT_CNT 48 16
  else
    let bad := !m.bad.isEmpty || decide (got < m.bytes.length)
    let s := if bad ∧ s.pt.halves.any (fun h => h.t == t && h.bad) = false then s.count Reg.PT_CNT2 32 16 else s
    let s := s.ptPlace (s.ptRxBuf (s.frameOf t % 2) + 512 + s.gridBytes) m got
    s.ptSet (fun p => { p with tracks := (p.tracks.filter (fun h => h.t != t)) ++ [⟨t, s.now, m.bytes.length / 128, bad⟩] })

/-! ### The merge (R352 to R357, R361, R362) -/

/-- The greatest finite code of a layer format with a sign. -/
def maxFinite (f : Nat) (neg : Bool) : Nat :=
  if f = 0 then (if neg then 0xFF7FFFFF else 0x7F7FFFFF) else if f = 2 then (if neg then 0xFF7F else 0x7F7F)
  else (if neg then 0xFBFF else 0x7BFF)

/-- The number format of a floating-point layer. -/
def layerFlt (f : Nat) : Flt := if f = 0 then flt32 else if f = 2 then fltB16 else flt16

/-- The merge of two elements that both hold data, the near one first (R353). -/
def layerMerge (f op a b : Nat) : Nat :=
  if op = 0 then a
  else if f = 9 then
    let x := signed 8 a
    let y := signed 8 b
    let r : Int := if op = 1 then max x y else if op = 2 then min x y else if op = 3 then max (-127) (min 127 (x + y))
      else ((FVal.ofInt (x + y)).scale2 (-1)).rint.getD 0
    unsigned 8 r
  else
    let x := fmtVal f a
    let y := fmtVal f b
    let enc (v : FVal) : Nat := (layerFlt f).enc v
    if op = 1 ∨ op = 2 then
      if x.lt y then (if op = 1 then b else a) else if y.lt x then (if op = 1 then a else b)
      else if a = b then a else if Config.minMaxOpen (0x80 + f) (op == 1) a b then b else a
    else
      let e := x.add y
      let r := if op = 3 then (layerFlt f).round e else (layerFlt f).round (e.scale2 (-1))
      match e, r with
      | .fin sg _ _, .inf _ => maxFinite f sg
      | _, _ => enc r

/-- One element from two halves, of which either may be absent (R353). -/
def elemMerge (f op : Nat) (a b : Option Nat) : Nat :=
  let has (x : Option Nat) : Option Nat := match x with | some v => if isNoData f v then none else some v | none => none
  match has a, has b with
  | some x, some y => layerMerge f op x y
  | some x, none => x
  | none, some y => y
  | none, none => noData f

/-- One occupancy byte from two halves (R354). -/
def occMerge (a b : Option Nat) : Nat :=
  let known (x : Option Nat) : Option Nat := match x with | some v => if v = 255 then none else some v | none => none
  match known a, known b with
  | some x, some y => max x y
  | some x, none => x
  | none, some y => y
  | none, none => 255

/-- The bytes of one merged cell from the near and off cells. -/
def Side.cellMerge (s : Side) (near off : Option Nat) : List Byte :=
  let at? (x : Option Nat) (o w : Nat) : Option Nat := x.map (fun v => sfld v o 0 (8 * w))
  let ls := (upTo s.ptLayers).map (fun l =>
    let f := s.layerFmt l
    let w := layerBytes f
    let o := s.layerOff l
    toBytes w (elemMerge f (s.layerOp l) (at? near o w) (at? off o w)))
  let o0 := s.layerOff s.ptLayers
  let os := (upTo s.ptSlices).map (fun k => toBytes 1 (occMerge (at? near (o0 + k) 1) (at? off (o0 + k) 1)))
  let bs := ls.flatten ++ os.flatten
  bs ++ List.replicate (s.cellBytes - bs.length) 0

/-- A track with where it came from: side, list index, value. -/
abbrev PtTrackIn := Nat × Nat × Nat

/-- The sum of POS_VAR in FP32 (R356). -/
def trackVar (v : Nat) : FVal :=
  r32 ((r32 ((of32 (sfld v 52 0 32)).add (of32 (sfld v 56 0 32)))).add (of32 (sfld v 60 0 32)))

/-- The distance of two tracks in FP64 from their FP32 positions. -/
def trackDist (a b : Nat) : FVal :=
  let dx := sub64 (of32 (sfld a 12 0 32)) (of32 (sfld b 12 0 32))
  let dy := sub64 (of32 (sfld a 16 0 32)) (of32 (sfld b 16 0 32))
  sqrt64 (add64 (mul64 dx dx) (mul64 dy dy))

/-- The candidate pairs of R356 in order: distance, near index, off index. -/
def trackPairs (gate : Nat) (near off : List PtTrackIn) : List (FVal × PtTrackIn × PtTrackIn) :=
  let all := (near.map (fun a => off.map (fun b => (trackDist a.2.2 b.2.2, a, b)))).flatten
  let cand := all.filter (fun (e : FVal × PtTrackIn × PtTrackIn) => sfld e.2.1.2.2 4 0 8 == sfld e.2.2.2.2 4 0 8 &&
    (e.1.mul (FVal.ofInt 1000)).le (FVal.ofInt gate))
  cand.mergeSort (fun x y => if x.1.lt y.1 then true else if y.1.lt x.1 then false
    else decide (x.2.1.2.1 < y.2.1.2.1) || (x.2.1.2.1 == y.2.1.2.1 && decide (x.2.2.2.1 ≤ y.2.2.2.1)))

/-- The pairs taken: neither track already taken. -/
def takePairs (taken : List (PtTrackIn × PtTrackIn)) : List (FVal × PtTrackIn × PtTrackIn) → List (PtTrackIn × PtTrackIn)
  | [] => taken
  | e :: r =>
      if taken.any (fun p => p.1.2.1 == e.2.1.2.1 || p.2.2.1 == e.2.2.2.1) then takePairs taken r
      else takePairs (taken ++ [(e.2.1, e.2.2)]) r

/-- The track kept of a taken pair (R356). -/
def pairKept (a b : PtTrackIn) : PtTrackIn :=
  let (k, x) := if (trackVar b.2.2).lt (trackVar a.2.2) then (b, a) else (a, b)
  let v := putBits k.2.2 40 1 1
  let v := putBits v (68 * 8) 32 (sfld x.2.2 0 0 32)
  (k.1, k.2.1, putBits v (72 * 8) 64 (sfld a.2.2 72 0 64 ||| sfld b.2.2 72 0 64))

/-- R356: the tracks of the two halves merged and ordered, before the cut at 1,024. -/
def mergeTracks (gate : Nat) (near off : List PtTrackIn) : List PtTrackIn :=
  let taken := takePairs [] (trackPairs gate near off)
  let rest := (near.filter (fun a => !(taken.any (fun p => p.1.2.1 == a.2.1)))) ++
    (off.filter (fun b => !(taken.any (fun p => p.2.2.1 == b.2.1))))
  (taken.map (fun p => pairKept p.1 p.2) ++ rest).mergeSort (fun x y =>
    let ex := of32 (sfld x.2.2 8 0 32)
    let ey := of32 (sfld y.2.2 8 0 32)
    let ix := sfld x.2.2 0 0 32
    let iy := sfld y.2.2 0 0 32
    if ey.lt ex then true else if ex.lt ey then false
    else if ix ≠ iy then decide (ix < iy) else if x.1 ≠ y.1 then decide (x.1 < y.1) else decide (x.2.1 ≤ y.2.1))

/-- R362: every pin on the published buffer about to be written is revoked. -/
def Side.revokePins (s : Side) (b : Nat) : Side :=
  let hit (p : PtPin) : Bool := !p.revoked && p.epoch % 2 == b
  let n := (s.pt.pins.filter hit).length
  (s.ptSet (fun p => { p with pins := p.pins.map (fun x => if hit x then { x with revoked := true } else x) })).count Reg.PT_CNT2 0 16 n

/-- The record header of R360 from the headers of the halves used, by side. -/
def Side.recordHeader (s : Side) (t published epoch : Nat) (h0 h1 : Option Nat) (poison : Bool) (ntrack drop : Nat) : List Byte :=
  let f (h : Option Nat) (o w : Nat) : Nat := match h with | some v => sfld v o 0 w | none => 0
  let old := leastNonZero (f h0 40 64) (f h1 40 64)
  let fl (h : Option Nat) : Nat := match h with | some v => sfld v 16 1 2 | none => 0
  let b := (s.rd (Reg.PT_PBASE (epoch % 2))).toNat
  let both (o w : Nat) : List Byte := toBytes (w / 8) (f h0 o w) ++ toBytes (w / 8) (f h1 o w)
  toBytes 8 t ++ toBytes 8 published ++ toBytes 8 epoch ++ toBytes 8 (if old = 0 then 0 else published - old) ++
    toBytes 1 ((if h0.isSome then 1 else 0) + (if h1.isSome then 2 else 0) + 4 * s.id + (if poison then 8 else 0)) ++
    toBytes 1 (fl h0 + 4 * fl h1) ++ both 17 8 ++ both 18 8 ++ both 19 8 ++ both 24 32 ++ both 28 32 ++ both 32 32 ++
    toBytes 4 (f h0 48 32) ++ toBytes 4 (f h0 52 32) ++ toBytes 4 (f h0 56 32) ++
    toBytes 4 (f h1 48 32) ++ toBytes 4 (f h1 52 32) ++ toBytes 4 (f h1 56 32) ++ toBytes 2 ntrack ++ toBytes 2 drop ++ toBytes 4 0 ++
    toBytes 8 (b + 512) ++ toBytes 8 (b + 512 + s.gridBytes) ++ toBytes 8 (s.rd Reg.PT_GEOM).toNat ++
    toBytes 8 (s.rd Reg.PT_ORIGIN).toNat ++ toBytes 2 (s.fld Reg.PT_SLICE 0 16) ++ toBytes 126 0 ++
    ((upTo 32).map (fun i => toBytes 4 (f h0 (128 + 4 * i) 32))).flatten ++ ((upTo 32).map (fun i => toBytes 4 (f h1 (128 + 4 * i) 32))).flatten

/-- The merge of a frame ends at `e`, and with it the protection of its sealed own half (R343). -/
def Side.mergeEnds (s : Side) (t h e : Nat) : Side :=
  ({ s with guards := s.guards.map (fun g => if g.key = 0x0900 + h then { g with till := some e } else g) } : Side).ptSet
    (fun p => { p with merged := some (t, e) })

/-- PLAT_MERGE (R350 to R357, R361, R362): the merge of the next frame, which takes `took` ns, at most the bound of R352. -/
def Side.platMerge (s : Side) (took : Nat) : Side :=
  let t := s.pt.next
  let cut := t + s.ptCutoff
  if s.ptOn = false ∨ s.now < cut ∨ s.pt.record.isSome then s
  else
    let h := s.frameOf t % 2
    let own := s.pt.seals.find? (fun x => x.t == t && decide (x.sealedAt ≤ cut))
    let alone := match s.pt.alone, s.pt.join with
      | some a, some j => decide (a ≤ t) && decide (t < j)
      | some a, none => decide (a ≤ t)
      | none, _ => false
    let peer := s.pt.halves.find? (fun x => x.t == t && decide (x.at_ ≤ cut) && !x.bad && !alone &&
      s.pt.tracks.any (fun k => k.t == t && decide (k.at_ ≤ cut) && !k.bad && decide (sfld x.header 20 0 16 ≤ k.count)))
    let s := if peer.isNone then s.count Reg.PT_CNT 32 16 else s
    let s := s.ptSet (fun p => { p with
      next := t + s.framePeriod
      seals := p.seals.filter (fun x => decide (t ≤ x.t))
      halves := p.halves.filter (fun x => x.t != t)
      tracks := p.tracks.filter (fun x => x.t != t) })
    if own.isNone ∧ peer.isNone then ((s.mergeEnds t h cut).count Reg.PT_CNT 0 16).raise 0x0B 0x09 0 none t
    else
      let e := (s.rd Reg.PT_EPOCH).toNat + 1
      let b := e % 2
      let s := s.revokePins b
      let pub := s.ptPubBuf b
      let ownBuf := s.ptHalfBuf h
      let rxBuf := s.ptRxBuf h
      let side (k : Nat) : Option (Nat × Nat) :=
        if s.id = k then own.map (fun x => (ownBuf, x.header)) else peer.map (fun x => (rxBuf, x.header))
      let n0 := side 0
      let n1 := side 1
      let cb := s.cellBytes
      let cell (x : Option (Nat × Nat)) (i : Nat) : Option Nat := x.map (fun y => s.num (y.1 + 512 + i * cb) cb)
      let cells := (upTo (s.ptW * s.ptH)).map (fun i =>
        let a := pub + 512 + i * cb
        let bad := [n0, n1].any (fun x => match x with | some y => s.poisoned (y.1 + 512 + i * cb) cb | none => false)
        (((upTo cb).zip (s.cellMerge (cell n0 i) (cell n1 i))).map (fun (z : Nat × Byte) => (a + z.1, z.2, bad)), bad))
      let list (k : Nat) (x : Option (Nat × Nat)) : List PtTrackIn := match x with
        | some y => (upTo (sfld y.2 20 0 16)).map (fun i => (k, i, s.num (y.1 + 512 + s.gridBytes + 128 * i) 128))
        | none => []
      let badT := [n0, n1].any (fun x => match x with
        | some y => s.poisoned (y.1 + 512 + s.gridBytes) (128 * sfld y.2 20 0 16) | none => false)
      let all := mergeTracks (s.fld Reg.PT_TRACK 0 32) (list 0 n0) (list 1 n1)
      let kept := all.take 1024
      let drop := all.length - kept.length
      let area := pub + 512 + s.gridBytes
      let tb := (kept.map (fun k => toBytes 128 k.2.2)).flatten
      let tws := (goodAt area tb).map (fun w => (w.1, w.2.1, badT))
      let poison := badT || cells.any (fun c => c.2)
      let bound := 20000 + s.gridBytes / 32 + ((list 0 n0).length + (list 1 n1).length) * 100
      let mEnd := cut + min took bound
      let s := s.mergeEnds t h mEnd
      let published := max (t + s.ptPub) mEnd
      let s := if t + s.ptPub < mEnd then s.count Reg.PT_CNT 16 16 else s
      let s := if 0 < drop then s.count Reg.PT_CNT2 16 16 else s
      let s := (s.scatter 0x09 (goodAt (pub + 16) (toBytes 8 0))).1
      let s := (s.scatter 0x09 ((cells.map (fun c => c.1)).flatten ++ tws)).1
      let header := s.recordHeader t published e (n0.map (fun y => y.2)) (n1.map (fun y => y.2)) poison kept.length drop
      s.ptSet (fun p => { p with record := some ⟨e, header, published, drop⟩ })

/-- PLAT_PUBLISH (R358, R359, R361): the record header to the published buffer and the outputs, then the tethers. -/
def Side.platPublish (s : Side) : Side :=
  match s.pt.record with
  | none => s
  | some r =>
      if s.now < r.published then s
      else
        let s := (s.scatter 0x09 (goodAt (s.ptPubBuf (r.epoch % 2)) r.header)).1
        let outs := (upTo 4).filter (fun c => s.flag (Reg.PT_OCFG c) 4)
        let s := outs.foldl (fun s c =>
          s.ringEntry 0 ((s.rd (Reg.PT_OBASE c)).toNat + r.epoch % (16 * 2 ^ s.fld (Reg.PT_OCFG c) 0 4) * 512) r.header) s
        let s := outs.foldl (fun s c => if s.flag (Reg.PT_OCFG c) 21 then s.signal (s.fld (Reg.PT_OCFG c) 8 13) 1 else s) s
        (s.wr Reg.PT_EPOCH (BitVec.ofNat 64 r.epoch)).ptSet (fun p => { p with record := none })

/-! ### Enable (R366) -/

/-- PT_CTRL.CFG_ERR set. -/
def Side.ptErr (s : Side) : Side := s.put Reg.PT_CTRL 3 1 1

/-- The six buffers of the Plat. -/
def Side.ptBuffers (s : Side) : List Nat :=
  ((upTo 2).map (fun h => (s.rd (Reg.PT_HBASE h)).toNat)) ++ ((upTo 2).map (fun h => (s.rd (Reg.PT_RXBASE h)).toNat)) ++
    ((upTo 2).map (fun b => (s.rd (Reg.PT_PBASE b)).toNat))

/-- Whether intervals of equal length starting at the addresses are disjoint. -/
def disjoint (n : Nat) : List Nat → Bool
  | [] => true
  | a :: r => r.all (fun b => decide (a + n ≤ b) || decide (b + n ≤ a)) && disjoint n r

/-- R366: whether the configuration lets ENABLE be set. -/
def Side.ptCfgOk (s : Side) : Bool :=
  let e := s.fld Reg.PT_GEOM 16 16
  decide (1 ≤ s.ptW) && decide (s.ptW ≤ 1024) && decide (1 ≤ s.ptH) && decide (s.ptH ≤ 1024) && decide (50 ≤ e) && decide (e ≤ 1000) &&
    decide (s.ptLayers ≤ 16) && decide (s.ptSlices ≤ 32) && decide (1 ≤ s.cellBytes) && decide (s.cellBytes ≤ 96) &&
    decide (s.settleNs < s.ptCutoff) && decide (s.ptCutoff ≤ s.ptPub) && decide (s.ptPub < s.framePeriod) &&
    s.ptBuffers.all (fun a => a % 64 == 0 && !(s.notNear a s.bufBytes)) && disjoint s.bufBytes (s.ptBuffers.map local46)

/-- PLAT_ENABLE (R343, R366). -/
def Side.platEnable (s : Side) (on : Bool) : Side :=
  if s.ptOn = on then s
  else if on then
    if s.ptCfgOk then
      let s := s.put Reg.PT_CTRL 0 1 1
      let s := s.ptSet (fun p => { p with
        next := s.boundaryFrom s.now
        seals := []
        halves := []
        tracks := []
        record := none
        merged := none
        late := none })
      (upTo 2).foldl (fun s k =>
        (s.addGuard ⟨0x0910 + k, s.ptRxBuf k, s.ptRxBuf k + s.bufBytes, 0x09, false, none⟩).addGuard
          ⟨0x0920 + k, s.ptPubBuf k, s.ptPubBuf k + s.bufBytes, 0x09, false, none⟩) ((s.dropGuard 0x0900).dropGuard 0x0901)
    else s.ptErr
  else
    let s := s.put Reg.PT_CTRL 0 1 0
    let s := s.ptSet (fun p => { p with seals := [], halves := [], tracks := [], record := none })
    [0x0900, 0x0901, 0x0910, 0x0911, 0x0920, 0x0921].foldl (fun s k => s.dropGuard k) s

/-- Whether a write of a Plat register other than PT_CTRL carries only values that are accepted (R365, R366). -/
def ptValueOk (k : Nat) (v : Word) : Bool :=
  if Reg.PT_OCFG 0 ≤ k ∧ k ≤ Reg.PT_OCFG 3 ∧ (k - Reg.PT_OCFG 0) % 0x10 = 0 then decide (v.fld 0 4 ≤ 8)
  else if Reg.PT_LAYER 0 ≤ k ∧ k ≤ Reg.PT_LAYER 15 then
    decide (v.fld 4 4 ≤ 4) && (v.fld 0 4 == 0 || v.fld 0 4 == 2 || v.fld 0 4 == 3 || v.fld 0 4 == 9)
  else if k = Reg.PT_SLICE then decide (10 ≤ v.fld 0 16) && decide (v.fld 0 16 ≤ 500)
  else true

end Sys2Proof.Machine
end

