-- ==== Sys2Proof/Machine/Traverse.lean ====
section
/-!
DEFINITION. Machine/Traverse.lean: the planner (R536 to R570): queries, the cost map, checking an edge, search, growth. Where
the manual gives an expression without the order of its roundings, each operation rounds in FP64 in the order written here.
-/
namespace Sys2Proof.Machine

/-! ### Registers and places -/

/-- Traverse's state updated. -/
def Side.tvSet (s : Side) (f : Traverse → Traverse) : Side := { s with tv := f s.tv }

/-- TV_CTRL.ENABLE. -/
def Side.tvOn (s : Side) : Bool := s.flag Reg.TV_CTRL 0

/-- NNODES and NEDGES latched, capacities and use of the dynamic area, WORKING. -/
def Side.tvNN (s : Side) : Nat := s.fld Reg.TV_RSIZE 0 32
@[inherit_doc Side.tvNN] def Side.tvNE (s : Side) : Nat := s.fld Reg.TV_RSIZE 32 32
@[inherit_doc Side.tvNN] def Side.tvDN (s : Side) : Nat := s.fld Reg.TV_DCAP 0 32
@[inherit_doc Side.tvNN] def Side.tvDE (s : Side) : Nat := s.fld Reg.TV_DCAP 32 32
@[inherit_doc Side.tvNN] def Side.tvUN (s : Side) : Nat := s.fld Reg.TV_DUSE 0 32
@[inherit_doc Side.tvNN] def Side.tvUE (s : Side) : Nat := s.fld Reg.TV_DUSE 32 32
@[inherit_doc Side.tvNN] def Side.tvWorking (s : Side) : Nat := s.fld Reg.TV_CHAIN 0 13

/-- The road-map image and the dynamic area. -/
def Side.tvMap (s : Side) : Nat := local46 (s.fld Reg.TV_RMAP 12 52 * 4096)
@[inherit_doc Side.tvMap] def Side.tvDyn (s : Side) : Nat := local46 (s.fld Reg.TV_DYN 12 52 * 4096)
@[inherit_doc Side.tvMap] def Side.tvCost (s : Side) : Nat := local46 (s.rd Reg.TV_CMAP).toNat

/-- The address of a node record (R542, R544). -/
def Side.nodeAt (s : Side) (n : Nat) : Nat :=
  if n < s.tvNN then s.tvMap + 64 + 16 * n else s.tvDyn + 16 * (n - s.tvNN)

/-- The address of an edge record. -/
def Side.edgeAt (s : Side) (e : Nat) : Nat :=
  if e < s.tvNE then s.tvMap + 64 + 16 * s.tvNN + 32 * e else s.tvDyn + 24 * s.tvDN + 32 * (e - s.tvNE)

/-- The address of the samples of an edge. -/
def Side.samplesAt (s : Side) (e : Nat) : Nat :=
  if e < s.tvNE then s.tvMap + 64 + 16 * s.tvNN + 32 * s.tvNE + 16 * s.num (s.edgeAt e + 8) 4
  else s.tvDyn + 24 * s.tvDN + 32 * s.tvDE + 1024 * (e - s.tvNE)

/-- The tree time of a dynamic node. -/
def Side.treeTimeAt (s : Side) (n : Nat) : Nat := s.tvDyn + 16 * s.tvDN + 8 * (n - s.tvNN)

/-- Whether a node index is in use. -/
def Side.nodeUsed (s : Side) (n : Nat) : Bool := decide (n < s.tvNN + s.tvUN)

/-- The dynamic out-edges of a node in list order, from an edge index on. -/
def Side.edgeList (s : Side) : Nat → Nat → List Nat
  | 0, _ => []
  | f + 1, e => if s.tvNE ≤ e ∧ e < s.tvNE + s.tvUE then e :: s.edgeList f (s.num (s.edgeAt e + 24) 4) else []

/-- The out-edges of a node in order (R543, R558). -/
def Side.outEdges (s : Side) (n : Nat) : List Nat :=
  let a := s.nodeAt n
  if n < s.tvNN then (upTo (s.num (a + 12) 2 % 256)).map (fun i => s.num (a + 8) 4 + i)
  else s.edgeList s.tvUE (s.num (a + 8) 4)

/-- Whether a query is running. -/
def Side.tvRunning (s : Side) : Option TvQuery := s.tv.query.filter (fun q => q.running)

/-! ### Admission (R537, R538, R546 to R549, R555, R562, R563, R567, R571) -/

/-- Whether an FP32 field of a block is finite, and at least 0. -/
def fin32 (v : Nat) : Bool := (of32 v).isFin
@[inherit_doc fin32] def nonNeg32 (v : Nat) : Bool := fin32 v && FVal.zero.le (of32 v)
@[inherit_doc fin32] def pos32 (v : Nat) : Bool := fin32 v && FVal.zero.lt (of32 v)

/-- An FP32 field of a parameter block. -/
def f32At (b o : Nat) : FVal := of32 (sfld b o 0 32)

/-- The side of the square of cells that a disc may cover (R547). -/
def discSpan (b edgeMm : Nat) : Nat :=
  let x := ((f32At b 76).mul (FVal.ofInt 1000)).div (FVal.ofInt (edgeMm : Nat))
  2 * (match x.neg.floor with | some k => (-k).toNat | none => 0) + 1

/-- What the chapter says of the admission of a Traverse command. -/
def tvChecks (s : Side) (cmd : Nat) : Checks :=
  let op := sfld cmd 0 0 8
  let pa := sfld cmd 32 0 64
  let closed : Option Nat := if s.tvOn then none else some 0
  let few := decide (s.tvWorking < 512)
  let slices := s.ptSlices
  let big (a n : Nat) : Bool := a % 64 != 0 || match s.loc a with
    | some l => !(s.part.inNear l n || (decide (0x3000_0000_0000 ≤ l) && s.part.populated l n))
    | none => true
  if op = 1 then
    let b := s.struct pa 128 8
    let ok := s.readable pa 128 8
    let nd := sfld b 112 0 4
    let root := bitAt b (8 * 112 + 4)
    let keep := bitAt b (8 * 112 + 5)
    let st := sfld b 32 0 32
    let span := discSpan b (s.fld Reg.PT_GEOM 16 16)
    let size := s.ptW * s.ptH * (4 + slices)
    { reserved := anySet cmd [byteRange 40 63] || (ok && anySet b [(113, 4, 4), byteRange 119 119]),
      blocks := [(pa, 128, 8)],
      length := ok && (nd == 0 || decide (8 < nd) || sfld b 116 0 16 == 0 || decide (4096 < sfld b 116 0 16) || sfld b 118 0 8 == 0 ||
        sfld b 114 0 8 == 0 || sfld b 114 0 8 == 255 || sfld b 115 0 8 == 255 ||
        [44, 48, 52, 56, 60, 76].any (fun o => !(nonNeg32 (sfld b o 0 32))) || (upTo 8).any (fun i => !(nonNeg32 (sfld b (80 + 4 * i) 0 32))) ||
        (if !root && !keep then decide (s.tvNN ≤ st) else !(s.nodeUsed st)) ||
        decide (1024 < nd * span * span) || (bitAt b (8 * 112 + 7) && decide (s.ptLayers ≤ sfld b 113 0 4)) || slices == 0),
      address := ok && (big (sfld b 16 0 64) (32 * (s.tvNN + s.tvDN)) || big (sfld b 24 0 64) (128 + 8 * sfld b 116 0 16)),
      space := if closed.isSome then closed
        else if ok ∧ s.fld Reg.TV_CMSIZE 0 32 < size then some size
        else if ok ∧ root = true ∧ s.tvDN ≤ (if keep then s.tvUN else 0) then some 24 else none,
      worst := (62000, 1) }
  else if op = 2 then
    let n := sfld cmd 34 0 16
    let geom := match s.tvRunning with | some q => q.geom | none => (s.rd Reg.PT_GEOM).toNat
    { reserved := anySet cmd [byteRange 36 63], length := decide (bits geom 32 16 < sfld cmd 32 0 16 + n), space := closed,
      worst := (62000 * 1024 + n * bits geom 48 16 * (4 * s.cellBytesOf geom + 4 + bits geom 5 6), 1024) }
  else if op = 3 then
    let b := s.struct pa 64 1
    let ok := s.readable pa 64 1
    let nc := sfld b 40 0 16
    let fields := (upTo 7).map (fun i => sfld b (4 * i) 0 32)
    let ordered (lo hi : Nat) : Bool := (f32At b lo).le (f32At b hi)
    let lackN := nc - (s.tvDN - s.tvUN)
    let lackE := 2 * nc - (s.tvDE - s.tvUE)
    { reserved := anySet cmd [byteRange 40 63] || (ok && anySet b [byteRange 28 31, byteRange 44 63]), blocks := [(pa, 64, 1)],
      length := ok && (sfld b 32 0 64 == 0 || sfld b 42 0 8 < 2 || decide (64 < sfld b 42 0 8) || decide (2048 < nc) ||
        fields.any (fun v => !(fin32 v)) || !(pos32 (sfld b 16 0 32)) || !(pos32 (sfld b 20 0 32)) ||
        !(ordered 0 4) || !(ordered 8 12)),
      degraded := few,
      space := if closed.isSome then closed else if ok ∧ s.tvWorking < 2 * nc then some 0
        else if ok ∧ 0 < lackN + lackE then some (24 * lackN + 1056 * lackE) else none,
      worst := (87000 + s.tvDN + 40 * nc, 1) }
  else if op = 4 then
    let m := sfld cmd 32 0 32
    { reserved := anySet cmd [byteRange 36 63], length := decide (m < 1000) || decide (130000 < m), degraded := few, space := closed,
      worst := (62000 + m, 1) }
  else if op = 5 then
    let b := s.struct pa 64 1
    let ok := s.readable pa 64 1
    let f (i : Nat) : Nat := sfld b (4 * i) 0 32
    let dt := sfld b 28 0 32
    let no := sfld b 40 0 16
    { reserved := anySet cmd [byteRange 40 63] || (ok && anySet b [byteRange 33 35, byteRange 42 43, byteRange 48 63]), blocks := [(pa, 64, 1)],
      length := ok && (!(nonNeg32 (f 0)) || !(nonNeg32 (f 1)) || [2, 3, 4, 5, 6].any (fun i => !(pos32 (f i))) || decide (dt < 1000000) ||
        decide (100000000 < dt) || decide (16 < sfld b 32 0 8) || !(nonNeg32 (f 9)) || !((f32At b 36).le (FVal.ofInt 1)) || no == 0 ||
        decide (1024 < no)),
      degraded := few, space := closed, worst := (88440 + 20 * no, 1) }
  else { opcode := true, space := closed }

/-! ### Checking an edge (R551 to R554) -/

/-- The footprint and thresholds of a parameter block (R546). -/
structure TvFoot where
  mx : FVal
  my : FVal
  myaw : FVal
  rad : FVal
  discs : List FVal
  occBlock : Nat
  unkOcc : Nat
  unkCost : FVal
  wOcc : FVal
  wCost : FVal
  deriving DecidableEq, Repr

/-- The footprint that a TV_OPEN block gives. -/
def tvFoot (b : Nat) : TvFoot :=
  ⟨f32At b 64, f32At b 68, f32At b 72, f32At b 76, (upTo (sfld b 112 0 4)).map (fun i => f32At b (80 + 4 * i)), sfld b 114 0 8, sfld b 115 0 8,
    f32At b 60, f32At b 52, f32At b 56⟩

/-- The grid of a pinned epoch: W, H, the edge and origin in metres, SLICES, SLICE in ns, VALIDITY. -/
structure TvGrid where
  w : Nat
  h : Nat
  edge : FVal
  ox : FVal
  oy : FVal
  slices : Nat
  slice : Nat
  validity : Nat
  deriving DecidableEq, Repr

/-- The grid that the words of a record header give (R360). -/
def tvGrid (geom origin sliceMs validity : Nat) : TvGrid :=
  let m (v : Int) : FVal := r64 (FVal.ratio v 1000)
  ⟨bits geom 48 16, bits geom 32 16, m (bits geom 16 16 : Nat), m (signed 32 (bits origin 32 32)), m (signed 32 (bits origin 0 32)),
    bits geom 5 6, sliceMs * 1000000, validity⟩

/-- The centre of a cell along an axis (R551). -/
def TvGrid.centre (g : TvGrid) (o : FVal) (i : Int) : FVal := add64 o (mul64 ((FVal.ofInt (2 * i + 1)).scale2 (-1)) g.edge)

/-- The cells along an axis that a disc at `c` may cover. -/
def TvGrid.reach (g : TvGrid) (o c rad : FVal) : List Int :=
  match (((c.sub o).sub rad).div g.edge).floor, (((c.sub o).add rad).div g.edge).floor with
  | some a, some b => (upTo (b - a + 3).toNat).map (fun i => a - 1 + (i : Nat))
  | _, _ => []

/-- The cells that the discs of a footprint cover at a sample (R551). -/
def TvGrid.covered (g : TvGrid) (f : TvFoot) (x y yaw : FVal) : List (Int × Int) :=
  let c := cosV f.myaw
  let s := sinV f.myaw
  let bx := sub64 (add64 f.mx (mul64 c x)) (mul64 s y)
  let by_ := add64 (add64 f.my (mul64 s x)) (mul64 c y)
  let b := add64 yaw f.myaw
  ((f.discs.map (fun a =>
    let cx := add64 bx (mul64 a (cosV b))
    let cy := add64 by_ (mul64 a (sinV b))
    ((g.reach g.ox cx f.rad).map (fun i => (g.reach g.oy cy f.rad).filterMap (fun j =>
      let dx := (g.centre g.ox i).sub cx
      let dy := (g.centre g.oy j).sub cy
      if ((dx.mul dx).add (dy.mul dy)).le (f.rad.mul f.rad) then some (i, j) else none))).flatten)).flatten).eraseDups

/-- The slice that a sample at a time reads (R552). -/
def TvGrid.sliceAt (g : TvGrid) (t : Nat) : Nat :=
  let k : Int := ((t : Int) - g.validity + (g.slice / 2 : Nat)).fdiv (g.slice : Nat)
  (min k ((g.slices : Int) - 1)).toNat

/-- What a covered cell holds: its occupancy byte, its COST, whether it is poisoned. -/
abbrev TvCell := Nat × FVal × Bool

/-- The greater of two values; the other where one is not a number. -/
def maxVal (a b : FVal) : FVal := if a.lt b then b else a

/-- One edge checked (R553, R554): whether it is blocked, its cost from BASE_COST, and the poisoned cells met. -/
def TvGrid.check (g : TvGrid) (f : TvFoot) (cell : Nat → Nat → Nat → TvCell) (base : FVal)
    (samples : List (FVal × FVal × FVal × Nat)) : Bool × FVal × Nat :=
  samples.foldl (fun (acc : Bool × FVal × Nat) p =>
    let k := g.sliceAt p.2.2.2
    let cells := (g.covered f p.1 p.2.1 p.2.2.1).map (fun ij =>
      if 0 ≤ ij.1 ∧ ij.1 < (g.w : Int) ∧ 0 ≤ ij.2 ∧ ij.2 < (g.h : Int) then
        let c := cell ij.1.toNat ij.2.toNat k
        if c.2.2 then (254, c.2.1, true)
        else (if c.1 = 255 then f.unkOcc else c.1, c.2.1, false)
      else (f.unkOcc, f.unkCost, false))
    let o := cells.foldl (fun m c => max m c.1) 0
    let cm := cells.foldl (fun m c => maxVal m (if c.2.1.isNan then f.unkCost else c.2.1)) FVal.zero
    let cost := r32 ((r32 (f.wOcc.mul (r32 (FVal.ratio (o : Nat) 254)))).add (r32 (f.wCost.mul cm)))
    (acc.1 || cells.any (fun c => decide (f.occBlock ≤ c.1)), r32 (acc.2.1.add cost), acc.2.2 + (cells.filter (fun c => c.2.2)).length))
    (false, base, 0)

/-- A cell of the cost map (R550). -/
def Side.costCell (s : Side) (g : TvGrid) (i j k : Nat) : TvCell :=
  let a := s.tvCost + (j * g.w + i) * (4 + g.slices)
  ((s.mem.get (a + 4 + k)).toNat, of32 (s.num a 4), s.poisoned a (4 + g.slices))

/-- The grid of a query. -/
def TvQuery.grid (q : TvQuery) : TvGrid := tvGrid q.geom q.origin q.sliceMs q.validity

/-- One edge of a node checked from a start time (R545, R551): whether it is blocked, its cost, the poisoned cells and records. -/
def Side.tvCheckEdge (s : Side) (q : TvQuery) (node e t0 : Nat) : Bool × FVal × Nat :=
  let a := s.edgeAt e
  if s.tvNE + s.tvUE ≤ e then (true, FVal.zero, 0)
  else
    let v := s.num a 32
    let n := sfld v 12 0 8
    let dur := sfld v 16 0 32
    let sa := s.samplesAt e
    let badTo := s.nodeUsed (sfld v 4 0 32) && s.poisoned (s.nodeAt (sfld v 4 0 32)) 16
    if s.poisoned a 32 || (decide (n ≤ 64) && s.poisoned sa (16 * n)) || badTo then (true, FVal.zero, 1)
    else if n = 0 ∨ 64 < n ∨ sfld v 0 0 32 ≠ node ∨ s.nodeUsed (sfld v 4 0 32) = false ∨ nonNeg32 (sfld v 20 0 32) = false then (true, FVal.zero, 0)
    else
      let ps := (upTo n).map (fun k => s.num (sa + 16 * k) 16)
      if ps.any (fun p => decide (dur < sfld p 12 0 32)) then (true, FVal.zero, 0)
      else
        (q.grid).check (tvFoot q.block) (s.costCell q.grid) (f32At v 20)
          (ps.map (fun p => (f32At p 0, f32At p 4, f32At p 8, t0 + sfld p 12 0 32)))

/-! ### The state table (R556, R557) -/

/-- The address of a node's state. -/
def TvQuery.stateAt (q : TvQuery) (n : Nat) : Nat := local46 (sfld q.block 16 0 64) + 32 * n

/-- A node's state, none where it is poisoned. -/
def Side.tvState (s : Side) (q : TvQuery) (n : Nat) : Option Nat :=
  if s.poisoned (q.stateAt n) 32 then none else some (s.num (q.stateAt n) 32)

/-- A node's state written, and whether a protected extent was met. -/
def Side.setTvState (s : Side) (q : TvQuery) (n g t parent edge depth settled : Nat) : Side × Bool :=
  s.scatter 0x0A (goodAt (q.stateAt n) (toBytes 4 q.serial ++ toBytes 4 g ++ toBytes 8 t ++ toBytes 4 parent ++ toBytes 4 edge ++
    toBytes 2 depth ++ toBytes 1 settled ++ toBytes 5 0))

/-- The distance of a node from the goal (R557). -/
def Side.tvDist (s : Side) (q : TvQuery) (n : Nat) : FVal :=
  let v := s.num (s.nodeAt n) 8
  let dx := sub64 (f32At q.block 36) (f32At v 0)
  let dy := sub64 (f32At q.block 40) (f32At v 4)
  sqrt64 (add64 (mul64 dx dx) (mul64 dy dy))

/-- The Paddock key of a node reached at cost `g` (R557). -/
def Side.tvKey (s : Side) (q : TvQuery) (n : Nat) (g : FVal) : Nat :=
  let h := r32 ((f32At q.block 48).mul (r32 (s.tvDist q n)))
  to32 (r32 (g.add h)) * 2 ^ 32 + to32 h

/-- The Paddock with an entry pushed: least key first, equal keys by the lower payload. -/
def TvQuery.push (q : TvQuery) (key n : Nat) : TvQuery :=
  let before (e : Nat × Nat) : Bool := decide (e.1 < key) || (e.1 == key && decide (e.2 ≤ n))
  { q with paddock := q.paddock.takeWhile before ++ (key, n) :: q.paddock.dropWhile before }

/-! ### Outcomes (R541, R560, R561) -/

/-- Whether a state entry is of a query. -/
def TvQuery.reached (q : TvQuery) (v : Nat) : Bool := sfld v 0 0 32 == q.serial

/-- The best partial of a query: the reached node with the least d, then g, then index (R560). -/
def Side.bestPartial (s : Side) (q : TvQuery) : Option Nat :=
  ((upTo (s.tvNN + s.tvUN)).foldl (fun (best : Option (Nat × FVal × FVal)) n =>
    match s.tvState q n with
    | none => best
    | some v =>
        if q.reached v then
          let d := s.tvDist q n
          let g := f32At v 4
          match best with
          | none => some (n, d, g)
          | some b => if d.lt b.2.1 || (!(b.2.1.lt d) && g.lt b.2.2) then some (n, d, g) else best
        else best) none).map (fun b => b.1)

/-- The path to a node, from the start (R561): nodes with the edges into them. -/
def Side.tvPath (s : Side) (q : TvQuery) : Nat → Nat → List (Nat × Nat) → List (Nat × Nat)
  | 0, _, acc => acc
  | f + 1, n, acc =>
      let v := s.num (q.stateAt n) 32
      let acc := (n, sfld v 20 0 32) :: acc
      if sfld v 16 0 32 = 0xFFFFFFFF then acc else s.tvPath q f (sfld v 16 0 32) acc

/-- The query's state registers after a change of the query. -/
def Side.showQuery (s : Side) (q : TvQuery) : Side :=
  let all := (upTo (bits q.geom 32 16)).all (fun r => q.rows.any (fun x => decide (x.1 ≤ r) && decide (r < x.1 + x.2)))
  let s := s.tvSet (fun t => { t with query := some q })
  let s := s.put Reg.TV_CTRL 1 1 (if q.running then 1 else 0)
  let s := s.put Reg.TV_CTRL 2 1 (if all then 1 else 0)
  s.wr Reg.TV_PIN (BitVec.ofNat 64 (if q.running then q.epoch else 0))

/-- The end of the running query (R541): its result record, its pin, its counter. Answers whether a protected extent was
met. -/
def Side.endQuery (s : Side) (q : TvQuery) (outcome ended : Nat) (found : Option Nat) : Side × Bool :=
  let node := match found with | some n => some n | none => s.bestPartial q
  let path := match node with | some n => (s.tvPath q (sfld q.block 116 0 16) n []).take (sfld q.block 116 0 16) | none => []
  let v := match node with | some n => s.num (q.stateAt n) 32 | none => 0
  let header := toBytes 8 q.validity ++ toBytes 8 q.epoch ++ toBytes 8 ended ++ toBytes 4 q.serial ++ toBytes 1 outcome ++ toBytes 1 0 ++
    toBytes 2 path.length ++ toBytes 4 (sfld v 4 0 32) ++ toBytes 4 (node.getD 0xFFFFFFFF) ++
    toBytes 4 (match node with | some n => to32 (r32 (s.tvDist q n)) | none => 0) ++ toBytes 4 q.rounds ++ toBytes 4 q.settled ++
    toBytes 4 q.checked ++ toBytes 4 q.blocked ++ toBytes 4 q.depthCut ++ toBytes 4 q.poison ++ toBytes 8 (sfld v 8 0 64) ++ toBytes 52 0
  let (s, met) := s.scatter 0x0A (goodAt (local46 (sfld q.block 24 0 64)) (header ++ (path.map (fun e => toBytes 4 e.1 ++ toBytes 4 e.2)).flatten))
  let s := s.showQuery { q with running := false, outcome := outcome, paddock := [] }
  let s := s.ptSet (fun p => { p with pins := p.pins.filter (fun x => x.query != q.serial) })
  let s := if outcome = 1 then s.count Reg.TV_CNT 48 16 else if outcome = 2 then s.count Reg.TV_CNT 32 16
    else if outcome = 3 then s.count Reg.TV_CNT 16 16 else if outcome = 4 then s.count Reg.TV_CNT 0 16 else s
  (s, met)

/-- The flags of RESULT [43:33] by name (R539), as numbers from bit 32. -/
def tvNotOpen : Nat := 2
@[inherit_doc tvNotOpen] def tvAlreadyOpen : Nat := 4
@[inherit_doc tvNotOpen] def tvNoEpoch : Nat := 8
@[inherit_doc tvNotOpen] def tvIncomplete : Nat := 16
@[inherit_doc tvNotOpen] def tvPoisonCells : Nat := 32
@[inherit_doc tvNotOpen] def tvDepthCut : Nat := 64
@[inherit_doc tvNotOpen] def tvSmoothRejected : Nat := 128
@[inherit_doc tvNotOpen] def tvJerk : Nat := 256
@[inherit_doc tvNotOpen] def tvDecel : Nat := 512
@[inherit_doc tvNotOpen] def tvHorizon : Nat := 1024
@[inherit_doc tvNotOpen] def tvNotEnded : Nat := 2048

/-- The end of a Traverse command (R539, R540): the status of an outcome, or by its flags. -/
def Side.tvEnd (s : Side) (o : Op) (met : Bool) (outcome : Option Nat) (flags count : Nat) : Side :=
  let st := match outcome with
    | some 2 => stExhausted
    | some 3 => stPathTimeout
    | some 4 => stEpoch
    | some 6 => stPoison
    | _ => if flags = 0 then stDone else stFlagged
  let s := if flags / tvPoisonCells % 2 = 1 then s.count Reg.TV_CNT2 16 16 else s
  s.finish o met st (count % 2 ^ 32 + (flags + if s.tvRunning.isSome then 1 else 0) * 2 ^ 32)

/-- R569: after the Plat has revoked pins, the running query ends as REVOKED if its pin is among them, and with it the
running command. -/
def Side.tvRevoked (s : Side) : Side :=
  match s.tvRunning with
  | none => s
  | some q =>
      if s.pt.pins.any (fun p => p.query == q.serial && p.revoked) then
        let (s, met) := s.endQuery q 4 s.now none
        match s.ops.find? (fun o => o.unit == 0x0A && o.run.isSome) with
        | some o =>
            let kept (i : Nat) : Nat := if o.opcode = 4 then o.pages.getD i 0 else 0
            s.tvEnd o met (some 4) (kept 1) (kept 0)
        | none => s
      else s

/-! ### TV_OPEN (R548) -/

/-- What happens when TV_OPEN starts: the epoch published last is the one to pin. -/
def Side.tvOpenStart (s : Side) (o : Op) : Side := s.setOp { o with pages := [(s.rd Reg.PT_EPOCH).toNat] }

/-- A node record and its tree time written into the dynamic area (R544). -/
def Side.addNode (s : Side) (x y t : Nat) : Side × Bool :=
  let n := s.tvNN + s.tvUN
  let (s, m1) := s.scatter 0x0A (goodAt (s.nodeAt n) (toBytes 4 x ++ toBytes 4 y ++ toBytes 4 0xFFFFFFFF ++ toBytes 4 0))
  let (s, m2) := s.scatter 0x0A (goodAt (s.treeTimeAt n) (toBytes 8 t))
  (s.put Reg.TV_DUSE 0 32 (s.tvUN + 1), m1 || m2)

/-- TV_OPEN. -/
def tvOpen (o : Op) (s : Side) : Side :=
  let b := o.block (o.f 32 0 64)
  let e := o.pages.headD 0
  let abandon := bitAt b (8 * 112 + 6)
  if s.tvRunning.isSome ∧ abandon = false then s.tvEnd o false none tvAlreadyOpen ((s.tv.query.map (fun q => q.serial)).getD 0)
  else if e = 0 ∨ s.ptOn = false then s.tvEnd o false none tvNoEpoch 0
  else
    let (s, m0) := match s.tvRunning with
      | some q => s.endQuery q 5 s.now none
      | none => (s, false)
    let serial := (s.tv.serial + 1) % 2 ^ 32
    let head := s.num (s.ptPubBuf (e % 2)) 256
    let keep := bitAt b (8 * 112 + 5)
    let root := bitAt b (8 * 112 + 4)
    let q : TvQuery := ⟨serial, true, 0, b, e, sfld head 0 0 64, sfld head 112 0 64, sfld head 120 0 64, sfld head 128 0 16, [], [], 0, 0, 0, 0, 0, 0⟩
    let s := s.tvSet (fun t => { t with serial := serial, foot := some b })
    let s := s.ptSet (fun p => { p with pins := ⟨serial, e, decide (e + 2 ≤ (s.rd Reg.PT_EPOCH).toNat)⟩ :: p.pins })
    let s := if keep then s else s.wr Reg.TV_DUSE 0
    let start := if root then s.tvNN + s.tvUN else sfld b 32 0 32
    let (s, m1) := if root then s.addNode (sfld b 120 0 32) (sfld b 124 0 32) (sfld b 0 0 64) else (s, false)
    let (s, m2) := s.setTvState q start 0 (sfld b 0 0 64) 0xFFFFFFFF 0xFFFFFFFF 0 0
    let s := s.showQuery (q.push (s.tvKey q start FVal.zero) start)
    (s.tvEnd o (m0 || m1 || m2) none 0 serial).tvRevoked

/-! ### TV_MAP (R549, R550) -/

/-- The COST of a layer element. -/
def layerCost (f v : Nat) : Nat := if isNoData f v then 0x7FC00000 else to32 (r32 (fmtVal f v))

/-- The writes of one row of the cost map. -/
def Side.mapRow (s : Side) (q : TvQuery) (j : Nat) : List (Nat × Byte × Bool) :=
  let g := q.grid
  let buf := s.ptPubBuf (q.epoch % 2) + 512
  let l := sfld q.block 113 0 4
  let f := s.layerFmt l
  let cb := s.cellBytesOf q.geom
  ((upTo g.w).map (fun i =>
    let c := buf + (j * g.w + i) * cb
    let cost := if bitAt q.block (8 * 112 + 7) then layerCost f (s.num (c + s.layerOff l) (layerBytes f)) else 0
    let bad := s.poisoned c cb
    (goodAt (s.tvCost + (j * g.w + i) * (4 + g.slices)) (toBytes 4 cost ++ s.bytes (c + s.layerOff (bits q.geom 0 5)) g.slices)).map
      (fun w => (w.1, w.2.1, bad)))).flatten

/-- TV_MAP. -/
def tvMapRows (o : Op) (s : Side) : Side :=
  let first := o.f 32 0 16
  let n := o.f 34 0 16
  if n = 0 then s.tvEnd o false none 0 0
  else
    match s.tvRunning with
    | none => s.tvEnd o false none tvNotOpen 0
    | some q =>
        let (s, met) := s.scatter 0x0A (((upTo n).map (fun r => s.mapRow q (first + r))).flatten)
        (s.showQuery { q with rows := (first, n) :: q.rows }).tvEnd o met none 0 n

/-! ### TV_SEARCH (R558 to R562) -/

/-- How taking nodes in a round ended. -/
inductive TvTake where
  | go
  | found (node : Nat)
  | aborted
  deriving DecidableEq, Repr

/-- A search in progress. -/
structure TvRun where
  s : Side
  q : TvQuery
  met : Bool
  flags : Nat
  deriving DecidableEq, Repr

/-- A node's state marked SETTLED (R556). -/
def TvRun.settleNode (r : TvRun) (n : Nat) : TvRun :=
  let (s, m) := r.s.scatter 0x0A (goodAt (r.q.stateAt n + 26) [1])
  { r with s := s, met := r.met || m, q := { r.q with settled := r.q.settled + 1 } }

/-- The nodes that a round takes. -/
def TvRun.take : Nat → TvRun → List Nat → Nat → Nat → TvRun × List Nat × TvTake
  | 0, r, taken, _, _ => (r, taken, .go)
  | f + 1, r, taken, edges, pops =>
      match r.q.paddock with
      | [] => (r, taken, .go)
      | (_, n) :: rest =>
          if sfld r.q.block 118 0 8 ≤ taken.length ∨ 1024 ≤ pops then (r, taken, .go)
          else
            let popped : TvRun := { r with q := { r.q with paddock := rest } }
            match r.s.tvState r.q n with
            | none => (r, taken, .aborted)
            | some v =>
                if bitAt v (8 * 26) then TvRun.take f popped taken edges (pops + 1)
                else if (r.s.tvDist r.q n).le (f32At r.q.block 44) then (popped.settleNode n, taken, .found n)
                else
                  let k := (r.s.outEdges n).length
                  if taken ≠ [] ∧ r.s.tvWorking < edges + k then (r, taken, .go)
                  else TvRun.take f (popped.settleNode n) (taken ++ [n]) (edges + k) (pops + 1)

/-- One checked out-edge applied to the search (R558); none where a state read finds poison. -/
def TvRun.relax (r : TvRun) (n e : Nat) (c : Bool × FVal × Nat) : Option TvRun :=
  let goal := sfld (r.s.num (r.s.edgeAt e) 32) 4 0 32
  if c.1 then some r
  else
    match r.s.tvState r.q goal, r.s.tvState r.q n with
    | some vt, some vn =>
        let known := r.q.reached vt
        if known && bitAt vt (8 * 26) then some r
        else if sfld r.q.block 116 0 16 ≤ sfld vn 24 0 16 + 1 then
          some { r with q := { r.q with depthCut := r.q.depthCut + 1 }, flags := r.flags ||| tvDepthCut }
        else
          let g2 := r32 ((f32At vn 4).add c.2.1)
          if !known || g2.lt (f32At vt 4) then
            let (s, m) := r.s.setTvState r.q goal (to32 g2) (sfld vn 8 0 64 + sfld (r.s.num (r.s.edgeAt e) 32) 16 0 32) n e (sfld vn 24 0 16 + 1) 0
            some { r with s := s, met := r.met || m, q := r.q.push (r.s.tvKey r.q goal g2) goal }
          else some r
    | _, _ => none

/-- The checks of a round counted. -/
def TvRun.counted (r : TvRun) (cs : List (Bool × FVal × Nat)) : TvRun :=
  let p := cs.foldl (fun a c => a + c.2.2) 0
  { r with q := { r.q with checked := r.q.checked + cs.length, blocked := r.q.blocked + (cs.filter (fun c => c.1)).length,
                           poison := r.q.poison + p },
           flags := r.flags ||| (if p = 0 then 0 else tvPoisonCells), s := r.s.wr Reg.TV_PASSES (r.s.rd Reg.TV_PASSES + 1) }

/-- One round; the outcome it decides, if it does, and the node found. -/
def TvRun.round (r : TvRun) : TvRun × Option (Nat × Option Nat) :=
  let r : TvRun := { r with q := { r.q with rounds := r.q.rounds + 1 } }
  if r.q.paddock.isEmpty then (r, some (2, none))
  else
    match TvRun.take 1025 r [] 0 0 with
    | (r, _, .found n) => (r, some (1, some n))
    | (r, _, .aborted) => (r, some (6, none))
    | (r, [], .go) => (r, none)
    | (r, taken, .go) =>
        let cs := (taken.map (fun n =>
          let t := sfld (r.s.num (r.q.stateAt n) 32) 8 0 64
          (r.s.outEdges n).map (fun e => (n, e, r.s.tvCheckEdge r.q n e t)))).flatten
        let r := r.counted (cs.map (fun c => c.2.2))
        match cs.foldl (fun (a : Option TvRun × TvRun) c =>
            match a.1 with
            | none => a
            | some x => match x.relax c.1 c.2.1 c.2.2 with
              | some y => (some y, y)
              | none => (none, x)) (some r, r) with
        | (some r, _) => (r, none)
        | (none, r) => (r, some (6, none))

/-- The rounds of a TV_SEARCH: `used` ns so far, the time of each round from `durs` (at most 30,000 ns; 30,000 where the list
has ended, or the row ends there where `more`), the count of rounds. -/
def tvRounds (start deadline maxNs : Nat) (more : Bool) : Nat → TvRun → List Nat → Nat → Nat → TvRun × Option (Nat × Option Nat × Nat) × Nat × Nat × Bool
  | 0, r, _, used, n => (r, none, used, n, true)
  | f + 1, r, durs, used, n =>
      if maxNs < used + 30000 then (r, none, used, n, true)
      else if durs = [] ∧ more = true then (r, none, used, n, false)
      else
        let d := max 1 (min 30000 (durs.headD 30000))
        if past (start + used) deadline then (r, some (3, none, start + used), used, n, true)
        else
          match r.round with
          | (r, some (k, node)) => (r, some (k, node, start + used), used, n + 1, true)
          | (r, none) => tvRounds start deadline maxNs more f r (durs.drop 1) (used + d) (n + 1)

/-- The rounds of a TV_SEARCH on a query: the run, the outcome they decided with the node found and its time, the time used, the count of
rounds, and whether the command is at its end. -/
def Side.searchRun (s : Side) (o : Op) (q : TvQuery) (durs : List Nat) (more : Bool) :
    TvRun × Option (Nat × Option Nat × Nat) × Nat × Nat × Bool :=
  let start := match o.run with | some (_, t) => t | none => s.now
  let maxNs := o.f 32 0 32
  tvRounds start (sfld q.block 8 0 64) maxNs more (maxNs + 1) ⟨s, q, false, o.pages.getD 1 0⟩ durs o.resv (o.pages.headD 0)

/-- TV_SEARCH: rounds until an outcome is decided or MAX_NS is used. -/
def tvSearch (durs : List Nat) (more : Bool) (o : Op) (s : Side) : Side :=
  match s.tvRunning with
  | none => s.tvEnd o false none tvNotOpen 0
  | some q =>
      if s.flag Reg.TV_CTRL 2 = false then s.tvEnd o false none tvIncomplete 0
      else
        let (r, out, used, n, done) := s.searchRun o q durs more
        let s := r.s.showQuery r.q
        match out with
        | some (k, node, t) =>
            let (s, m) := s.endQuery r.q k t node
            s.tvEnd o (r.met || m) (some k) r.flags n
        | none =>
            if done then s.tvEnd o r.met none r.flags n
            else s.setOp { o with resv := used, pages := [n, r.flags] }

/-! ### TV_GROW (R563 to R567) -/

/-- The generator of R564: the draw as an exact fraction, and the next state. -/
def tvDraw (st : Nat) : FVal × Nat :=
  let a := st ^^^ (st >>> 12)
  let b := (a ^^^ (a <<< 25)) % 2 ^ 64
  let c := b ^^^ (b >>> 27)
  ((FVal.ofInt ((c * 0x2545F4914F6CDD1D % 2 ^ 64) >>> 40 : Nat)).scale2 (-24), c)

/-- The candidates of a command, in FP64 (R564). -/
def tvCandidates (b gx gy : Nat) : Nat → Nat → Nat → List (FVal × FVal)
  | 0, _, _ => []
  | f + 1, i, st =>
      let bias := sfld b 43 0 8
      if bias ≠ 0 ∧ (i + 1) % bias = 0 then (of32 gx, of32 gy) :: tvCandidates b gx gy f (i + 1) st
      else
        let (u1, st) := tvDraw st
        let (u2, st) := tvDraw st
        let at_ (lo hi : Nat) (u : FVal) : FVal := add64 (f32At b lo) (mul64 u (sub64 (f32At b hi) (f32At b lo)))
        (at_ 0 4 u1, at_ 8 12 u2) :: tvCandidates b gx gy f (i + 1) st

/-- The nearest of some nodes to a point, by exact squared distance, ties to the lower index; with the squared distance. -/
def Side.nearest (s : Side) (x y : FVal) (ns : List Nat) : Option (Nat × FVal) :=
  ns.foldl (fun (best : Option (Nat × FVal)) n =>
    let v := s.num (s.nodeAt n) 8
    let dx := x.sub (f32At v 0)
    let dy := y.sub (f32At v 4)
    let d := (dx.mul dx).add (dy.mul dy)
    match best with
    | none => some (n, d)
    | some b => if d.lt b.2 then some (n, d) else best) none

/-- An edge to be added: its ends, duration, length, samples (X, Y, YAW, DT). -/
structure NewEdge where
  src : Nat
  dur : Nat
  len : FVal
  samples : List (Nat × Nat × Nat × Nat)
  deriving DecidableEq, Repr

/-- A time in ns as a field of 4 B holds it; for a longer one the manual states none. -/
def offset32 (n : Nat) : Nat := if n < 2 ^ 32 then n else Config.lateOffset n % 2 ^ 32

/-- An edge built along a line (R565). -/
def growEdge (b : Nat) (src : Nat) (x0 y0 x1 y1 len : FVal) : NewEdge :=
  let ns := sfld b 42 0 8
  let yaw := atan2V (sub64 y1 y0) (sub64 x1 x0)
  let samples := (upTo ns).map (fun k =>
    let f := r64 (FVal.ratio (k : Nat) (ns - 1))
    let t := mul64 (div64 (mul64 f len) (f32At b 20)) (FVal.ofInt 1000000000)
    (to32 (r32 (add64 x0 (mul64 f (sub64 x1 x0)))), to32 (r32 (add64 y0 (mul64 f (sub64 y1 y0)))), to32 (r32 yaw),
      offset32 (t.floor.getD 0).toNat))
  ⟨src, (samples.getLastD (0, 0, 0, 0)).2.2.2, len, samples⟩

/-- The samples of a new edge, from a start time. -/
def NewEdge.points (e : NewEdge) (t0 : Nat) : List (FVal × FVal × FVal × Nat) :=
  e.samples.map (fun p => (of32 p.1, of32 p.2.1, of32 p.2.2.1, t0 + p.2.2.2))

/-- An edge written into the dynamic area and appended to the out-edges of its start (R566). -/
def Side.addEdge (s : Side) (e : NewEdge) (src goal : Nat) : Side × Bool :=
  let j := s.tvNE + s.tvUE
  let last := (s.outEdges src).getLast?
  let rec32 := toBytes 4 src ++ toBytes 4 goal ++ toBytes 4 0 ++ toBytes 1 e.samples.length ++ toBytes 3 0 ++ toBytes 4 e.dur ++
    toBytes 4 (to32 (r32 e.len)) ++ toBytes 4 0xFFFFFFFF ++ toBytes 4 0
  let a := s.nodeAt src
  let n := s.num (a + 12) 2
  let link := match last with
    | none => goodAt (a + 8) (toBytes 4 j)
    | some l => goodAt (s.edgeAt l + 24) (toBytes 4 j)
  let ws := goodAt (s.edgeAt j) rec32 ++ goodAt (s.samplesAt j) ((e.samples.map (fun p => toBytes 4 p.1 ++ toBytes 4 p.2.1 ++ toBytes 4 p.2.2.1 ++
    toBytes 4 p.2.2.2)).flatten) ++ link ++ goodAt (a + 12) (toBytes 2 (min 255 (n + 1)))
  let (s, m) := s.scatter 0x0A ws
  (s.put Reg.TV_DUSE 32 32 (s.tvUE + 1), m)

/-- A candidate's plan: the new node, its edge and its connector with the static node. -/
structure GrowPlan where
  x : Nat
  y : Nat
  t : Nat
  edge : NewEdge
  conn : Option (NewEdge × Nat)
  deriving DecidableEq, Repr

/-- What a candidate asks for (R565). -/
def Side.growPlan (s : Side) (b : Nat) (tree statics : List Nat) (c : FVal × FVal) : Option GrowPlan :=
  match s.nearest c.1 c.2 tree with
  | none => none
  | some (n, d2) =>
      if d2.isZero then none
      else
        let v := s.num (s.nodeAt n) 8
        let x0 := f32At v 0
        let y0 := f32At v 4
        let dx := sub64 c.1 x0
        let dy := sub64 c.2 y0
        let l := sqrt64 (add64 (mul64 dx dx) (mul64 dy dy))
        let step := f32At b 16
        let (x1, y1, len) := if l.le step then (c.1, c.2, l)
          else (add64 x0 (mul64 dx (div64 step l)), add64 y0 (mul64 dy (div64 step l)), step)
        let e := growEdge b n x0 y0 x1 y1 len
        let cm := f32At b 24
        let conn := if FVal.zero.lt cm then
            match s.nearest x1 y1 statics with
            | some (k, k2) =>
                if k2.le (cm.mul cm) then
                  let w := s.num (s.nodeAt k) 8
                  let ex := sub64 (f32At w 0) x1
                  let ey := sub64 (f32At w 4) y1
                  some (growEdge b 0 x1 y1 (f32At w 0) (f32At w 4) (sqrt64 (add64 (mul64 ex ex) (mul64 ey ey))), k)
                else none
            | none => none
          else none
        some ⟨to32 (r32 x1), to32 (r32 y1), s.num (s.treeTimeAt n) 8, e, conn⟩

/-- The candidates of a TV_GROW checked, and those that are not blocked added to the tree with their connectors (R564 to R566): the run,
and how many were added. -/
def Side.growRun (s : Side) (o : Op) (q : TvQuery) : TvRun × Nat :=
  let b := o.block (o.f 32 0 64)
  let usable (n : Nat) : Bool := !(s.poisoned (s.nodeAt n) 16)
  let dyn := (upTo s.tvUN).map (fun j => s.tvNN + j)
  let tree := dyn.filter (fun n => usable n && !(s.poisoned (s.treeTimeAt n) 8))
  let statics := (upTo s.tvNN).filter usable
  let lost := dyn.length - tree.length + (s.tvNN - statics.length)
  let plans := (tvCandidates b (sfld q.block 36 0 32) (sfld q.block 40 0 32) (sfld b 40 0 16) 0 (sfld b 32 0 64)).filterMap
    (s.growPlan b tree statics)
  let ck (e : NewEdge) (t0 : Nat) : Bool × FVal × Nat :=
    (q.grid).check (tvFoot q.block) (s.costCell q.grid) (r32 e.len) (e.points t0)
  let checked := plans.map (fun p => (p, ck p.edge p.t, p.conn.map (fun c => (c, ck c.1 (p.t + p.edge.dur)))))
  let cs := (checked.map (fun x => x.2.1 :: (match x.2.2 with | some c => [c.2] | none => []))).flatten
  let r := (TvRun.mk s q false (if lost = 0 then 0 else tvPoisonCells)).counted cs
  let (s, met, n) := checked.foldl (fun (acc : Side × Bool × Nat) x =>
    if x.2.1.1 then acc
    else
      let node := acc.1.tvNN + acc.1.tvUN
      let (s, m1) := acc.1.addNode x.1.x x.1.y (x.1.t + x.1.edge.dur)
      let (s, m2) := s.addEdge x.1.edge x.1.edge.src node
      let (s, m3) := match x.2.2 with
        | some c => if c.2.1 then (s, false) else s.addEdge c.1.1 node c.1.2
        | none => (s, false)
      (s, acc.2.1 || m1 || m2 || m3, acc.2.2 + 1)) (r.s, false, 0)
  ({ r with s := s, met := met, q := { r.q with poison := r.q.poison + lost } }, n)

/-- TV_GROW. -/
def tvGrow (o : Op) (s : Side) : Side :=
  if sfld (o.block (o.f 32 0 64)) 40 0 16 = 0 then s.tvEnd o false none 0 0
  else
    match s.tvRunning with
    | none => s.tvEnd o false none tvNotOpen 0
    | some q =>
        if s.flag Reg.TV_CTRL 2 = false then s.tvEnd o false none tvIncomplete 0
        else if s.tvUN = 0 then s.tvEnd o false none 0 0
        else
          let (r, n) := s.growRun o q
          (r.s.showQuery r.q).tvEnd o r.met none r.flags n

end Sys2Proof.Machine
end

