-- ==== Sys2Proof/Machine/Pacer.lean ====
section
/-!
DEFINITION. Machine/Pacer.lean: smoothing, time-scaling and publishing a path (R571 to R576), the minimal-risk stop (R577 to
R579), enabling Traverse (R581). Arithmetic is FP64, each operation rounded in the order written here.
-/
namespace Sys2Proof.Machine

/-- A point of a path: X, Y, YAW and its time. -/
structure PathPoint where
  x : FVal
  y : FVal
  yaw : FVal
  t : Nat
  deriving DecidableEq, Repr

/-- A point of a trajectory record (R575). -/
structure TrajPoint where
  x : FVal
  y : FVal
  yaw : FVal
  v : FVal
  a : FVal
  kappa : FVal
  arc : FVal
  off : Nat
  deriving DecidableEq, Repr

/-- The 32 bytes of a trajectory point. -/
def TrajPoint.bytes (p : TrajPoint) : List Byte :=
  ([p.x, p.y, p.yaw, p.v, p.a, p.kappa, p.arc].map (fun v => toBytes 4 (to32 (r32 v)))).flatten ++ toBytes 4 (offset32 p.off)

/-- The header of a trajectory record (R575). -/
structure TrajHead where
  validity : Nat
  epoch : Nat
  t0 : Nat
  serial : Nat
  stop : Bool
  outcome : Nat
  flags : Nat
  jerk : FVal
  decel : FVal
  frame : List Nat
  deriving DecidableEq, Repr

/-- A trajectory record's bytes (R575). -/
def trajBytes (h : TrajHead) (published seq : Nat) (ps : List TrajPoint) : List Byte :=
  toBytes 8 h.validity ++ toBytes 8 h.epoch ++ toBytes 8 h.t0 ++ toBytes 8 published ++ toBytes 4 h.serial ++ toBytes 2 ps.length ++
    toBytes 1 (if h.stop then 1 else 0) ++ toBytes 1 h.outcome ++ toBytes 4 h.flags ++ toBytes 4 (to32 (r32 h.jerk)) ++
    toBytes 4 (to32 (r32 h.decel)) ++ toBytes 4 (h.frame.getD 0 0) ++ toBytes 4 (h.frame.getD 1 0) ++ toBytes 4 (h.frame.getD 2 0) ++
    toBytes 8 seq ++ toBytes 56 0 ++ (ps.map TrajPoint.bytes).flatten

/-- A plan or stop published (R576): its buffer by SEQ, and the count. Answers whether a protected extent was met. -/
def Side.publishTraj (s : Side) (h : TrajHead) (ps : List TrajPoint) : Side × Bool :=
  let seq := ((if h.stop then s.tv.stopSeq else s.tv.planSeq) + 1) % 2 ^ 64
  let base := if h.stop then local46 (s.rd (Reg.TV_MBASE (seq % 2))).toNat else local46 (s.rd (Reg.TV_PBASE (seq % 2))).toNat
  let (s, met) := s.scatter 0x0A (goodAt base (trajBytes h s.now seq ps))
  let s := s.tvSet (fun t => if h.stop then { t with stopSeq := seq } else { t with planSeq := seq })
  (s.put Reg.TV_SEQ (if h.stop then 32 else 0) 32 seq, met)

/-! ### The path (R572) -/

/-- The points of a path edge by its entries, timed from the arrival at its start. -/
def Side.edgePoints (s : Side) (q : TvQuery) (e : Nat) : List PathPoint :=
  let v := s.num (s.edgeAt e) 32
  let t0 := sfld (s.num (q.stateAt (sfld v 0 0 32)) 32) 8 0 64
  (upTo (sfld v 12 0 8)).map (fun k =>
    let p := s.num (s.samplesAt e + 16 * k) 16
    ⟨f32At p 0, f32At p 4, f32At p 8, t0 + sfld p 12 0 32⟩)

/-- Points equal in x and y to the one before them dropped. -/
def dropEqual (ps : List PathPoint) : List PathPoint :=
  (ps.foldl (fun (acc : List PathPoint) p =>
    match acc with
    | q :: _ => if q.x.le p.x && p.x.le q.x && q.y.le p.y && p.y.le q.y then acc else p :: acc
    | [] => [p]) []).reverse

/-- One Jacobi iteration (R572). -/
def jacobi (alpha : FVal) (ps : List PathPoint) : List PathPoint :=
  let n := ps.length
  (upTo n).map (fun i =>
    let p := ps.getD i ⟨FVal.zero, FVal.zero, FVal.zero, 0⟩
    if i = 0 ∨ i + 1 = n then p
    else
      let a := ps.getD (i - 1) p
      let b := ps.getD (i + 1) p
      let mv (x y z : FVal) : FVal := add64 y (mul64 alpha (sub64 ((add64 x z).scale2 (-1)) y))
      { p with x := mv a.x p.x b.x, y := mv a.y p.y b.y })

/-- Cut into pieces of 64 points. -/
def pieces64 (ps : List PathPoint) : List (List PathPoint) :=
  (upTo (ceilDiv ps.length 64)).map (fun i => (ps.drop (64 * i)).take 64)

/-! ### Time scaling (R573) -/

/-- The lesser of two values. -/
def minVal (a b : FVal) : FVal := if b.lt a then b else a

/-- The curvature through three points, signed; 0 where two of them coincide. -/
def curvature (a b c : PathPoint) : FVal :=
  let d (p q : PathPoint) : FVal :=
    let x := sub64 q.x p.x
    let y := sub64 q.y p.y
    sqrt64 (add64 (mul64 x x) (mul64 y y))
  let cross := sub64 (mul64 (sub64 b.x a.x) (sub64 c.y a.y)) (mul64 (sub64 b.y a.y) (sub64 c.x a.x))
  let den := mul64 (mul64 (d a b) (d b c)) (d a c)
  if den.isZero then FVal.zero else div64 (mul64 (FVal.ofInt 2) cross) den

/-- The inputs of a profile: segment lengths, limits, and the parameters of R571. -/
structure Pace where
  ds : List FVal
  vlim : List FVal
  v0 : FVal
  vEnd : FVal
  aMax : FVal
  dMax : FVal
  jMax : FVal
  deriving DecidableEq, Repr

/-- A profile: speeds, accelerations and times. -/
structure Profile where
  v : List FVal
  a : List FVal
  dt : List FVal
  up : List FVal
  dn : List FVal
  deriving DecidableEq, Repr

/-- The element of a list of values. -/
def at0 (l : List FVal) (i : Nat) : FVal := l.getD i FVal.zero

/-- √(v² + 2·k·ds). -/
def reachSpeed (v k ds : FVal) : FVal := sqrt64 (add64 (mul64 v v) (mul64 (mul64 (FVal.ofInt 2) k) ds))

/-- One of the four passes of R573. -/
def Pace.pass (p : Pace) (r : Profile) : Profile :=
  let n := p.ds.length + 1
  let fwd := (upTo (n - 1)).foldl (fun (acc : List FVal × FVal) i =>
    let v := minVal (at0 p.vlim (i + 1)) (reachSpeed acc.2 (at0 r.up i) (at0 p.ds i))
    (acc.1 ++ [v], v)) ([p.v0], p.v0)
  let last := minVal (at0 fwd.1 (n - 1)) p.vEnd
  let v1 := setAt fwd.1 (n - 1) last
  let v := (upTo (n - 2)).foldl (fun (v : List FVal) k =>
    let i := n - 2 - k
    setAt v i (minVal (at0 v i) (reachSpeed (at0 v (i + 1)) (at0 r.dn i) (at0 p.ds i)))) v1
  let sq (i : Nat) : FVal := mul64 (at0 v i) (at0 v i)
  let a := (upTo (n - 1)).map (fun i => div64 (sub64 (sq (i + 1)) (sq i)) (mul64 (FVal.ofInt 2) (at0 p.ds i)))
  let dt := (upTo (n - 1)).map (fun i =>
    let w := add64 (at0 v i) (at0 v (i + 1))
    if w.isZero then FVal.zero else div64 (mul64 (FVal.ofInt 2) (at0 p.ds i)) w)
  let jt (i : Nat) : FVal := mul64 p.jMax (at0 dt (i - 1))
  let inner (l : List FVal) (lim : FVal) (f : Nat → FVal) : List FVal :=
    (upTo n).map (fun i => if 1 ≤ i ∧ i + 1 < n then minVal lim (maxVal FVal.zero (f i)) else at0 l i)
  ⟨v, a, dt, inner r.up p.aMax (fun i => add64 (at0 a (i - 1)) (jt i)), inner r.dn p.dMax (fun i => sub64 (jt i) (at0 a (i - 1)))⟩

/-- The profile after four passes. -/
def Pace.run (p : Pace) : Profile :=
  let n := p.ds.length + 1
  let r0 : Profile := ⟨[p.v0], [], [], List.replicate n p.aMax, List.replicate n p.dMax⟩
  p.pass (p.pass (p.pass (p.pass r0)))

/-- The index at which the profile ends (R573). -/
def Profile.last (r : Profile) (n : Nat) : Nat :=
  match ((upTo n).drop 1).find? (fun i => (at0 r.v i).isZero) with
  | some i => i
  | none => n - 1

/-- PEAK_JERK over the segments of the profile. -/
def Profile.jerk (r : Profile) (e : Nat) : FVal :=
  ((upTo e).drop 1).foldl (fun m i =>
    let w := (add64 (at0 r.dt (i - 1)) (at0 r.dt i)).scale2 (-1)
    if w.isZero then m else maxVal m (div64 (sub64 (at0 r.a i) (at0 r.a (i - 1))).abs w)) FVal.zero

/-- Running sums, from 0. -/
def sums64 (l : List FVal) : List FVal :=
  (l.foldl (fun (acc : List FVal × FVal) d => (acc.1 ++ [add64 acc.2 d], add64 acc.2 d)) ([FVal.zero], FVal.zero)).1

/-- Nanoseconds as seconds. -/
def secs (n : Nat) : FVal := r64 (FVal.ratio (n : Nat) 1000000000)

/-- Seconds as nanoseconds, to the nearest. -/
def nanos (v : FVal) : Nat := (((mul64 v (FVal.ofInt 1000000000)).rint).getD 0).toNat

/-- Point `i` of a path, its curvature given, at a distance along its segment. -/
def segPoint (ps : List PathPoint) (ks ds cum : List FVal) (i : Nat) (d v a : FVal) (off : Nat) : TrajPoint :=
  let z : PathPoint := ⟨FVal.zero, FVal.zero, FVal.zero, 0⟩
  let p := ps.getD i z
  let n := ps.getD (i + 1) p
  let f := if (at0 ds i).isZero then FVal.zero else div64 d (at0 ds i)
  ⟨add64 p.x (mul64 f (sub64 n.x p.x)), add64 p.y (mul64 f (sub64 n.y p.y)), p.yaw, v, a, at0 ks i, add64 (at0 cum i) d, off⟩

/-- What a TV_PACE comes to: the head and the points of the plan, whether its smoothing was rejected, and the flags of its RESULT. -/
structure PaceRun where
  head : TrajHead
  out : List TrajPoint
  rejected : Bool
  flags : Nat
  deriving DecidableEq, Repr

/-- Where the result record of a query stands, its path behind a header of 128 B (R541). -/
def TvQuery.recordAt (q : TvQuery) : Nat := local46 (sfld q.block 24 0 64)

/-- The entries of a result record's path: nodes, and the edges that lead to them. -/
def Side.pathEntries (s : Side) (q : TvQuery) : List (Nat × Nat) :=
  (upTo (s.num (q.recordAt + 30) 2)).map (fun k => (s.num (q.recordAt + 128 + 8 * k) 4, s.num (q.recordAt + 132 + 8 * k) 4))

/-- The extents that a TV_PACE reads: the result record, its nodes and their states, its edges and their samples (R572). -/
def Side.paceReads (s : Side) (q : TvQuery) : List (Nat × Nat) :=
  let entries := s.pathEntries q
  (q.recordAt, 128 + 8 * s.num (q.recordAt + 30) 2) :: (entries.map (fun e => [(s.nodeAt e.1, 16), (q.stateAt e.1, 32)])).flatten ++
    ((entries.drop 1).map (fun e => [(s.edgeAt e.2, 32), (s.samplesAt e.2, 16 * sfld (s.num (s.edgeAt e.2) 32) 12 0 8)])).flatten

/-- The path of an ended query smoothed, checked and paced (R572 to R575). The yaw of the first point, of no edge, is free: `dn` numbers it. -/
def Side.paceRun (s : Side) (o : Op) (q : TvQuery) (dn : Nat) : PaceRun :=
  let b := o.block (o.f 32 0 64)
  let entries := s.pathEntries q
  let first := (entries.headD (0, 0)).1
  let nv := s.num (s.nodeAt first) 8
  let p0 : PathPoint := ⟨f32At nv 0, f32At nv 4, of32 (Config.freeNat dn % 2 ^ 32), sfld (s.num (q.stateAt first) 32) 8 0 64⟩
  let poly := dropEqual (if entries.isEmpty then [] else p0 :: ((entries.drop 1).map (fun e => s.edgePoints q e.2)).flatten)
  let cut := decide (4096 < poly.length)
  let poly := poly.take 4096
  let iter := sfld b 32 0 8
  let smooth := (upTo iter).foldl (fun ps _ => jacobi (f32At b 36) ps) poly
  let checks := if iter = 0 then [] else (pieces64 smooth).map (fun ps =>
    (q.grid).check (tvFoot q.block) (s.costCell q.grid) FVal.zero (ps.map (fun p => (p.x, p.y, p.yaw, p.t))))
  let rejected := checks.any (fun c => c.1)
  let poison := checks.any (fun c => c.2.2 != 0)
  let ps := if rejected then poly else smooth
  let n := ps.length
  let z : PathPoint := ⟨FVal.zero, FVal.zero, FVal.zero, 0⟩
  let pt (i : Nat) : PathPoint := ps.getD i z
  let ds := (upTo (n - 1)).map (fun i =>
    let x := sub64 (pt (i + 1)).x (pt i).x
    let y := sub64 (pt (i + 1)).y (pt i).y
    sqrt64 (add64 (mul64 x x) (mul64 y y)))
  let ks := (upTo n).map (fun i =>
    let j := if i = 0 then 1 else if i + 1 = n then n - 2 else i
    if n < 3 then FVal.zero else curvature (pt (j - 1)) (pt j) (pt (j + 1)))
  let vMax := f32At b 8
  let vlim := ks.map (fun k => if k.isZero then vMax else minVal vMax (sqrt64 (div64 (f32At b 24) k.abs)))
  let pace : Pace := ⟨ds, vlim, f32At b 0, f32At b 4, f32At b 12, f32At b 16, f32At b 20⟩
  let r := pace.run
  let e := r.last n
  let tau := sums64 (r.dt.take e)
  let cum := sums64 ds
  let tEnd := at0 tau e
  let dtOut := sfld b 28 0 32
  let cap := sfld b 40 0 16
  let mid := (upTo cap).filterMap (fun k =>
    let t := secs (k * dtOut)
    if t.lt tEnd then
      let i := ((upTo e).filter (fun i => (at0 tau i).le t)).length - 1
      let w := sub64 t (at0 tau i)
      let v := at0 r.v i
      let a := at0 r.a i
      some (segPoint ps ks ds cum i (add64 (mul64 v w) ((mul64 (mul64 a w) w).scale2 (-1))) (add64 v (mul64 a w)) a (k * dtOut))
    else none)
  let fin := { segPoint ps ks ds cum e FVal.zero (at0 r.v e) (at0 r.a (e - 1)) (nanos tEnd) with arc := at0 cum e }
  let out := if n = 0 then [] else if mid.length < cap then mid ++ [fin] else mid
  let horizon := cut || (n != 0 && mid.length == cap)
  let jerk := r.jerk e
  let jerkBad := (f32At b 20).lt jerk
  let decelBad := (f32At b 16).lt (at0 r.a 0).neg
  let decel := (r.a.take e).foldl (fun m a => maxVal m a.neg) FVal.zero
  let bit (c : Bool) (v : Nat) : Nat := if c then v else 0
  let fl := bit (q.outcome != 1) 1 + bit rejected 2 + bit jerkBad 4 + bit decelBad 8 + bit horizon 16 + bit poison 512
  ⟨⟨q.validity, q.epoch, sfld q.block 0 0 64, q.serial, false, q.outcome, fl, jerk, decel,
      [sfld q.block 64 0 32, sfld q.block 68 0 32, sfld q.block 72 0 32]⟩, out, rejected,
    bit rejected tvSmoothRejected + bit jerkBad tvJerk + bit decelBad tvDecel + bit horizon tvHorizon + bit poison tvPoisonCells⟩

/-- TV_PACE (R570 to R576). -/
def tvPace (o : Op) (s : Side) : Side :=
  let b := o.block (o.f 32 0 64)
  let start := match o.run with | some (_, t) => t | none => s.now
  match s.tv.query with
  | none => s.tvEnd o false none tvNotOpen 0
  | some q =>
      if q.running then s.tvEnd o false none tvNotEnded 0
      else if sfld b 44 0 32 ≠ 0 ∧ q.validity + sfld b 44 0 32 < start then s.finish o false stEpoch 0
      else if (s.paceReads q).any (fun e => s.poisoned e.1 e.2) then s.finish o false stPoison 0
      else
        let r := s.paceRun o q s.draw.1
        let s := s.draw.2
        let s := if sfld b 32 0 8 = 0 then s else s.wr Reg.TV_PASSES (s.rd Reg.TV_PASSES + 1)
        let s := if r.rejected then s.count Reg.TV_CNT2 32 16 else s
        let (s, met) := s.publishTraj r.head r.out
        s.tvEnd o met none r.flags r.out.length

/-! ### The minimal-risk stop (R577 to R579) -/

/-- A stop's motion along its path: initial speed and acceleration, D_MRS and J_MRS in SI. -/
structure StopRun where
  v0 : FVal
  a0 : FVal
  d : FVal
  j : FVal
  deriving DecidableEq, Repr

/-- The time at which the deceleration reaches D_MRS. -/
def StopRun.rise (r : StopRun) : FVal := maxVal FVal.zero (div64 (add64 r.a0 r.d) r.j)

/-- Distance, speed and acceleration at a time within the rise. -/
def StopRun.early (r : StopRun) (t : FVal) : FVal × FVal × FVal :=
  let jt := mul64 r.j t
  let t2 := mul64 t t
  (add64 (add64 (mul64 r.v0 t) ((mul64 r.a0 t2).scale2 (-1))) (div64 (mul64 jt t2) (FVal.ofInt 6)).neg,
    sub64 (add64 r.v0 (mul64 r.a0 t)) ((mul64 jt t).scale2 (-1)), sub64 r.a0 jt)

/-- The time at which the speed reaches 0. -/
def StopRun.stopAt (r : StopRun) : FVal :=
  if r.v0.isZero then FVal.zero
  else
    let tj := r.rise
    let v := (r.early tj).2.1
    if FVal.zero.lt v then add64 tj (div64 v r.d)
    else div64 (add64 r.a0 (sqrt64 (add64 (mul64 r.a0 r.a0) (mul64 (mul64 (FVal.ofInt 2) r.j) r.v0)))) r.j

/-- Distance, speed and acceleration at a time before the stop. -/
def StopRun.at_ (r : StopRun) (t : FVal) : FVal × FVal × FVal :=
  let tj := r.rise
  if t.le tj then r.early t
  else
    let (s, v, _) := r.early tj
    let w := sub64 t tj
    (sub64 (add64 s (mul64 v w)) ((mul64 r.d (mul64 w w)).scale2 (-1)), sub64 v (mul64 r.d w), r.d.neg)

/-- A place along a path by distance: X, Y, YAW, KAPPA. -/
abbrev Along := List (FVal × FVal × FVal × FVal × FVal)

/-- The place at an arc length of a path given by its points (arc length first), straight on beyond its end. -/
def placeAt (l : Along) (arc : FVal) : FVal × FVal × FVal × FVal :=
  let n := l.length
  let z := (FVal.zero, FVal.zero, FVal.zero, FVal.zero, FVal.zero)
  let i := (l.filter (fun p => p.1.le arc)).length - 1
  let p := l.getD i z
  if i + 1 < n then
    let q := l.getD (i + 1) z
    let w := sub64 q.1 p.1
    let f := if w.isZero then FVal.zero else div64 (sub64 arc p.1) w
    (add64 p.2.1 (mul64 f (sub64 q.2.1 p.2.1)), add64 p.2.2.1 (mul64 f (sub64 q.2.2.1 p.2.2.1)), p.2.2.2.1, p.2.2.2.2)
  else
    let d := sub64 arc p.1
    (add64 p.2.1 (mul64 d (cosV p.2.2.2.1)), add64 p.2.2.1 (mul64 d (sinV p.2.2.2.1)), p.2.2.2.1,
      FVal.zero)

/-- A candidate stop: its motion, its path with the arc length at its start, the frame of its coordinates, its flags. -/
structure StopPlan where
  run : StopRun
  path : Along
  arc0 : FVal
  frame : List Nat
  flags : Nat
  deriving DecidableEq, Repr

/-- D_MRS and J_MRS in SI units (R580). -/
def Side.mrs (s : Side) (lo : Nat) : FVal := r64 (FVal.ratio (s.fld Reg.TV_MRS lo 16 : Nat) 100)

/-- The straight stop (R577): along the heading at t_s, in the body frame at a reference time. -/
def Side.straightStop (s : Side) (ref ts : Nat) : StopPlan :=
  let z := FVal.zero
  match s.posePlain ref, s.posePlain ts with
  | some a, some b =>
      let qa := Quat.of flt32 a.q
      let inv := qa.conj
      let dp := inv.rotate ((V3.of flt64 b.pos).sub (V3.of flt64 a.pos))
      let dq := inv.mul (Quat.of flt32 b.q)
      let two (x : FVal) : FVal := mul64 (FVal.ofInt 2) x
      let yaw := atan2V (two (add64 (mul64 dq.w dq.z) (mul64 dq.x dq.y)))
        (sub64 (FVal.ofInt 1) (two (add64 (mul64 dq.y dq.y) (mul64 dq.z dq.z))))
      ⟨⟨(V3.of flt32 b.vel).len, z, s.mrs 48, s.mrs 32⟩, [(z, dp.x, dp.y, yaw, z)], z, [0, 0, 0], 128⟩
  | _, _ => ⟨⟨z, z, s.mrs 48, s.mrs 32⟩, [(z, z, z, z, z)], z, [0, 0, 0], 128 + 64⟩

/-- A plan in a plan buffer that a stop may follow (R577). -/
def Side.followPlan (s : Side) (epoch ts seq : Nat) : Option StopPlan :=
  let base := local46 (s.rd (Reg.TV_PBASE (seq % 2))).toNat
  let h := s.num base 128
  let n := sfld h 36 0 16
  if seq = 0 ∨ n = 0 ∨ 1024 < n ∨ s.poisoned base (128 + 32 * n) = true ∨ sfld h 64 0 64 ≠ seq then none
  else
    let pts := (upTo n).map (fun i => s.num (base + 128 + 32 * i) 32)
    let t0 := sfld h 16 0 64
    let lastOff := sfld (pts.getLastD 0) 28 0 32
    if sfld h 8 0 64 + 2 < epoch ∨ ts < t0 ∨ t0 + lastOff < ts then none
    else
      let i := (pts.filter (fun p => decide (t0 + sfld p 28 0 32 ≤ ts))).length - 1
      let p := pts.getD i 0
      let w := secs (ts - t0 - sfld p 28 0 32)
      let v := f32At p 12
      let a := f32At p 16
      some ⟨⟨add64 v (mul64 a w), a, s.mrs 48, s.mrs 32⟩, pts.map (fun x => (f32At x 24, f32At x 0, f32At x 4, f32At x 8, f32At x 20)),
        add64 (f32At p 24) (add64 (mul64 v w) ((mul64 (mul64 a w) w).scale2 (-1))), [sfld h 52 0 32, sfld h 56 0 32, sfld h 60 0 32], 0⟩

/-- The points of a stop (R577): every DT_MRS ms and a last one at rest, at most 1,024, and whether more were needed. -/
def StopPlan.points (p : StopPlan) (dtMs : Nat) : List TrajPoint × Bool :=
  let tEnd := p.run.stopAt
  let mk (t : FVal) (off : Nat) (rest : Bool) : TrajPoint :=
    let (d, v, a) := p.run.at_ t
    let (x, y, yaw, k) := placeAt p.path (add64 p.arc0 d)
    ⟨x, y, yaw, if rest then FVal.zero else v, if rest then FVal.zero else a, k, d, off⟩
  let mid := (upTo 1025).filterMap (fun k =>
    let t := secs (k * dtMs * 1000000)
    if t.lt tEnd then some (mk t (k * dtMs * 1000000) false) else none)
  if 1024 ≤ mid.length then (mid.take 1024, true) else (mid ++ [mk tEnd (nanos tEnd) true], false)

/-- A cell of a published buffer, read directly (R578). -/
def Side.bufferCell (s : Side) (e geom : Nat) (g : TvGrid) (i j k : Nat) : TvCell :=
  let c := s.ptPubBuf (e % 2) + 512 + (j * g.w + i) * s.cellBytesOf geom
  ((s.mem.get (c + s.layerOff (bits geom 0 5) + k)).toNat, FVal.zero, s.poisoned c (s.cellBytesOf geom))

/-- The check of a stop (R578): whether it is blocked, and whether a poisoned cell was met. -/
def Side.stopCheck (s : Side) (b epoch ts : Nat) (p : StopPlan) : Bool × Bool :=
  let head := s.num (s.ptPubBuf (epoch % 2)) 256
  let g := tvGrid (sfld head 112 0 64) (sfld head 120 0 64) (sfld head 128 0 16) (sfld head 0 0 64)
  let foot := { tvFoot b with mx := of32 (p.frame.getD 0 0), my := of32 (p.frame.getD 1 0), myaw := of32 (p.frame.getD 2 0) }
  let tEnd := p.run.stopAt
  let samples := (upTo 64).map (fun k =>
    let t := mul64 tEnd (r64 (FVal.ratio (k : Nat) 63))
    let (x, y, yaw, _) := placeAt p.path (add64 p.arc0 (p.run.at_ t).1)
    (x, y, yaw, ts + nanos t))
  let r := g.check foot (s.bufferCell epoch (sfld head 112 0 64) g) FVal.zero samples
  (r.1, r.2.2 != 0)

/-- A stop written as a record. -/
def Side.publishStop (s : Side) (validity epoch ts : Nat) (p : StopPlan) (flags : Nat) : Side :=
  let (ps, cut) := p.points (s.fld Reg.TV_MRS 16 16)
  let decel := ps.foldl (fun m x => maxVal m x.a.neg) FVal.zero
  (s.publishTraj ⟨validity, epoch, ts, 0, true, 1, p.flags + flags + (if cut then 16 else 0), if p.run.v0.isZero then FVal.zero else p.run.j,
    decel, p.frame⟩ ps).1

/-- Whether a stop update may begin (R579): Traverse is idle, or the running command has a Chainman pass whose boundary it begins
at, as TV_GROW, TV_SEARCH and a TV_PACE that smooths have. -/
def Side.mayUpdate (s : Side) : Bool :=
  match s.ops.find? (fun o => o.unit == 0x0A && o.run.isSome) with
  | some o => o.opcode == 3 || o.opcode == 4 || (o.opcode == 5 && sfld (o.block (o.f 32 0 64)) 32 0 8 != 0)
  | none => true

/-- TV_STOP_UPDATE (R577 to R579): the oldest publication a stop is due for. -/
def Side.stopUpdate (s : Side) : Side :=
  match s.tv.stops with
  | [] => s
  | (epoch, published) :: rest =>
      if s.mayUpdate = false then s
      else
      let s := s.tvSet (fun t => { t with stops := rest })
      let ts := published + s.fld Reg.TV_MRS 0 16 * 1000
      let validity := s.num (s.ptPubBuf (epoch % 2)) 8
      let seq := s.tv.planSeq
      let follow := match s.followPlan epoch ts seq with
        | some p => some p
        | none => s.followPlan epoch ts (seq - 1)
      let straight := s.straightStop validity ts
      match s.tv.foot with
      | none => (s.publishStop validity epoch ts (follow.getD straight) 256).count Reg.TV_CNT2 0 16
      | some b =>
          let s := s.wr Reg.TV_PASSES (s.rd Reg.TV_PASSES + 1)
          let first := follow.getD straight
          let (blocked, bad) := s.stopCheck b epoch ts first
          let pf (x : Bool) : Nat := if x then 512 else 0
          if !blocked then s.publishStop validity epoch ts first (pf bad)
          else
            let (b2, bad2) := if follow.isSome then s.stopCheck b epoch ts straight else (true, false)
            if !b2 then s.publishStop validity epoch ts straight (pf bad2)
            else
              let s := (s.publishStop validity epoch ts first (32 + pf bad)).count Reg.TV_CNT2 48 16
              s.raise 0x0C 0x0A 0 none (s.fld Reg.TV_SEQ 32 32)

/-- R577: an epoch published on a side with Traverse enabled makes a stop due. -/
def Side.stopDue (s : Side) (before : Nat) : Side :=
  let e := (s.rd Reg.PT_EPOCH).toNat
  if s.tvOn = true ∧ e ≠ before then s.tvSet (fun t => { t with stops := t.stops ++ [(e, s.num (s.ptPubBuf (e % 2) + 8) 8)] }) else s

/-! ### Enabling (R579, R581) -/

/-- TV_CTRL.CFG_ERR set. -/
def Side.tvErr (s : Side) : Side := s.put Reg.TV_CTRL 3 1 1

/-- Whether the configuration of R581 admits ENABLE. -/
def Side.tvCfgOk (s : Side) : Bool :=
  let nn := s.num s.tvMap 4
  let ne := s.num (s.tvMap + 4) 4
  let dyn := s.fld Reg.TV_DYN 12 52 * 4096
  let cm := (s.rd Reg.TV_CMAP).toNat
  let bufs := (upTo 2).map (fun b => (s.rd (Reg.TV_PBASE b)).toNat) ++ (upTo 2).map (fun b => (s.rd (Reg.TV_MBASE b)).toNat)
  let hub := match s.loc cm with
    | some l => decide (0x3000_0000_0000 ≤ l) && decide (l < 0x3001_0000_0000) && s.part.populated l (s.fld Reg.TV_CMSIZE 0 32)
    | none => false
  s.flag Reg.TV_RMAP 0 && decide (nn + s.tvDN ≤ 65536) && decide (ne + s.tvDE ≤ 65536) && !(s.notNear dyn (24 * s.tvDN + 1056 * s.tvDE)) &&
    hub && bufs.all (fun a => s.extentOk a 32896) && disjoint 32896 bufs

/-- TV_CTRL.ENABLE written (R581): set, the image's sizes are latched and an initial straight stop is published,
of the epoch published last; with none, of epoch and VALIDITY 0 in the body frame of the moment (log entry 13). -/
def Side.tvEnable (s : Side) (on : Bool) : Side :=
  if !on then s.put Reg.TV_CTRL 0 1 0
  else if s.tvOn then s
  else if !s.tvCfgOk then s.tvErr
  else
    let s := s.put Reg.TV_CTRL 0 3 1
    let s := s.put Reg.TV_CTRL 2 1 0
    let s := s.wr Reg.TV_RSIZE (BitVec.ofNat 64 (s.num s.tvMap 8 % 2 ^ 32 + s.num (s.tvMap + 4) 4 * 2 ^ 32))
    let s := (s.wr Reg.TV_DUSE 0).wr Reg.TV_PIN 0
    let s := s.ptSet (fun p => { p with pins := p.pins.filter (fun x => some x.query != s.tv.query.map (fun q => q.serial)) })
    let s := s.tvSet (fun t => { t with query := none, foot := none, stops := [] })
    let ts := s.now + s.fld Reg.TV_MRS 0 16 * 1000
    let e := (s.rd Reg.PT_EPOCH).toNat
    let validity := if e = 0 then 0 else s.num (s.ptPubBuf (e % 2)) 8
    (s.publishStop validity e ts (s.straightStop (if e = 0 then s.now else validity) ts) 256).count Reg.TV_CNT2 0 16

/-- Whether a value of TV_MRS is in range (R580). -/
def mrsOk (v : Word) : Bool :=
  let d := v.fld 48 16
  let j := v.fld 32 16
  let t := v.fld 16 16
  decide (1 ≤ d) && decide (d ≤ 1000) && decide (1 ≤ j) && decide (j ≤ 10000) && decide (10 ≤ t) && decide (t ≤ 500) && decide (v.fld 0 16 ≤ 50000)

end Sys2Proof.Machine
end

