-- ==== Sys2Proof/Machine/Perf.lean ====
section
/-!
DEFINITION. Machine/Perf.lean: the performance monitor (R665 to R676): cycle and slot counters, programmable counters, tag
records, consistent dumps, and its registers' writes.
-/
namespace Sys2Proof.Machine

/-- The performance monitor's part of a side updated. -/
def Side.pmSet (s : Side) (f : Pm → Pm) : Side := { s with pm := f s.pm }

/-- The unit of a monitor's instance (R665). -/
def monitorUnit (m : Nat) : Nat :=
  if m = 0 then 0 else if m ≤ 112 then 0x10 else if m < 0x80 then 0 else if m < 0x98 then 0x0E else if m < 0x9C then 0x0F
  else if m < 0xA0 then 0 else if m < 0xA8 then 0x0D else if m < 0xAA then 0x0C else if m < 0xB0 then 0
  else if m < 0xB8 then [0x05, 0x04, 0x06, 0x07, 0x08, 0x09, 0x0A, 0x0B].getD (m - 0xB0) 0
  else if m < 0xBC then 0x16 else if m = 0xBC then 0x15 else if m = 0xBD then 0x17 else if 0xC0 ≤ m then 0x12 else 0

/-- The cycles of a monitor's unit in one 100 MHz reference cycle (R36), where its clock is stated. -/
def Side.monitorCycles (s : Side) (m : Nat) : Option Nat :=
  match monitorUnit m with
  | 0x10 => some (groomCycles s.power.clock)
  | 0x0E | 0x0D | 0x0C => some 8
  | 0x0F | 0x0A | 0x0B => some 10
  | 0x05 | 0x06 | 0x07 | 0x08 | 0x09 => some 12
  | _ => none

/-- A free number below `n + 1`. -/
def Side.freeUpTo (s : Side) (n : Nat) : Nat × Side :=
  let (d, s) := s.draw
  (Config.freeNat d % (n + 1), s)

/-- A 64-bit counter register raised, modulo 2^64 (R666). -/
def Side.addTo (s : Side) (k n : Nat) : Side := s.wr k (s.rd k + BitVec.ofNat 64 n)

/-- R668: the units that have an event. -/
def eventUnits (event unit : Nat) : Bool :=
  let mem := [0x0E, 0x0F, 0x0D, 0x0C, 0x05, 0x04, 0x06, 0x07, 0x08, 0x09, 0x0A, 0x0B, 0x10, 0x17, 0x12]
  match event with
  | 0x0001 => true
  | 0x0002 => [0x04, 0x06, 0x07, 0x08, 0x09, 0x0A, 0x0B, 0x0C, 0x0D, 0x0E, 0x0F, 0x17].contains unit
  | 0x0003 | 0x0004 | 0x0005 => mem.contains unit || unit == 0x15 || unit == 0x16
  | 0x0006 => [0x0E, 0x0F, 0x08, 0x0A, 0x0B, 0x05, 0x10, 0x15, 0x16].contains unit
  | 0x0101 | 0x0102 | 0x0103 | 0x0104 | 0x0105 | 0x0106 | 0x0107 => unit == 0x10
  | 0x0201 | 0x0202 | 0x0203 | 0x0204 => unit == 0x0E
  | 0x0301 => unit == 0x0F
  | 0x0401 | 0x0402 | 0x0403 => unit == 0x12
  | 0x0501 | 0x0502 => unit == 0x15 || unit == 0x16
  | 0x0601 => unit == 0x0A
  | 0x0701 => unit == 0x0B
  | _ => event == 0

/-- The events that the model counts as they happen; the count of every other one is a free value. -/
def countedEvent (event : Nat) : Bool :=
  [0x0000, 0x0002, 0x0101, 0x0104, 0x0105, 0x0106, 0x0107, 0x0202, 0x0401, 0x0402, 0x0701].contains event

/-- The cycles of a Groom's monitor that count as blocked in TWAIT (R668 event 0x0104), of the `n` of one reference cycle. -/
def Side.twaitCycles (s : Side) (m n : Nat) : Side :=
  let r := s.grooms.getD (m - 1) Groom.reset
  match r.wait with
  | .twait _ _ _ _ _ => s.pmCount m 0x0104 n { pl := some r.pl, mid := some (0x10 * 128 + (m - 1)) }
  | _ => s

/-- R666, R667: one reference cycle of a monitor: its cycles, its slots shared among the four counters as the unit's
micro-architecture has it (free), and what its counters see. -/
def Side.pmTick (s : Side) (m : Nat) : Side :=
  if s.flag (Reg.PM_CTRL m) 0 ∧ s.monitorPowered m then
    let (n, s) := match s.monitorCycles m with
      | some c => (c, s)
      | none => s.freeUpTo 100
    let s := s.addTo (Reg.PM_CYCLES m) n
    let slots := if monitorUnit m = 0x10 then 2 * n else n
    let (a, s) := s.freeUpTo slots
    let (b, s) := s.freeUpTo (slots - a)
    let (c, s) := s.freeUpTo (slots - a - b)
    let s := (((s.addTo (Reg.PM_SLOT m 0) a).addTo (Reg.PM_SLOT m 1) b).addTo (Reg.PM_SLOT m 2) c).addTo (Reg.PM_SLOT m 3) (slots - a - b - c)
    let s := if monitorUnit m = 0x10 then s.twaitCycles m n else s
    (upTo (s.fld (Reg.PM_CTRL m) 12 4)).foldl (fun s i =>
      let e := s.fld (Reg.PM_EVSEL m (i + 1)) 0 16
      if countedEvent e then s
      else
        let (k, s) := s.freeUpTo (64 * n)
        s.addTo (Reg.PM_COUNT m (i + 1)) k) s
  else s

/-- The monitors of the side whose PM_CTRL differs from reset. -/
def Side.monitors (s : Side) : List Nat :=
  (s.regs.filter (fun e => e.1 / 0x1000000 == 0x13 && e.1 % 0x10000 == 0 && e.1 / 0x10000 % 0x100 != 0)).map (fun e => e.1 / 0x10000 % 0x100)

/-- One reference cycle of every monitor. -/
def Side.pmStep (s : Side) : Side := s.monitors.foldl (fun s m => s.pmTick m) s

/-! ### Tags (R670, R671) -/

/-- R670: a Groom instruction reached: where it is tagged, its record is ready at once, since it leaves flight with its
row; fetch, issue and retirement fall in one reference cycle here. -/
def Side.tagInstr (s : Side) (g pc word pl : Nat) (retired : Bool) : Side :=
  let m := 1 + g
  let (tagged, s) := s.tagItem m { pl := some pl, mid := some (0x10 * 128 + g) }
  if tagged then
    let t := toBytes 8 s.now
    let entry := toBytes 1 0 ++ toBytes 1 pl ++ toBytes 2 m ++ toBytes 4 word ++ toBytes 8 pc ++ t ++ t ++ t ++ toBytes 8 0 ++
      toBytes 1 (if retired then 0 else 1) ++ toBytes 15 0
    s.onTag m (fun t => { t with ready := t.ready ++ [entry] })
  else s

/-- PM_TAG_RECORD (R671): a record that is ready goes to the tag ring; `cycles` are a Groom instruction's cycles from fetch to
retirement. -/
def Side.tagRecord (s : Side) (m cycles : Nat) : Side :=
  match s.pm.tags.find? (fun t => t.mon == m && !t.ready.isEmpty) with
  | none => s
  | some t =>
      match t.ready with
      | [] => s
      | r :: rest =>
          let r := if r.head? = some 0 then r.take 40 ++ toBytes 8 cycles ++ r.drop 48 else r
          let s := s.onTag m (fun t => { t with ready := rest })
          let n := 16 * 2 ^ s.fld Reg.PM_TCFG 0 4
          let s := s.ringEntry 0x13 (s.fld Reg.PM_TBASE 6 58 * 64 + s.pm.count % n * 64) r
          let s := (s.pmSet (fun p => { p with count := p.count + 1 })).count Reg.PM_TCNT 32 16
          if s.flag Reg.PM_TCFG 21 then s.signal (s.fld Reg.PM_TCFG 8 13) 1 else s

/-! ### Dumps (R672, R673) -/

/-- The block of a monitor in a dump (R673). -/
def Side.dumpBlock (s : Side) (m : Nat) : List Byte :=
  let role := if monitorUnit m = 0x10 then ((s.grooms.getD (m - 1) Groom.reset).ctlGet 0x010).toNat % 2 ^ 32 else 0
  let np := s.fld (Reg.PM_CTRL m) 12 4
  toBytes 2 m ++ toBytes 2 ((if s.monitorPowered m then 1 else 0) + (if s.flag (Reg.PM_CTRL m) 0 then 2 else 0)) ++
    toBytes 2 (role % 65536) ++ toBytes 2 (role / 65536) ++ toBytes 8 (s.rd (Reg.PM_CYCLES m)).toNat ++
    ((upTo 4).map (fun k => toBytes 8 (s.rd (Reg.PM_SLOT m k)).toNat)).flatten ++
    ((upTo 8).map (fun i => toBytes 8 (if i < np then (s.rd (Reg.PM_COUNT m (i + 1))).toNat else 0))).flatten ++
    ((upTo 8).map (fun i => toBytes 2 (if i < np then s.fld (Reg.PM_EVSEL m (i + 1)) 0 16 else 0))).flatten

/-- The interval between latches (R672). -/
def Side.dumpEvery (s : Side) : Nat := 2 ^ s.fld Reg.PM_DCFG 8 5 * 1000

/-- PM_DUMP_LATCH (R672, R673): the latest latch due is taken, or skipped while the last dump is being written. -/
def Side.dumpLatch (s : Side) : Side :=
  let j := s.now / s.dumpEvery
  if s.flag Reg.PM_DCFG 4 ∧ s.pm.lastJ < j then
    let s := s.pmSet (fun p => { p with lastJ := j })
    match s.pm.dump with
    | some _ => (s.pmSet (fun p => { p with skipped := p.skipped + 1 })).count Reg.PM_DCNT 48 16
    | none => s.pmSet (fun p => { p with dump := some ⟨j, j * s.dumpEvery, p.dumped.map (fun m => s.dumpBlock m)⟩ })
  else s

/-- PM_DUMP_WRITE (R672, R673). -/
def Side.dumpWrite (s : Side) : Side :=
  match s.pm.dump with
  | none => s
  | some d =>
      let size := 64 + 128 * d.blocks.length
      let n := 16 * 2 ^ s.fld Reg.PM_DCFG 0 4
      let bs := toBytes 8 d.j ++ toBytes 8 d.time ++ toBytes 2 d.blocks.length ++ toBytes 2 s.pm.skipped ++ toBytes 44 0 ++ d.blocks.flatten
      let s := s.ringEntry 0x13 (s.fld Reg.PM_DBASE 6 58 * 64 + d.j % n * size) bs
      (s.pmSet (fun p => { p with dump := none, skipped := 0 })).wr Reg.PM_DSEQ (BitVec.ofNat 64 d.j)

/-! ### Register writes (R668, R670, R674 to R676) -/

/-- A write to a monitor's PM_CTRL (R670, R674). -/
def Side.pmCtrl (s : Side) (m : Nat) (v : Word) : Side :=
  let k := Reg.PM_CTRL m
  let s := if v.flag 5 then s.put k 5 1 0 else s
  let s := s.put k 0 1 (v.fld 0 1)
  let s := s.put k 8 4 (v.fld 8 4)
  let s :=
    if v.flag 7 = s.flag k 7 then s
    else if s.flag Reg.PM_DCFG 4 then s.put Reg.PM_DCNT 0 1 1
    else s.put k 7 1 (v.fld 7 1)
  let unit := monitorUnit m
  if v.flag 6 = s.flag k 6 then s
  else if v.flag 6 then
    if unit = 0x10 ∨ unit = 0x12 then
      let s := (s.put k 6 1 1).pmSet (fun p => { p with
        tags := p.tags.filter (fun t => t.mon != m) ++ [⟨m, s.fld (Reg.PM_TAG m) 32 32, 0, none, 0, []⟩] })
      s.tagGap m
    else s.put k 5 1 1
  else (s.put k 6 1 0).pmSet (fun p => { p with tags := p.tags.filter (fun t => t.mon != m) })

/-- A write to PM_EVSEL_i (R668, R675). -/
def Side.pmEvsel (s : Side) (m i : Nat) (v : Word) : Side :=
  if s.fld (Reg.PM_CTRL m) 12 4 < i then s
  else if eventUnits (v.fld 0 16) (monitorUnit m) then s.wr (Reg.PM_EVSEL m i) v
  else s.put (Reg.PM_CTRL m) 5 1 1

/-- A write to PM_TAG (R675): SEED 0 is refused. -/
def Side.pmTagWrite (s : Side) (m : Nat) (v : Word) : Side :=
  if v.fld 32 32 = 0 then s.put (Reg.PM_CTRL m) 5 1 1 else s.wr (Reg.PM_TAG m) v

/-- A write to PM_DCFG (R672, R674, R676). -/
def Side.pmDcfg (s : Side) (v : Word) : Side :=
  let on := s.flag Reg.PM_DCFG 4
  if (on ∧ (v.fld 0 4 ≠ s.fld Reg.PM_DCFG 0 4 ∨ v.fld 8 5 ≠ s.fld Reg.PM_DCFG 8 5)) ∨ 8 < v.fld 0 4 ∨ v.fld 8 5 < 4 ∨ 20 < v.fld 8 5 then
    s.put Reg.PM_DCNT 0 1 1
  else
    let s := s.wr Reg.PM_DCFG v
    if on = false ∧ v.flag 4 then
      s.pmSet (fun p => { p with
        dumped := s.monitors.filter (fun m => s.flag (Reg.PM_CTRL m) 7)
        lastJ := s.now / s.dumpEvery, dump := none, skipped := 0 })
    else s

/-- A write to a ring base of R676: only while DEN is 0 (R674). -/
def Side.pmBase (s : Side) (k : Nat) (v : Word) : Side := if s.flag Reg.PM_DCFG 4 then s.put Reg.PM_DCNT 0 1 1 else s.wr k v

/-- A write to PM_TCFG (R671, R676); a SIZE that is refused, or changed while DEN is 1 (R674), sets CFG_ERR (log entry 83). -/
def Side.pmTcfg (s : Side) (v : Word) : Side :=
  if 8 < v.fld 0 4 ∨ (s.flag Reg.PM_DCFG 4 ∧ v.fld 0 4 ≠ s.fld Reg.PM_TCFG 0 4) then s.put Reg.PM_DCNT 0 1 1 else (s.wr Reg.PM_TCFG v).pmSet (fun p => { p with count := 0 })

end Sys2Proof.Machine
end

