-- ==== Sys2Proof/Machine/Bus.lean ====
section
/-!
DEFINITION. Machine/Bus.lean: a read and a write of a register of the side (R12, R16 to R20, R742), as the unit that owns
the register performs it. A Groom's access and the host protocol's come here.
-/
namespace Sys2Proof.Machine

/-! ### Reading -/

/-- The slots of a command queue (R120). -/
def Side.queueSlots (s : Side) (q : Nat) : Nat := 16 * 2 ^ s.fld (Reg.CQ_CFG q) 8 4

/-- A 1 where a condition holds. -/
def bit1 (b : Bool) : Nat := if b then 1 else 0

/-- GR_STATE (R117). -/
def Side.groomState (s : Side) (g : Nat) : Nat :=
  let r := s.groom g
  r.pl + bit1 (decide (1 ≤ r.pl) && !r.ie) * 2 ^ 8 + bit1 r.halted * 2 ^ 9 + bit1 (r.wait != .none) * 2 ^ 10 +
    r.cause % 256 * 2 ^ 16

/-- PW_IN (R719, R722): measured values are free; UNDER and OVER follow from the input voltage. -/
def Side.inputView (s : Side) : Nat × Side :=
  let (a, s) := s.draw
  let (b, s) := s.draw
  let (c, s) := s.draw
  let vin := Config.freeNat a % 2 ^ 16
  (vin + bit1 (decide (33000 ≤ vin) && decide (vin < 36000)) * 2 ^ 16 +
    bit1 (decide (58000 < vin) && decide (vin ≤ 60000)) * 2 ^ 17 + Config.freeNat b % 2 ^ 16 * 2 ^ 32 +
    Config.freeNat c % 2 ^ 16 * 2 ^ 48, s)

/-- A bit shown over the value a register holds. -/
def Side.shown (s : Side) (k i : Nat) (b : Bool) : Word := (s.rd k).put i 1 (bit1 b)

/-- The value a register shows: the one it holds, with what its unit shows live (R117, R166, R207, R243, R365, R408, R430,
R493, R534, R613). -/
def Side.regView (s : Side) (k : Nat) : Word :=
  let unit := k / 0x1000000
  let i := k / 0x10000 % 0x100
  let off := k % 0x10000
  if unit = 0x03 then (if k = Reg.DT_NOW then BitVec.ofNat 64 s.now else s.rd k)
  else if unit = 0x04 then
    (if k = Reg.LG_STORE then BitVec.ofNat 64 (s.lg.frames.length * 2 ^ 32 + s.lgBytes) else s.rd k)
  else if unit = 0x05 then
    (if 0x1000 ≤ off ∧ off % 0x80 = 0x60 then s.raceView ((off - 0x1000) / 0x80) else s.rd k)
  else if unit = 0x09 then (if k = Reg.PT_CTRL then ((s.rd k).put 2 1 (bit1 s.ptSealed)).put 1 1 (bit1 s.ptPeer) else s.rd k)
  else if unit = 0x0B then (if k = Reg.BR_CTRL then s.shown k 1 (s.busy 0x0B 0) else s.rd k)
  else if unit = 0x0C then
    if k = Reg.OR_HELD i then s.orHeld i
    else if 0x100 ≤ off ∧ off % 0x40 = 0x28 then s.orStat i ((off - 0x100) / 0x40) 0
    else if 0x100 ≤ off ∧ off % 0x40 = 0x30 then s.orStat i ((off - 0x100) / 0x40) 1
    else s.rd k
  else if unit = 0x0D then (if k = Reg.RL_STATE i then BitVec.ofNat 64 (bit1 (s.busy 0x0D i)) else s.rd k)
  else if unit = 0x0E then
    (if k = Reg.DR_STATE i then
      BitVec.ofNat 64 (bit1 (s.powered 0x0E i) + bit1 (s.busy 0x0E i) * 2 + bit1 (s.gone 0x0E i) * 4)
     else s.rd k)
  else if unit = 0x0F then
    (if k = Reg.ST_STATE i then BitVec.ofNat 64 (bit1 (s.powered 0x0F i) + bit1 (s.busy 0x0F i) * 2) else s.rd k)
  else if unit = 0x10 then
    if k = Reg.GR_STATE i then BitVec.ofNat 64 (s.groomState i)
    else if k = Reg.GR_ROLE i then (s.groom i).ctlGet 0x010
    else s.rd k
  else if unit = 0x12 then
    if k = Reg.CQ_INFLIGHT then BitVec.ofNat 64 s.ops.length
    else if i < 64 ∧ k = Reg.CQ_STAT i then s.shown k 0 (s.ops.any (fun o => o.queue == i))
    else s.rd k
  else s.rd k

/-- The bits a read returns (R16, R19): write-only and reserved bits read zero. -/
def RegSpec.readable (r : RegSpec) : Nat := r.rw ||| r.w1c ||| r.w1s ||| r.rc ||| r.ro

/-- A read of a register (R12, R19): an absent unit and an offset that holds no register read zero; RC bits clear; a
read of DT_NOW latches the fraction of the same instant (R190). -/
def Side.busRead (s : Side) (k : Nat) : Word × Side :=
  if s.part.hasInst (k / 0x1000000) (k / 0x10000 % 0x100) && !(s.part.lacksReg k) then
    match specOf k with
    | none => (0, s)
    | some r =>
        if k = Reg.DT_NOW then (s.regView k, s.wr Reg.DT_FRAC (BitVec.ofNat 64 (s.datum.acc / 2 ^ 32)))
        else if k = Reg.PW_IN then let (v, s) := s.inputView; (BitVec.ofNat 64 v, s)
        else
          let v := s.regView k &&& BitVec.ofNat 64 r.readable
          (v, if r.rc = 0 then s else s.wr k (s.rd k &&& ~~~(BitVec.ofNat 64 r.rc)))
  else (0, s)

/-! ### Writing -/

/-- The plain write of R19: RW bits set, W1C bits cleared by 1, W1S bits set by 1, the rest as it was. -/
def Side.plainWrite (s : Side) (k : Nat) (r : RegSpec) (v : Word) : Side :=
  let old := s.rd k
  let m (x : Nat) : Word := BitVec.ofNat 64 x
  s.wr k ((((old &&& ~~~(m r.rw)) ||| (v &&& m r.rw)) &&& ~~~(v &&& m r.w1c)) ||| (v &&& m r.w1s))

/-- The W1C bits of a write done, the rest as it was. -/
def Side.clearBits (s : Side) (k : Nat) (r : RegSpec) (v : Word) : Side := s.wr k (s.rd k &&& ~~~(v &&& BitVec.ofNat 64 r.w1c))

/-- A register of the Steward's instances 0 and 3 (R650, R651, R663, R664). -/
def Side.stewardWrite (s : Side) (level k : Nat) (r : RegSpec) (v : Word) : Side :=
  if k = Reg.SW_CTRL then s.swCtrl level v s.newestPack
  else if k = Reg.SW_CFG then s.swCfg v
  else if k = Reg.SW_LOG_CFG then s.swLogCfg v
  else if k = Reg.SW_VERDICT then s.verdict level v
  else if k = Reg.SW_SHED then (if 2 ≤ level then s.plainWrite k r v else s.put Reg.SW_STATE 5 1 1)
  else if k = Reg.FS_CFG then s.fsCfg level v
  else if k = Reg.FS_MASK ∨ k = Reg.FS_BASE then s.fsReg level k v
  else if k = Reg.TP_BASE 0 ∨ k = Reg.TP_BASE 1 then
    let a := if k = Reg.TP_BASE 0 then 0 else 1
    if 2 ≤ level ∧ s.packUsed a = false then (s.tpBase level a v).baseWritten (9 + a) else s.tpBase level a v
  else if k / 0x10000 = 0x203 ∧ level < 2 then
    (if k < Reg.TP_BASE 0 then s.put Reg.FS_CFG 5 1 1 else s.put Reg.TP_CNT 0 1 1)
  else s.plainWrite k r v

/-- A register of Datum time (R178, R189, R190). -/
def Side.datumWrite (s : Side) (level k : Nat) (r : RegSpec) (v : Word) : Side :=
  if k = Reg.DT_CFG then
    if v.fld 24 8 < 128 ∧ v.fld 16 4 < 6 ∧ v.fld 12 4 < 8 ∧ v.fld 8 4 < 10 ∧ v.fld 0 2 < 3 then s.plainWrite k r v
    else s.put Reg.DT_STATE 3 1 1
  else if k = Reg.DT_CPER then
    if 250000 ≤ v.fld 0 32 ∧ v.fld 0 32 ≤ 1000000 ∧ v.fld 32 32 < v.fld 0 32 then s.plainWrite k r v
    else s.put Reg.DT_STATE 3 1 1
  else if k = Reg.DT_CTRL then (if v.flag 0 then s.rearm level else s)
  else s.plainWrite k r v

/-- A register of the Launch gate (R205, R207). -/
def Side.launchWrite (s : Side) (k : Nat) (r : RegSpec) (v : Word) : Side :=
  if k = Reg.LG_CTRL then
    let s := s.clearBits k r v
    if v.flag 0 then s.put k 0 1 1 else if s.flag k 0 then s.lgDisable else s
  else if k = Reg.LG_RPT_CFG then s.lgRptCfg v
  else if Reg.LG_TOL 0 ≤ k ∧ 100000 < v.fld 0 17 then s.put Reg.LG_CTRL 3 1 1
  else s.plainWrite k r v

/-- A register of the sensor ingress (R216, R234, R243). -/
def Side.ingressWrite (s : Side) (k : Nat) (r : RegSpec) (v : Word) : Side :=
  let off := k % 0x10000
  if 0x1000 ≤ off then
    let i := (off - 0x1000) / 0x80
    if off % 0x80 = 0x00 then s.slotWrite i v
    else if off % 0x80 = 0x10 then s.trigWrite i v
    else if off % 0x80 = 0x48 then s.landRelease i v
    else if s.slotOn i then s
    else s.plainWrite k r v
  else if 0x100 ≤ off ∧ off < 0x200 then s.gearWrite ((off - 0x100) / 8) v
  else if 0x300 ≤ off ∧ off < 0x340 then (if 4 < v.fld 0 3 then s.inErr else s.plainWrite k r v)
  else s.plainWrite k r v

/-- A register of Transit (R249, R287, R288). -/
def Side.transitWrite (s : Side) (k : Nat) (r : RegSpec) (v : Word) : Side :=
  let off := k % 0x10000
  if k = Reg.TR_CTRL then
    let s := s.clearBits k r v
    if v.flag 0 = s.flag k 0 then s else if v.flag 0 then s.transitEnable else s.trCut.put k 0 1 0
  else if k = Reg.TR_FRAME ∨ k = Reg.TR_PHASE ∨ k = Reg.TR_REV then s.trTiming k v
  else if 0x1000 ≤ off then
    let i := (off - 0x1000) / 0x40
    if off % 0x40 = 0x00 then s.streamWrite i v
    else if off % 0x40 = 0x08 then
      (if s.streamOn i then s else s.plainWrite k r v)
    else s.plainWrite k r v
  else if 0x28 ≤ off ∧ off < 0x60 ∧ off % 0x10 = 0x08 ∧ 8 < v.fld 0 4 then s.trErr
  else s.plainWrite k r v

/-- A register of Gait (R280, R289). -/
def Side.gaitWrite (s : Side) (k : Nat) (r : RegSpec) (v : Word) : Side :=
  if k = Reg.GT_CTRL then
    let s := s.clearBits k r v
    if v.flag 0 = s.flag k 0 then s else if v.flag 0 then s.gaitEnable else s.trCut.put k 0 1 0
  else if k ≠ Reg.GT_GAIN ∧ s.flag Reg.GT_CTRL 0 then s.gtErr
  else s.plainWrite k r v

/-- A register of the Pillar (R332, R333). -/
def Side.pillarWrite (s : Side) (k : Nat) (r : RegSpec) (v : Word) : Side :=
  if k = Reg.PL_CTRL then (s.clearBits k r v).pillarEnable (v.flag 0)
  else if k = Reg.PL_TBASE ∧ s.flag Reg.PL_CTRL 0 then s.put Reg.PL_CTRL 1 1 1
  else s.plainWrite k r v

/-- Whether a Plat register may be written while the Plat is enabled (R366). -/
def ptLive (k : Nat) : Bool := k == Reg.PT_TRACK || (decide (Reg.PT_OBASE 0 ≤ k) && decide (k ≤ Reg.PT_OCFG 3))

/-- A register of the Plat (R365, R366). -/
def Side.platWrite (s : Side) (k : Nat) (r : RegSpec) (v : Word) : Side :=
  if k = Reg.PT_CTRL then (s.clearBits k r v).platEnable (v.flag 0)
  else if (s.ptOn && !(ptLive k)) ∨ ptValueOk k v = false then s.ptErr
  else s.plainWrite k r v

/-- A register of Traverse (R580, R581). -/
def Side.traverseWrite (s : Side) (k : Nat) (r : RegSpec) (v : Word) : Side :=
  if k = Reg.TV_CTRL then (s.clearBits k r v).tvEnable (v.flag 0)
  else if k = Reg.TV_MRS then
    if mrsOk v then s.plainWrite k r v else s.tvErr
  else if s.tvOn then s.tvErr
  else if k = Reg.TV_RMAP then (s.plainWrite k r v).baseWritten 0
  else s.plainWrite k r v

/-- A register of the Bridle (R613, R614). -/
def Side.bridleWrite (s : Side) (k : Nat) (r : RegSpec) (v : Word) : Side :=
  if k = Reg.BR_CTRL then
    let s := s.clearBits k r v
    if v.flag 0 = s.flag k 0 then s else s.brEnable (v.flag 0)
  else if Reg.BR_IMG 0 ≤ k ∧ k ≤ Reg.BR_IMG 7 then
    let i := (k - Reg.BR_IMG 0) / 8
    if s.ops.any (fun o => o.unit == 0x0B && o.opcode == 1 && o.run.isSome && o.f 32 0 3 == i) then s.put Reg.BR_CTRL 2 1 1
    else (s.plainWrite k r v).baseWritten (i + 1)
  else s.plainWrite k r v

/-- A register of an Outrider (R469, R493, R494). -/
def Side.outriderWrite (s : Side) (k : Nat) (r : RegSpec) (v : Word) : Side :=
  let i := k / 0x10000 % 0x100
  let off := k % 0x10000
  if k = Reg.OR_CTRL i then (s.clearBits k r v).orEnable i (v.flag 0)
  else if 0x100 ≤ off then
    let c := (off - 0x100) / 0x40
    let j := off % 0x40
    if j = 0x00 then s.orCfgWrite i k true v
    else if j = 0x08 ∨ j = 0x10 then s.orCfgWrite i k false v
    else if j = 0x18 then s.orPush i c false v
    else if j = 0x20 then s.orPush i c true v
    else s
  else s.plainWrite k r v

/-- GR_CTRL (R117, R118): HALT stops, keeping the architectural state and the pc of a TWAIT; START without HALT leaves
halt at GR_BOOT, at level 2. -/
def Side.groomCtrl (s : Side) (g : Nat) (v : Word) : Side :=
  if v.flag 0 then s.onGroom g (fun r => { r with halted := true, wait := .none })
  else if v.flag 1 ∧ (s.groom g).halted then
    s.onGroom g (fun r =>
      { (r.ctlSet 0 ((r.ctlGet 0).put 0 2 2)) with pc := (s.rd (Reg.GR_BOOT g)).toNat, halted := false, wait := .none })
  else s

/-- Whether a queue's ring lies wholly in a populated region of this side (R165); bit 46 is ignored. -/
def Side.queueRingOk (s : Side) (base n : Nat) : Bool := decide (base < 2 ^ 47) && s.part.populated (base % 2 ^ 46) n

/-- CQ_CFG (R152, R163 to R165). -/
def Side.queueCfg (s : Side) (q : Nat) (v : Word) : Side :=
  let k := Reg.CQ_CFG q
  if s.flag k 3 then (if v.flag 3 then s else s.put k 3 1 0)
  else if 8 < v.fld 8 4 then s.put (Reg.CQ_STAT q) 1 1 1
  else
    let s := (s.put k 8 4 (v.fld 8 4)).put k 0 3 (v.fld 0 3)
    if v.flag 3 then
      let n := s.queueSlots q
      if s.queueRingOk (s.rd (Reg.CQ_RING q)).toNat (64 * n) && s.queueRingOk (s.rd (Reg.CQ_CPL q)).toNat (32 * n) then
        (((s.put k 3 1 1).wr (Reg.CQ_HEAD q) 0).wr (Reg.CQ_TAIL q) 0).wr (Reg.CQ_CPLREAD q) 0
      else s.put (Reg.CQ_STAT q) 1 1 1
    else s

/-- A register of a command queue (R163 to R166). -/
def Side.queueWrite (s : Side) (k : Nat) (r : RegSpec) (v : Word) : Side :=
  let q := k / 0x10000 % 0x100
  if 64 ≤ q then s.plainWrite k r v
  else if k = Reg.CQ_CFG q then s.queueCfg q v
  else if k = Reg.CQ_RING q ∨ k = Reg.CQ_CPL q then
    let n := s.queueSlots q * (if k = Reg.CQ_RING q then 64 else 32)
    if s.flag (Reg.CQ_CFG q) 3 ∧ s.queueRingOk v.toNat n = false then s.put (Reg.CQ_STAT q) 1 1 1
    else s.plainWrite k r v
  else if k = Reg.CQ_TAIL q then
    if (v.fld 0 32 + 2 ^ 32 - s.fld (Reg.CQ_HEAD q) 0 32) % 2 ^ 32 ≤ s.queueSlots q then s.plainWrite k r v
    else s.put (Reg.CQ_STAT q) 1 1 1
  else s.plainWrite k r v

/-- A register of the performance monitor (R674 to R676). -/
def Side.monitorWrite (s : Side) (k : Nat) (r : RegSpec) (v : Word) : Side :=
  let m := k / 0x10000 % 0x100
  let off := k % 0x10000
  if m = 0 then
    if k = Reg.PM_DCFG then s.pmDcfg v
    else if k = Reg.PM_DBASE ∨ k = Reg.PM_TBASE then s.pmBase k v
    else if k = Reg.PM_TCFG then s.pmTcfg v
    else s.plainWrite k r v
  else if off = 0x00 then s.pmCtrl m v
  else if 0x40 ≤ off ∧ off < 0x80 then s.pmEvsel m ((off - 0x40) / 8 + 1) v
  else if 0x80 ≤ off ∧ off < 0xC0 then
    (if (off - 0x80) / 8 < s.fld (Reg.PM_CTRL m) 12 4 then s.plainWrite k r v else s)
  else if off = 0xE8 then s.pmTagWrite m v
  else s.plainWrite k r v

/-- A register of the Keeper (R680, R690, R694, R695, R701, R704, R705). -/
def Side.keeperWrite (s : Side) (level k : Nat) (r : RegSpec) (v : Word) : Side :=
  if level < 2 then s.kpErr
  else if k = Reg.KP_VREQ then s.kpVreq level (v.fld 0 8)
  else if k = Reg.KP_ROLL then s.kpRoll level v
  else if Reg.KP_OWNER 0 ≤ k ∧ k ≤ Reg.KP_OWNER 7 then s.kpOwner level ((k - Reg.KP_OWNER 0) / 8) v
  else if Reg.KP_GRAPH 0 ≤ k ∧ k ≤ Reg.KP_GRAPH 15 then s.kpGraph level ((k - Reg.KP_GRAPH 0) / 8) v
  else if k = Reg.KP_QREQ then s.kpQreq level v
  else if Reg.KP_DTOK 0 ≤ k ∧ k ≤ Reg.KP_DTOK 14 then s.kpToken level ((k - Reg.KP_DTOK 0) / 8) v
  else if k = Reg.KP_HOBBLE then s.kpHobble level v
  else s.plainWrite k r v

/-- A register of the Ethernet/MACsec unit (R699, R741). -/
def Side.etherWrite (s : Side) (level k : Nat) (r : RegSpec) (v : Word) : Side :=
  let i := k / 0x10000 % 0x100
  if i ≤ 9 then
    if k = Reg.ET_SEC i ∨ k = Reg.ET_SECWIN i then s.etSec level i k v
    else if k = Reg.ET_PORT i ∧ level < 2 then s.put k 3 1 1
    else s.plainWrite k r v
  else if i = 16 then
    if level < 2 ∨ (k = Reg.HP_PORT ∧ v.fld 0 16 = 0) then s.put Reg.HP_CFG 2 1 1 else s.plainWrite k r v
  else s.plainWrite k r v

/-- A write that sets no reserved bit, performed by the unit that owns the register. -/
def Side.regWrite (s : Side) (level k : Nat) (r : RegSpec) (v : Word) : Side :=
  match k / 0x1000000 with
  | 0x02 => s.stewardWrite level k r v
  | 0x03 => s.datumWrite level k r v
  | 0x04 => s.launchWrite k r v
  | 0x05 => s.ingressWrite k r v
  | 0x06 => s.transitWrite k r v
  | 0x07 => s.gaitWrite k r v
  | 0x08 => s.pillarWrite k r v
  | 0x09 => s.platWrite k r v
  | 0x0A => s.traverseWrite k r v
  | 0x0B => s.bridleWrite k r v
  | 0x0C => s.outriderWrite k r v
  | 0x10 => if k = Reg.GR_CTRL (k / 0x10000 % 0x100) then s.groomCtrl (k / 0x10000 % 0x100) v else s.plainWrite k r v
  | 0x11 => if k / 0x10000 % 0x100 = 1 then s.signal (k % 0x10000 / 8) v.toNat else s.plainWrite k r v
  | 0x12 => s.queueWrite k r v
  | 0x13 => s.monitorWrite k r v
  | 0x14 => s.keeperWrite level k r v
  | 0x15 => if k = Reg.FT_SCRUB then s.ftScrubWrite v else s.plainWrite k r v
  | 0x16 => if k = Reg.NT_MAP then s.ntMapWrite level v else s.plainWrite k r v
  | 0x17 => s.etherWrite level k r v
  | 0x18 =>
      if k = Reg.PW_REQ then s.pwReq level v
      else if k = Reg.PW_THERM then s.pwTherm level v
      else s.plainWrite k r v
  | _ => s.plainWrite k r v

/-- The bits that a write may set without setting a reserved one (R18). -/
def RegSpec.known (r : RegSpec) : Nat := r.readable ||| r.wo

/-- Whether a unit has registers that take writes: one that the side has, and not the capability block, every write to which is
discarded (R6, R12). -/
def Side.writable (s : Side) (k : Nat) : Bool :=
  s.part.hasInst (k / 0x1000000) (k / 0x10000 % 0x100) && !(s.part.lacksReg k) && k / 0x1000000 != 0x01

/-- A write of a register at a privilege level (R6, R12, R18, R19): false, and nothing done, where it sets a reserved bit. A
write to an absent unit, to the capability block, or to an offset that holds no register, is discarded. -/
def Side.busWrite (s : Side) (level k : Nat) (v : Word) : Bool × Side :=
  if s.writable k then
    match specOf k with
    | none => (true, s)
    | some r => if v.toNat &&& (2 ^ 64 - 1 - r.known) ≠ 0 then (false, s) else (true, s.regWrite level k r v)
  else (true, s)

end Sys2Proof.Machine
end

