-- ==== Sys2Proof/Machine/Boot.lean ====
section
/-!
DEFINITION. Machine/Boot.lean: reset, boot, power and restart of a side (R627, R678, R684 to R689, R741, R750 to R755), and
the boot flash (R739).
-/
namespace Sys2Proof.Machine

/-! ### Boot flash (R685, R739) -/

/-- A byte of a bank of the boot flash; one that nothing has written is erased (0xFF). -/
def Side.flashByte (s : Side) (bank off : Nat) : Byte := ~~~ alGet 0 (s.host.flash.getD bank []) off

/-- `n` bytes of a bank from an offset. -/
def Side.flashBytes (s : Side) (bank off n : Nat) : List Byte := (upTo n).map (fun i => s.flashByte bank (off + i))

/-- Whether all sectors of an extent of a bank have been written since manufacture. -/
def Side.flashTouched (s : Side) (bank off n : Nat) : Bool :=
  (upTo ((off + n - 1) / 65536 - off / 65536 + 1)).all (fun i => s.host.touched.contains (bank, off / 65536 + i))

/-- R684, R685: the image of a kind (1 to 3) in a bank, where it passes its checks. Of one whose sectors the host has not all
written, the operand says what the check finds. No image of a bank with a sector partly written passes (R751). -/
def Side.bootImage (s : Side) (images : List (Option BootImage)) (bank kind : Nat) : Option BootImage :=
  let off := (kind - 1) * 2 ^ 24
  let head := s.flashBytes bank off 512
  let v := fromBytes head
  let n := sealLength v
  let given := (images.getD (3 * bank + kind - 1) none).filter (fun i =>
    decide (s.kp.roll.getD (kind - 1) 0 ≤ i.svn) && decide (i.svn ≤ 63))
  if s.host.torn.any (fun x => x.1 == bank) = true then none
  else if s.flashTouched bank off 512 = false then given
  else if sealBad v ∨ 2 ^ 27 < off + 512 + n then none
  else if s.flashTouched bank off (512 + n) = false then given
  else
    let content := s.flashBytes bank (off + 512) n
    if s.imageResult kind head content false = 0 then
      some ⟨sealSvn v, sealVersion v, imageDigest head content, sfld v 40 0 64, content⟩
    else none

/-- What the Keeper keeps of a firmware image that runs. -/
def runningImage (i : BootImage) (kind : Nat) : KImage := ⟨0xFF, kind, i.svn, i.version, i.digest, i.code.length⟩

/-! ### Reset -/

/-- R751: the sectors partly written after a reset, where `cut` is the bank and sector of a FLASH_WRITE that it cuts short (R739). -/
def Side.tornBy (s : Side) : Option (Nat × Nat) → List (Nat × Nat)
  | some (bank, sector) =>
      if bank ≤ 1 ∧ sector < 2048 ∧ s.phase ≠ .off ∧ s.phase ≠ .held ∧ (s.phase = .recovery ∨ s.fld Reg.KP_STATE 4 1 ≠ bank) ∧
          s.host.torn.contains (bank, sector) = false then
        s.host.torn ++ [(bank, sector)]
      else s.host.torn
  | none => s.host.torn

/-- R750: everything of the side is as after removing and restoring its input; what stays are its fuses (R677), its boot
flash, the state of its pins, and what it has sent, of which a frame still on the wire is cut (R751). -/
def Side.fullReset (s : Side) (phase : Phase) (cut : Option (Nat × Nat) := none) : Side :=
  let r := Side.reset s.id s.part
  let r := { r with
    phase := phase
    kp := { r.kp with ownerHash := s.kp.ownerHash, roll := s.kp.roll, hobble := s.kp.hobble }
    host := { r.host with flash := s.host.flash, touched := s.host.touched, torn := s.tornBy cut, mrKeys := s.host.mrKeys }
    egress := s.egress.map (fun (e : Sent) => if s.now < e.till then { e with cut := true } else e)
    power := { r.power with pwrGood := s.power.pwrGood, resetLow := s.power.resetLow }
    fresh := s.fresh }
  let r := r.put Reg.KP_STATE 7 1 (bit1 r.kp.hobble)
  r.wr Reg.KP_ROLLCNT (BitVec.ofNat 64 ((upTo 7).foldl (fun a i => a + r.kp.roll.getD i 0 % 64 * 2 ^ (6 * i)) 0))

/-- SIDE_RESET_ASSERT (R750, R754): the pin has been low for some ns: 10 µs or more resets, less than 1 µs does nothing, and in
between either. -/
def Side.resetAssert (s : Side) (lowNs : Nat) (cut : Option (Nat × Nat)) : Side :=
  let (k, s') := s.draw
  if lowNs < 1000 then s
  else if s.phase = .off then s.pwSet (fun p => { p with resetLow := true })
  else if 10000 ≤ lowNs then (s.fullReset .held cut).pwSet (fun p => { p with resetLow := true })
  else if Config.freeBool k then (s'.fullReset .held cut).pwSet (fun p => { p with resetLow := true })
  else s'

/-- POWER_UP (R752): the input has been at 35 V or above for 5 ms; the rails come into regulation and the side waits for the
release of its reset. -/
def Side.powerUp (s : Side) : Side :=
  if s.phase = .off then (s.fullReset .held).pwSet (fun p => { p with pwrGood := true }) else s

/-- POWER_OFF (R753). -/
def Side.powerDown (s : Side) (cut : Option (Nat × Nat)) : Side := (s.fullReset .off cut).pwSet (fun p => { p with pwrGood := false })

/-- RAIL_FAULT_RESET (R755). -/
def Side.railFault (s : Side) (cut : Option (Nat × Nat)) : Side :=
  if s.phase = .off then s else (s.fullReset .held cut).pwSet (fun p => { p with pwrGood := false })

/-- RAIL_RECOVERY (R755): the side powers up again from step 2 of R752. -/
def Side.railRecover (s : Side) : Side :=
  if s.phase = .held ∧ s.power.pwrGood = false then s.pwSet (fun p => { p with pwrGood := true }) else s

/-! ### Boot (R685 to R688) -/

/-- R686 step 4: stacks and far tier trained. -/
def Side.train (s : Side) : Side :=
  let s := (upTo s.part.stacks).foldl (fun s k => (s.put (Reg.NT_STATE k) 0 1 1).put (Reg.NT_STATE k) 8 8 (pinRate s.mode)) s
  if s.part.farGB = 0 then s else s.put Reg.FT_STATE 0 1 1

/-- R686 step 4, R435: NT_MAP written by the firmware and locked; a split outside its limits is not written. -/
def Side.bootMap (s : Side) (split : Nat) : Side :=
  let s := if split % s.part.stacks = 0 ∧ split ≤ s.part.nearGB then s.setSplit split else s
  s.put Reg.NT_MAP 16 1 1

/-- R686 step 5, R687: the Groom firmware copied to LOAD and protected until reset, Groom 0 started there at level 2. -/
def Side.startGrooms (s : Side) : Side :=
  let l := s.kp.groomLoad % 2 ^ 46
  let s := s.store l s.kp.groomCode
  let s := s.addGuard ⟨0x14FF, l, l + s.kp.groomCode.length, 0x14, false, none⟩
  let s := s.wr (Reg.GR_BOOT 0) (BitVec.ofNat 64 (s.device (l / 4 * 4)))
  s.groomCtrl 0 2

/-- R679: the identity public key, derived from UNIQUE. -/
def Side.deriveKey (s : Side) : Side :=
  (upTo 8).foldl (fun s w => s.wr (Reg.KP_IDPUB w) (BitVec.ofNat 64 (Config.idPub s.id % 2 ^ 456 / 2 ^ (64 * w)))) s

/-- The pair of Steward and Groom images of a bank, where both pass. -/
def Side.bootPair (s : Side) (images : List (Option BootImage)) (bank : Nat) : Option (BootImage × BootImage) :=
  match s.bootImage images bank 2, s.bootImage images bank 3 with
  | some a, some b => some (a, b)
  | _, _ => none

/-- R685: the bank of the Keeper image that runs: the higher VERSION, a tie to bank A. -/
def Side.bootKeeper (s : Side) (images : List (Option BootImage)) : Option (Nat × BootImage) :=
  match s.bootImage images 0 1, s.bootImage images 1 1 with
  | none, none => none
  | some a, none => some (0, a)
  | none, some b => some (1, b)
  | some a, some b => some (if a.version < b.version then (1, b) else (0, a))

/-- SIDE_RESET_RELEASE (R685 to R688, R750): the boot from the release of the side's reset. -/
def Side.resetRelease (s : Side) (images : List (Option BootImage)) (split : Nat) : Side :=
  if (s.phase = .held ∨ s.phase = .boot) ∧ s.power.pwrGood then
    let s := (s.pwSet (fun p => { p with resetLow := false })).deriveKey.newChallenge
    match s.bootKeeper images with
    | none => { s with phase := .recovery }
    | some (bank, keeper) =>
        let s := s.put Reg.KP_STATE 4 1 bank
        match (match s.bootPair images bank with | some p => some p | none => s.bootPair images (1 - bank)) with
        | none =>
            let s := (s.put Reg.KP_STATE 3 1 1).kpSet (fun k => { k with fw := [runningImage keeper 1] })
            { s with phase := .nofw }
        | some (steward, groom) =>
            let s := s.kpSet (fun k => { k with
              fw := [runningImage keeper 1, runningImage steward 2, runningImage groom 3]
              groomLoad := groom.load, groomCode := groom.code })
            let s := ((s.train).bootMap split).startGrooms
            { s with phase := .up }
  else s

/-! ### Restart (R627, R689) -/

/-- R627: whether the Steward may restart its side now. -/
def Side.restartDue (s : Side) : Bool :=
  let ms := s.fld Reg.SW_CFG 40 8
  s.phase == .up && s.swState == 3 && ms != 0 && decide (s.sw.silentAt + ms * 1000000 ≤ s.now) &&
    decide ((s.sw.restarts.filter (fun e => decide (s.now < e))).length < s.fld Reg.SW_CFG 36 4)

/-- A register that a restart keeps: of the Steward's block, but for the withdrawals, and of the Keeper, but for the graphs'
places (R627, R689). -/
def restartKeeps (k : Nat) : Bool :=
  (k / 0x1000000 == 0x02 && k != Reg.SW_WDRAW) ||
    (k / 0x1000000 == 0x14 && !(decide (Reg.KP_GRAPH 0 ≤ k) && decide (k ≤ Reg.KP_GRAPH 15)))

/-- What a restart keeps of the Steward's working state; times of restarts are those at which they leave the window of 3,600 s,
on a Datum time that begins again at 0. -/
def Steward.restarted (w : Steward) (now : Nat) : Steward :=
  { Steward.reset with
    restarts := (w.restarts.filter (fun e => decide (now < e))).map (fun e => e - now) ++ [3600000000000]
    pack := w.pack, stale := w.stale, hbSeq := w.hbSeq, hbRef := w.hbRef, hbRun := w.hbRun, peerState := w.peerState
    peerLocked := w.peerLocked, joinRun := w.joinRun }

/-- SIDE_RESTART (R627, R689): the Steward resets every other unit of the side but the Keeper, and the side boots again from
step 4 with the Groom image of the bank in use. Memory is kept, the extents of the Keeper's verified packs stay protected, and a side
that the loss of the cross link has left alone stays so (R45). -/
def Side.restart (s : Side) (split : Nat) : Side :=
  if s.restartDue then
    let s := (s.setState 0).count Reg.SW_CNT2 16 16
    let r := Side.reset s.id s.part
    let r := { r with
      phase := .up
      regs := s.regs.filter (fun e => restartKeeps e.1)
      mem := s.mem.remap s.part s.split r.split
      guards := s.guards.filter (fun g => g.key == 0x1409 || g.key == 0x140A)
      xout := s.xout
      pt := { r.pt with alone := if s.pt.alone.isSome && s.pt.join.isNone then some 0 else none }
      egress := s.egress
      events := s.events
      sw := s.sw.restarted s.now
      kp := { s.kp with
        images := s.kp.images.filter (fun i => i.target == 9 || i.target == 10)
        verify := (s.kp.verify.filter (fun (w : KVerify) => w.target == 9 || w.target == 10)).map (fun (w : KVerify) => { w with start := 0 }), saks := [] }
      host := { r.host with flash := s.host.flash, touched := s.host.touched, torn := s.host.torn, mrKeys := s.host.mrKeys }
      power := { r.power with pwrGood := s.power.pwrGood, resetLow := s.power.resetLow }
      fresh := s.fresh }
    ((r.train).bootMap split).startGrooms
  else s

/-- PHY_LINK_CHANGE (R741): the PHY link of an Ethernet launch port comes up or goes down. -/
def Side.phyLink (s : Side) (port : Nat) (up : Bool) : Side :=
  if port ≤ 9 then s.put (Reg.ET_PORT port) 2 1 (bit1 up) else s

end Sys2Proof.Machine
end

