-- ==== Sys2Proof/Machine/Valzel.lean ====
section
/-!
DEFINITION. Machine/Valzel.lean: the Valzel instructions a Groom fetches, their decoding from a word (R64 to R67) and
their encoding.
-/
namespace Sys2Proof.Machine

/-- Register to register operations (R68, op 0x01). -/
inductive AluOp where
  | add | sub | and | or | xor | sll | srl | sra | slt | sltu | mul | mulh | mulhu | div | divu | rem | remu
  deriving DecidableEq, Repr

/-- Atomics (R68, op 0x01). -/
inductive AmoOp where
  | add | swap | cas
  deriving DecidableEq, Repr

/-- Immediate operations (R68). -/
inductive ImmOp where
  | addi | andi | ori | xori | slti | slli | srli | srai
  deriving DecidableEq, Repr

/-- Loads (R67). -/
inductive LoadOp where
  | lb | lh | lw | ld | lbu | lhu | lwu
  deriving DecidableEq, Repr

/-- Stores (R67). -/
inductive StoreOp where
  | sb | sh | sw | sd
  deriving DecidableEq, Repr

/-- Branches (R67). -/
inductive BrOp where
  | beq | bne | blt | bge | bltu | bgeu
  deriving DecidableEq, Repr

/-- Vector operations (R71). -/
inductive VOp where
  | add | sub | mul | fma | min | max | and | or | xor | sll | sra | bcast | sel | perm | redsum | cvt
  deriving DecidableEq, Repr

/-- Predicate operations (R73). -/
inductive POp where
  | cmpeq | cmplt | cmpltu | and | or | not
  deriving DecidableEq, Repr

/-- System instructions (R91). -/
inductive SysOp where
  | ecall | eret | fence | fencei | wfe | ebreak
  deriving DecidableEq, Repr

/-- A Valzel instruction with its fields as they stand in the word (R65). -/
inductive GInstr where
  | alu (op : AluOp) (rd rs1 rs2 : Nat)
  | amo (op : AmoOp) (rd rs1 rs2 : Nat)
  | imm (op : ImmOp) (rd rs1 imm : Nat)
  | lui (rd imm : Nat)
  | load (op : LoadOp) (rd rs1 imm : Nat)
  | store (op : StoreOp) (rs2 rs1 imm : Nat)
  | br (op : BrOp) (rs1 rs2 off : Nat)
  | jal (off : Nat)
  | jalr (rd rs1 imm : Nat)
  | vec (op : VOp) (vd vs1 vs2 pg type : Nat)
  | vld (vd rs1 imm : Nat)
  | vst (vs rs1 imm : Nat)
  | pred (op : POp) (pd vs1 vs2 pg : Nat)
  | ctlr (rd num : Nat)
  | ctlw (rs1 num : Nat)
  | sys (op : SysOp)
  | enq (rd rs1 vs2 : Nat)
  | enqm (rd rs1 rs2 : Nat)
  | qspace (rd rs1 : Nat)
  | tsig (rs1 rs2 : Nat)
  | twait (rd rs1 rs2 : Nat)
  | tread (rd rs1 : Nat)
  | msend (rd vs1 : Nat)
  | mrecv (vd rd2 : Nat)
  | merr (vd rd2 : Nat)
  | mcount (rd rs1 : Nat)
  | rpop (vd rs1 rd2 : Nat)
  | rmark (rs1 : Nat)
  | rrewind (rs1 : Nat)
  | rrelease (rs1 : Nat)
  | rcount (rd rs1 : Nat)
  | dtime (rd : Nat)
  | pcrd (rd rs1 : Nat)
  deriving DecidableEq, Repr

/-- Operation codes of the tables of R67, R68, R71, R73 and R91, with the field value each stands at. -/
def aluCodes : List (Nat × AluOp) :=
  [(0x000, .add), (0x001, .sub), (0x002, .and), (0x003, .or), (0x004, .xor), (0x005, .sll), (0x006, .srl), (0x007, .sra),
   (0x008, .slt), (0x009, .sltu), (0x010, .mul), (0x011, .mulh), (0x012, .mulhu), (0x013, .div), (0x014, .divu),
   (0x015, .rem), (0x016, .remu)]

@[inherit_doc aluCodes] def amoCodes : List (Nat × AmoOp) := [(0x020, .add), (0x021, .swap), (0x022, .cas)]

@[inherit_doc aluCodes] def immCodes : List (Nat × ImmOp) :=
  [(0x02, .addi), (0x03, .andi), (0x04, .ori), (0x05, .xori), (0x06, .slti)]

@[inherit_doc aluCodes] def shiftCodes : List (Nat × ImmOp) := [(0, .slli), (1, .srli), (2, .srai)]

@[inherit_doc aluCodes] def loadCodes : List (Nat × LoadOp) :=
  [(0x09, .lb), (0x0A, .lh), (0x0B, .lw), (0x0C, .ld), (0x0D, .lbu), (0x0E, .lhu), (0x0F, .lwu)]

@[inherit_doc aluCodes] def storeCodes : List (Nat × StoreOp) := [(0x10, .sb), (0x11, .sh), (0x12, .sw), (0x13, .sd)]

@[inherit_doc aluCodes] def brCodes : List (Nat × BrOp) :=
  [(0x14, .beq), (0x15, .bne), (0x16, .blt), (0x17, .bge), (0x18, .bltu), (0x19, .bgeu)]

@[inherit_doc aluCodes] def vCodes : List (Nat × VOp) :=
  [(0x00, .add), (0x01, .sub), (0x02, .mul), (0x03, .fma), (0x04, .min), (0x05, .max), (0x06, .and), (0x07, .or),
   (0x08, .xor), (0x09, .sll), (0x0A, .sra), (0x0B, .bcast), (0x0C, .sel), (0x0D, .perm), (0x0E, .redsum), (0x0F, .cvt)]

@[inherit_doc aluCodes] def pCodes : List (Nat × POp) :=
  [(0x00, .cmpeq), (0x01, .cmplt), (0x02, .cmpltu), (0x08, .and), (0x09, .or), (0x0A, .not)]

@[inherit_doc aluCodes] def sysCodes : List (Nat × SysOp) :=
  [(1, .ecall), (2, .eret), (3, .fence), (4, .fencei), (5, .wfe), (6, .ebreak)]

/-- The entry of a code table. -/
def codeOf {α : Type} (t : List (Nat × α)) (c : Nat) : Option α := (t.find? (fun e => e.1 == c)).map (fun e => e.2)

/-- The code of an entry of a table. -/
def codeFor {α : Type} [DecidableEq α] (t : List (Nat × α)) (a : α) : Nat :=
  match t.find? (fun e => decide (e.2 = a)) with
  | some e => e.1
  | none => 0

/-- The element types a vector operation takes (R71). -/
def VOp.types (op : VOp) : List Nat :=
  match op with
  | .fma => [4, 5, 6]
  | .and | .or | .xor | .sll | .sra => [0, 1, 2, 3]
  | .perm => [0]
  | _ => [0, 1, 2, 3, 4, 5, 6]

/-- Whether the vs2 field of a vector operation is one the table allows: its bits [4:3] are zero fields of VSEL and VCVT,
and a type 7 to convert from is reserved. -/
def VOp.vs2Ok (op : VOp) (vs2 : Nat) : Bool :=
  match op with
  | .sel => decide (vs2 < 8)
  | .cvt => decide (vs2 < 7)
  | _ => true

/-- The X format: op, sub and the five-bit fields a, b, c, with bits [4:0] zero (R65, R77 to R91). -/
def decodeX (op sub a b c : Nat) : Option GInstr :=
  match op, sub with
  | 0x30, _ => if a = 0 ∧ b = 0 ∧ c = 0 then (codeOf sysCodes sub).map .sys else none
  | 0x31, 1 => some (.enq a b c)
  | 0x31, 2 => some (.enqm a b c)
  | 0x31, 3 => if c = 0 then some (.qspace a b) else none
  | 0x32, 1 => if a = 0 then some (.tsig b c) else none
  | 0x32, 2 => some (.twait a b c)
  | 0x32, 3 => if c = 0 then some (.tread a b) else none
  | 0x33, 1 => if c = 0 then some (.msend a b) else none
  | 0x33, 2 => if b = 0 then some (.mrecv a c) else none
  | 0x33, 3 => if b = 0 then some (.merr a c) else none
  | 0x33, 4 => if c = 0 then some (.mcount a b) else none
  | 0x34, 1 => some (.rpop a b c)
  | 0x34, 2 => if a = 0 ∧ c = 0 then some (.rmark b) else none
  | 0x34, 3 => if a = 0 ∧ c = 0 then some (.rrewind b) else none
  | 0x34, 4 => if a = 0 ∧ c = 0 then some (.rrelease b) else none
  | 0x34, 5 => if c = 0 then some (.rcount a b) else none
  | 0x35, 1 => if b = 0 ∧ c = 0 then some (.dtime a) else none
  | 0x35, 2 => if c = 0 then some (.pcrd a b) else none
  | _, _ => none

/-- The instruction of a word; none for a word that R66 makes illegal. -/
def decodeValzel (w : Nat) : Option GInstr :=
  let op := bits w 26 6
  let a := bits w 21 5
  let b := bits w 16 5
  let c := bits w 11 5
  let lo := bits w 0 11
  let i := bits w 0 16
  if op = 0x01 then
    match codeOf aluCodes lo with
    | some o => some (.alu o a b c)
    | none => (codeOf amoCodes lo).map (fun o => .amo o a b c)
  else if op = 0x07 then
    if bits i 8 8 = 0 then (codeOf shiftCodes (bits i 6 2)).map (fun o => .imm o a b (bits i 0 6)) else none
  else if op = 0x08 then (if b = 0 then some (.lui a i) else none)
  else if op = 0x1A then some (.jal (bits w 0 26))
  else if op = 0x1B then some (.jalr a b i)
  else if op = 0x20 then
    match codeOf vCodes (bits w 0 5) with
    | some o => if (VOp.types o).contains (bits w 5 3) ∧ VOp.vs2Ok o c then some (.vec o a b c (bits w 8 3) (bits w 5 3)) else none
    | none => none
  else if op = 0x21 then some (.vld a b i)
  else if op = 0x22 then some (.vst a b i)
  else if op = 0x23 then
    if bits w 5 3 = 0 ∧ a < 8 then (codeOf pCodes (bits w 0 5)).map (fun o => .pred o a b c (bits w 8 3)) else none
  else if op = 0x2E then (if b = 0 ∧ bits i 12 4 = 0 then some (.ctlr a i) else none)
  else if op = 0x2F then (if a = 0 ∧ bits i 12 4 = 0 then some (.ctlw b i) else none)
  else if 0x30 ≤ op ∧ op ≤ 0x35 then (if bits w 0 5 = 0 then decodeX op (bits w 5 6) a b c else none)
  else
    match codeOf immCodes op with
    | some o => some (.imm o a b i)
    | none =>
      match codeOf loadCodes op with
      | some o => some (.load o a b i)
      | none =>
        match codeOf storeCodes op with
        | some o => some (.store o a b i)
        | none => (codeOf brCodes op).map (fun o => .br o a b i)

/-- A word from its opcode and the fields of the formats with three five-bit fields. -/
def wordOf (op a b c lo : Nat) : Nat := op * 2 ^ 26 + a * 2 ^ 21 + b * 2 ^ 16 + c * 2 ^ 11 + lo

/-- A word from its opcode and the fields of the I, S and B formats. -/
def wordI (op a b i : Nat) : Nat := op * 2 ^ 26 + a * 2 ^ 21 + b * 2 ^ 16 + i

/-- The word of an instruction (R64 to R91). -/
def encodeValzel (g : GInstr) : Nat :=
  match g with
  | .alu o a b c => wordOf 0x01 a b c (codeFor aluCodes o)
  | .amo o a b c => wordOf 0x01 a b c (codeFor amoCodes o)
  | .imm o a b i =>
      match o with
      | .slli => wordI 0x07 a b i
      | .srli => wordI 0x07 a b (0x40 + i)
      | .srai => wordI 0x07 a b (0x80 + i)
      | o => wordI (codeFor immCodes o) a b i
  | .lui a i => wordI 0x08 a 0 i
  | .load o a b i => wordI (codeFor loadCodes o) a b i
  | .store o a b i => wordI (codeFor storeCodes o) a b i
  | .br o a b i => wordI (codeFor brCodes o) a b i
  | .jal off => 0x1A * 2 ^ 26 + off
  | .jalr a b i => wordI 0x1B a b i
  | .vec o a b c pg t => wordOf 0x20 a b c (pg * 2 ^ 8 + t * 2 ^ 5 + codeFor vCodes o)
  | .vld a b i => wordI 0x21 a b i
  | .vst a b i => wordI 0x22 a b i
  | .pred o a b c pg => wordOf 0x23 a b c (pg * 2 ^ 8 + codeFor pCodes o)
  | .ctlr a n => wordI 0x2E a 0 n
  | .ctlw b n => wordI 0x2F 0 b n
  | .sys o => wordOf 0x30 0 0 0 (codeFor sysCodes o * 32)
  | .enq a b c => wordOf 0x31 a b c 0x20
  | .enqm a b c => wordOf 0x31 a b c 0x40
  | .qspace a b => wordOf 0x31 a b 0 0x60
  | .tsig b c => wordOf 0x32 0 b c 0x20
  | .twait a b c => wordOf 0x32 a b c 0x40
  | .tread a b => wordOf 0x32 a b 0 0x60
  | .msend a b => wordOf 0x33 a b 0 0x20
  | .mrecv a c => wordOf 0x33 a 0 c 0x40
  | .merr a c => wordOf 0x33 a 0 c 0x60
  | .mcount a b => wordOf 0x33 a b 0 0x80
  | .rpop a b c => wordOf 0x34 a b c 0x20
  | .rmark b => wordOf 0x34 0 b 0 0x40
  | .rrewind b => wordOf 0x34 0 b 0 0x60
  | .rrelease b => wordOf 0x34 0 b 0 0x80
  | .rcount a b => wordOf 0x34 a b 0 0xA0
  | .dtime a => wordOf 0x35 a 0 0 0x20
  | .pcrd a b => wordOf 0x35 a b 0 0x40

/-- Whether every field of an instruction is one its word can hold and its table allows. -/
def GInstr.wf (g : GInstr) : Bool :=
  let r (n : Nat) : Bool := decide (n < 32)
  let h (n : Nat) : Bool := decide (n < 65536)
  match g with
  | .alu _ a b c | .amo _ a b c => r a && r b && r c
  | .imm o a b i => r a && r b && (match o with
      | .slli | .srli | .srai => decide (i < 64)
      | _ => h i)
  | .lui a i => r a && h i
  | .load _ a b i | .store _ a b i | .br _ a b i | .jalr a b i | .vld a b i | .vst a b i => r a && r b && h i
  | .jal off => decide (off < 2 ^ 26)
  | .vec o a b c pg t => r a && r b && r c && decide (pg < 8) && (VOp.types o).contains t && VOp.vs2Ok o c
  | .pred _ a b c pg => decide (a < 8) && r b && r c && decide (pg < 8)
  | .ctlr a n | .ctlw a n => r a && decide (n < 4096)
  | .sys _ => true
  | .enq a b c | .enqm a b c | .twait a b c | .rpop a b c => r a && r b && r c
  | .qspace a b | .tsig a b | .tread a b | .msend a b | .mrecv a b | .merr a b | .mcount a b | .rcount a b | .pcrd a b =>
      r a && r b
  | .rmark a | .rrewind a | .rrelease a | .dtime a => r a

end Sys2Proof.Machine
end

