-- ==== Sys2Proof/Machine/Vector.lean ====
section
/-!
DEFINITION. Machine/Vector.lean: the values the integer and vector instructions compute (R68, R71 to R73).
-/
namespace Sys2Proof.Machine

/-- Signed division truncated toward zero, with the corners of R68. -/
def divS (a b : Word) : Word :=
  if b = 0 then BitVec.allOnes 64 else BitVec.ofInt 64 (a.toInt.tdiv b.toInt)

/-- Signed remainder, with the corners of R68. -/
def remS (a b : Word) : Word :=
  if b = 0 then a else BitVec.ofInt 64 (a.toInt.tmod b.toInt)

/-- The result of a register to register operation (R68). -/
def aluVal (op : AluOp) (a b : Word) : Word :=
  let sh := b.toNat % 64
  match op with
  | .add => a + b
  | .sub => a - b
  | .and => a &&& b
  | .or => a ||| b
  | .xor => a ^^^ b
  | .sll => a <<< sh
  | .srl => a >>> sh
  | .sra => a.sshiftRight sh
  | .slt => if a.toInt < b.toInt then 1 else 0
  | .sltu => if a.toNat < b.toNat then 1 else 0
  | .mul => a * b
  | .mulh => BitVec.ofInt 64 ((a.toInt * b.toInt).fdiv ((2 ^ 64 : Nat) : Int))
  | .mulhu => BitVec.ofNat 64 (a.toNat * b.toNat / 2 ^ 64)
  | .div => divS a b
  | .divu => if b = 0 then BitVec.allOnes 64 else BitVec.ofNat 64 (a.toNat / b.toNat)
  | .rem => remS a b
  | .remu => if b = 0 then a else BitVec.ofNat 64 (a.toNat % b.toNat)

/-- An immediate of 16 bits, sign-extended (R65). -/
def sext16 (i : Nat) : Word := BitVec.ofInt 64 (signed 16 i)

/-- The result of an immediate operation (R68); a shift's `i` is its amount. -/
def immVal (op : ImmOp) (a : Word) (i : Nat) : Word :=
  match op with
  | .addi => a + sext16 i
  | .andi => a &&& sext16 i
  | .ori => a ||| sext16 i
  | .xori => a ^^^ sext16 i
  | .slti => if a.toInt < (sext16 i).toInt then 1 else 0
  | .slli => a <<< (i % 64)
  | .srli => a >>> (i % 64)
  | .srai => a.sshiftRight (i % 64)

/-- Whether a branch is taken (R68). -/
def brTaken (op : BrOp) (a b : Word) : Bool :=
  match op with
  | .beq => a == b
  | .bne => a != b
  | .blt => decide (a.toInt < b.toInt)
  | .bge => decide (b.toInt ≤ a.toInt)
  | .bltu => decide (a.toNat < b.toNat)
  | .bgeu => decide (b.toNat ≤ a.toNat)

/-- The bytes of an element type (R65). -/
def elemBytes (t : Nat) : Nat :=
  match t with
  | 0 => 1
  | 1 | 5 | 6 => 2
  | 2 | 4 => 4
  | _ => 8

/-- Whether an element type is floating point. -/
def elemFloat (t : Nat) : Bool := decide (4 ≤ t)

/-- The floating format of an element type (R65). -/
def elemFlt (t : Nat) : Flt :=
  match t with
  | 4 => flt32
  | 5 => fltB16
  | _ => flt16

/-- Lane `i` of a vector of elements of `w` bits. -/
def lane (v : BitVec 512) (w i : Nat) : Nat := bits v.toNat (w * i) w

/-- A vector with one lane replaced. -/
def setLane (v : BitVec 512) (w i x : Nat) : BitVec 512 := BitVec.ofNat 512 (putBits v.toNat (w * i) w x)

/-- A lane is active when the predicate bit of its lowest byte is 1 (R71). -/
def laneOn (p : Word) (b i : Nat) : Bool := p.getLsbD (b * i)

/-- The lane VMIN (or VMAX) writes: the lesser (or greater) operand. Of two zeros of different sign it is a free one of the two; of one
NaN and a number it is freely the number or the canonical NaN (R71, R72; DESIGN CHOICE, log entry 48). -/
def minMaxLane (t : Nat) (isMax : Bool) (a b : Nat) : Nat :=
  let f := elemFlt t
  let x := f.ieee a
  let y := f.ieee b
  if x.isNan && y.isNan then f.enc .nan
  else if x.isNan then (if Config.minMaxOpen t isMax a b then f.enc .nan else b)
  else if y.isNan then (if Config.minMaxOpen t isMax a b then f.enc .nan else a)
  else if x.lt y then (if isMax then b else a)
  else if y.lt x then (if isMax then a else b)
  else if Config.minMaxOpen t isMax a b then b else a

/-- The result of an operation on floating lanes, rounded once (R71, R72). -/
def floatLane (op : VOp) (t a b d : Nat) : Nat :=
  let f := elemFlt t
  let x := f.ieee a
  let y := f.ieee b
  match op with
  | .add => f.enc (x.add y)
  | .sub => f.enc (x.sub y)
  | .mul => f.enc (x.mul y)
  | .fma => f.enc ((f.ieee d).add (x.mul y))
  | .min => minMaxLane t false a b
  | .max => minMaxLane t true a b
  | _ => a

/-- The result of an operation on integer lanes of `w` bits (R71). -/
def intLane (op : VOp) (w a b : Nat) : Nat :=
  match op with
  | .add => (a + b) % 2 ^ w
  | .sub => (a + 2 ^ w - b) % 2 ^ w
  | .mul => (a * b) % 2 ^ w
  | .min => if signed w a < signed w b then a else b
  | .max => if signed w a < signed w b then b else a
  | .and => a &&& b
  | .or => a ||| b
  | .xor => a ^^^ b
  | .sll => (a * 2 ^ (b % w)) % 2 ^ w
  | .sra => unsigned w ((signed w a).fdiv ((2 ^ (b % w) : Nat) : Int))
  | _ => a

/-- A value as an integer of `w` bits: rounded to nearest even and saturated, NaN to 0 (R72). -/
def satInt (w : Nat) (v : FVal) : Nat :=
  let hi : Int := (2 ^ (w - 1) : Nat) - 1
  let lo : Int := -((2 ^ (w - 1) : Nat) : Int)
  match v with
  | .nan => 0
  | .inf s => unsigned w (if s then lo else hi)
  | v => match v.rint with
    | some i => unsigned w (max lo (min hi i))
    | none => 0

/-- One element converted between element types (R71, R72); an integer to a narrower integer is truncated (DESIGN CHOICE, log
entry 98). -/
def cvtLane (src dst a : Nat) : Nat :=
  let wd := 8 * elemBytes dst
  let v : FVal := if elemFloat src then (elemFlt src).ieee a else FVal.ofInt (signed (8 * elemBytes src) a)
  if elemFloat dst then (elemFlt dst).enc v
  else if elemFloat src then satInt wd v
  else unsigned wd (signed (8 * elemBytes src) a)

/-- The value VBCAST writes into each active lane: the x register truncated, or converted from a signed integer. -/
def bcastLane (t : Nat) (x : Word) : Nat :=
  if elemFloat t then (elemFlt t).enc (FVal.ofInt x.toInt) else x.toNat % 2 ^ (8 * elemBytes t)

/-- A sum of one lane: its element, a NaN in its canonical form (R72). -/
def soleLane (t a : Nat) : Nat := if elemFloat t && ((elemFlt t).ieee a).isNan then (elemFlt t).enc .nan else a

/-- The vector ALU (R71). `p` is the governing predicate, `sel` the one VSEL names, `x` the register VBCAST names. VREDSUM writes lane 0
whether or not it is active, and 0 where no lane is; VCVT between elements of different widths takes lane i to lane i and leaves the
lanes beyond the source's (DESIGN CHOICE, log entry 98). -/
def vecVal (op : VOp) (t : Nat) (d a b : BitVec 512) (bField : Nat) (p sel x : Word) : BitVec 512 :=
  let n := elemBytes t
  let w := 8 * n
  let lanes := upTo (64 / n)
  match op with
  | .redsum =>
      let on := lanes.filter (fun i => laneOn p n i)
      let sum := match on with
        | [] => 0
        | i :: r => r.foldl (fun acc j => if elemFloat t then floatLane .add t acc (lane a w j) 0 else intLane .add w acc (lane a w j))
            (soleLane t (lane a w i))
      setLane d w 0 sum
  | _ => lanes.foldl (fun acc i =>
      if laneOn p n i then
        match op with
        | .bcast => setLane acc w i (bcastLane t x)
        | .sel => if laneOn sel n i then setLane acc w i (lane a w i) else acc
        | .perm => setLane acc 8 i (lane a 8 (lane b 8 i % 64))
        | .cvt =>
            let sb := elemBytes bField
            if i < 64 / sb then setLane acc w i (cvtLane bField t (lane a (8 * sb) i)) else acc
        | op => setLane acc w i (if elemFloat t then floatLane op t (lane a w i) (lane b w i) (lane d w i) else intLane op w (lane a w i) (lane b w i))
      else acc) d

/-- The predicate operations (R73): comparisons on byte lanes, or two predicates combined. -/
def predVal (op : POp) (a b : BitVec 512) (p q : Word) : Word :=
  let cmp (f : Nat → Nat → Bool) : Word :=
    BitVec.ofNat 64 ((upTo 64).foldl (fun acc i => if f (lane a 8 i) (lane b 8 i) then acc + 2 ^ i else acc) 0)
  match op with
  | .cmpeq => cmp (fun x y => x == y)
  | .cmplt => cmp (fun x y => decide (signed 8 x < signed 8 y))
  | .cmpltu => cmp (fun x y => decide (x < y))
  | .and => p &&& q
  | .or => p ||| q
  | .not => ~~~p

end Sys2Proof.Machine
end

