-- ==== Sys2Proof/Machine/Groom.lean ====
section
/-!
DEFINITION. Machine/Groom.lean: the Groom core (R55 to R118): fetch, exceptions and interrupts, memory accesses, control
registers, messages, and the meaning of every Valzel instruction.
-/
namespace Sys2Proof.Machine

/-! ### Exceptions and interrupts (R92 to R98) -/

/-- An exception: its cause, its ctl.tval and its status code (R92). -/
structure Exc where
  cause : Nat
  tval : Nat
  status : Nat
  deriving DecidableEq, Repr

/-- The causes of R92. -/
def excIllegal (word : Nat) : Exc := ⟨1, word, 0⟩
@[inherit_doc excIllegal] def excPrivilege (word : Nat) : Exc := ⟨2, word, 0⟩
@[inherit_doc excIllegal] def excMisaligned (a : Nat) : Exc := ⟨3, a, 0⟩
@[inherit_doc excIllegal] def excAccess (a : Nat) : Exc := ⟨4, a, stAddress⟩
@[inherit_doc excIllegal] def excReserved (a : Nat) : Exc := ⟨4, a, stReserved⟩
@[inherit_doc excIllegal] def excPoison (a : Nat) : Exc := ⟨5, a, stPoison⟩
@[inherit_doc excIllegal] def excEcall : Exc := ⟨6, 0, 0⟩
@[inherit_doc excIllegal] def excBreakpoint : Exc := ⟨7, 0, 0⟩
@[inherit_doc excIllegal] def excLocalEcc (a : Nat) : Exc := ⟨8, a, stPoison⟩

/-- The ctl numbers of epc, cause, tval and evec at a level. -/
def ctlBase (level : Nat) : Nat := if level = 2 then 0x008 else 0x001

/-- R95, R97: entry at a level: the pc, cause and tval are saved, PPL and PIE take the old level and enable, IE clears,
and the pc goes to the level's handler. -/
def Groom.enter (r : Groom) (level : Nat) (cause : Word) (tval : Nat) : Groom :=
  let b := ctlBase level
  let st := r.ctlGet 0
  let st' := (((st.put 4 2 r.pl).put 3 1 (if r.ie then 1 else 0)).put 2 1 0).put 0 2 level
  let r := ((r.ctlSet b (BitVec.ofNat 64 r.pc)).ctlSet (b + 1) cause).ctlSet (b + 2) (BitVec.ofNat 64 tval)
  let r := r.ctlSet 0 st'
  { r with pc := (r.ctlGet (b + 3)).toNat, wait := .none }

/-- R95, R96: an exception is taken at level 1 from level 0 and at level 2 otherwise, LOCAL_ECC always at level 2; one
raised at level 2 while IE is 0 halts the Groom and tells the Steward. -/
def Side.takeExc (s : Side) (g : Nat) (e : Exc) : Side :=
  let r := s.groom g
  if r.pl = 2 ∧ r.ie = false then
    (s.setGroom g { r with halted := true, cause := e.cause, wait := .none }).raise 0x07 0x10 g none e.cause
  else
    let level := if e.cause = 8 then 2 else if r.pl = 0 then 1 else 2
    s.setGroom g (r.enter level (BitVec.ofNat 64 (e.cause + e.status * 2 ^ 16)) e.tval)

/-- The Groom's copy of Datum time in 2^-16 ns: freely anywhere within 4 ns of the counter, and never less than it was (R171). -/
def Side.copyTime (s : Side) (g : Nat) : Nat × Side :=
  let (k, s) := s.draw
  let t := max (s.datum.ns * 65536 + s.datum.acc / 2 ^ 32 + Config.freeNat k % (8 * 65536 + 1) - 4 * 65536) (s.groom g).lastDt
  (t, s.onGroom g (fun r => { r with lastDt := t }))

/-- R98: whether an interrupt source of a Groom is pending, the Groom's Datum time being `t` units of 2^-16 ns. -/
def Groom.pends (r : Groom) (src t : Nat) : Bool :=
  match src with
  | 0 => !r.recvQ.isEmpty
  | 1 => !r.errQ.isEmpty
  | 2 => r.ctlGet 0x017 != 0 && decide ((r.ctlGet 0x017).toNat ≤ t / 65536)
  | 3 => (r.ctlGet 0x018).flag 0
  | _ => false

/-- Whether an enabled source is pending (R91, R97). -/
def Groom.wanted (r : Groom) (t : Nat) : Bool := (upTo 4).any (fun i => (r.ctlGet 0x016).flag i && r.pends i t)

/-- Whether a Groom executes instructions. -/
def Groom.runs (r : Groom) : Bool := !r.halted

/-- R97: a pending, enabled source is taken between instructions when IE is 1, sources 0 to 2 at level 1 and source 3 at level 2. A TWAIT
in progress is left with its pc (R83); a WFE in progress has ended, since an enabled interrupt is pending (R91). ctl.tval takes 0
(DESIGN CHOICE, log entry 98). -/
def Side.interrupt (s : Side) (g src : Nat) : Side :=
  if (s.groom g).runs ∧ (s.groom g).ie ∧ src < 4 ∧ ((s.groom g).ctlGet 0x016).flag src then
    let (t, s) := s.copyTime g
    let r := s.groom g
    if r.pends src t then
      let r := if r.wait = .wfe then { r with pc := (r.pc + 4) % 2 ^ 64 } else r
      s.setGroom g (r.enter (if src = 3 then 2 else 1) (BitVec.ofNat 64 (2 ^ 63 + src)) 0)
    else s
  else s

/-! ### Memory accesses (R47 to R54, R58 to R61, R69) -/

/-- Where a Groom's data address leads. -/
inductive Place where
  | loc (off : Nat)
  | reg (key : Nat)
  | mem (a : Nat)
  | bad
  deriving DecidableEq, Repr

/-- The place of an address (R47 to R53, R58, R59): local memory, a register of the side, device memory, or nowhere. -/
def Side.place (s : Side) (a n : Nat) : Place :=
  if 2 ^ 63 ≤ a then (if bits a 18 45 = 0 ∧ a % 2 ^ 18 + n ≤ 2 ^ 18 then .loc (a % 2 ^ 18) else .bad)
  else match s.loc a with
    | none => .bad
    | some l =>
        if 0x3F00_0000_0000 ≤ l then
          (if bits l 32 8 = 0 ∧ n = 8 ∧ l % 8 = 0 ∧ 0 < bits l 24 8 ∧ bits l 24 8 ≤ 0x18 then .reg (l % 2 ^ 32) else .bad)
        else if s.part.populated l n then .mem l else .bad

/-- Whether an address lies in the register region (R61). -/
def inRegs (a : Nat) : Bool := decide (a < 2 ^ 47) && decide (0x3F00_0000_0000 ≤ a % 2 ^ 46)

/-- A load of `n` bytes (R58 to R61, R69, R92, R93): the value, or the first exception that applies. -/
def Side.gload (s : Side) (g : Nat) (word a n : Nat) (env : Env) : Except Exc (Nat × Side) :=
  let r := s.groom g
  if inRegs a ∧ r.pl = 0 then .error (excPrivilege word)
  else if a % n ≠ 0 then .error (excMisaligned a)
  else match s.place a n with
    | .bad => .error (excAccess a)
    | .loc o => if env.eccData then .error (excLocalEcc a) else .ok (fromBytes ((Store.mk r.lmem []).bytes o n), s)
    | .reg k => let (v, s) := s.busRead k; .ok (v.toNat, s)
    | .mem l =>
        if s.readGuarded 0x10 l n then .error (excAccess a)
        else if s.poisoned l n then .error (excPoison a)
        else .ok (s.num l n, s)

/-- The old word at a fetch address kept until the next FENCE.I (R116). -/
def Groom.keepOld (r : Groom) (a old : Nat) : Groom :=
  if r.stale.any (fun e => e.1 == a) then r else { r with stale := (a, old) :: r.stale }

/-- The words of an extent kept as they were before the Groom's store (R116). -/
def keepWords (r : Groom) (read : Nat → Nat) (a n : Nat) : Groom :=
  (upTo ((a + n - 1) / 4 - a / 4 + 1)).foldl (fun r i => r.keepOld ((a / 4 + i) * 4) (read ((a / 4 + i) * 4))) r

/-- Bytes written to a Groom's local memory. -/
def Groom.lstore (r : Groom) (o : Nat) (bs : List Byte) : Groom :=
  { r with lmem := ((Store.mk r.lmem []).scatter (goodAt o bs)).cells }

/-- A store of `n` bytes (R58 to R61, R69, R92, R93). -/
def Side.gstore (s : Side) (g : Nat) (word a n v : Nat) : Except Exc Side :=
  let r := s.groom g
  if inRegs a ∧ r.pl = 0 then .error (excPrivilege word)
  else if a % n ≠ 0 then .error (excMisaligned a)
  else match s.place a n with
    | .bad => .error (excAccess a)
    | .loc o =>
        let r := keepWords r (fun b => fromBytes ((Store.mk r.lmem []).bytes (b % 2 ^ 18) 4)) a n
        .ok (s.setGroom g (r.lstore o (toBytes n v)))
    | .reg k => match s.busWrite r.pl k (BitVec.ofNat 64 v) with
        | (true, s) => .ok s
        | (false, _) => .error (excReserved a)
    | .mem l =>
        if s.writeGuarded 0x10 l n then .error (excAccess a)
        else
          let s := s.setGroom g (keepWords r (fun b => s.num (b % 2 ^ 46) 4) a n)
          .ok (s.store l (toBytes n v))

/-- The word a Groom fetches at its pc (R58, R60, R92, R116): local memory, hub SRAM or a Loft of its own side. Of a word
it stored without FENCE.I it may get the old one. A fetch from the register region raises ACCESS at every level, at level 0 too (DEDUCED,
log entry 119). -/
def Side.fetch (s : Side) (g : Nat) (env : Env) : Except Exc (Nat × Side) :=
  let r := s.groom g
  let a := r.pc
  let pick (v : Nat) (s : Side) : Nat × Side :=
    match r.stale.find? (fun e => e.1 == a) with
    | none => (v, s)
    | some e => let (k, s) := s.draw; (if Config.freeBool k then e.2 else v, s)
  match s.place a 4 with
  | .loc o => if env.eccFetch then .error (excLocalEcc a) else .ok (pick (fromBytes ((Store.mk r.lmem []).bytes o 4)) s)
  | .mem l =>
      if l < 0x3000_0000_0000 ∨ s.readGuarded 0x10 l 4 then .error (excAccess a)
      else if s.poisoned l 4 then .error (excPoison a)
      else .ok (pick (s.num l 4) s)
  | _ => .error (excAccess a)

/-! ### Running an instruction -/

/-- An instruction leaves flight: what the Groom's monitor sees of it (R668 to R671). -/
def Side.leftFlight (s : Side) (g pc word pl : Nat) (retired : Bool) : Side :=
  let s := if retired then s.pmCount (1 + g) 0x0101 1 { pl := some pl, mid := some (0x10 * 128 + g) } else s
  s.tagInstr g pc word pl retired

/-- The instruction has no effect of its own beyond the next pc. -/
def Side.advance (s : Side) (g : Nat) : Side := s.onGroom g (fun r => { r with pc := (r.pc + 4) % 2 ^ 64 })

/-- The address rs1 + imm16 of a load or store (R68). -/
def Groom.ea (r : Groom) (rs1 i : Nat) : Nat := (r.rx rs1 + sext16 i).toNat

/-- The width of a load and whether it sign-extends (R67). -/
def LoadOp.shape (op : LoadOp) : Nat × Bool :=
  match op with
  | .lb => (1, true) | .lh => (2, true) | .lw => (4, true) | .ld => (8, false)
  | .lbu => (1, false) | .lhu => (2, false) | .lwu => (4, false)

/-- The width of a store (R67). -/
def StoreOp.width (op : StoreOp) : Nat :=
  match op with
  | .sb => 1 | .sh => 2 | .sw => 4 | .sd => 8

/-- VLD and VST move 64 aligned bytes at rs1 + imm16 · 64 (R67, R73). -/
def Groom.vea (r : Groom) (rs1 i : Nat) : Nat := (r.rx rs1 + sext16 i * 64).toNat

/-- R122: the slot that the next command of a queue goes to, side-local. -/
def Side.nextSlot (s : Side) (q : Nat) : Nat :=
  (s.fld (Reg.CQ_RING q) 6 58 * 64 + s.fld (Reg.CQ_TAIL q) 0 32 % s.queueSlots q * 64) % 2 ^ 46

/-- The bytes at a device address that an instruction reads or writes, if it does (R58, R67, R77). -/
def Side.dataAccess (s : Side) (g : Nat) (i : GInstr) : Option (Nat × Nat) :=
  let r := s.groom g
  match i with
  | .load o _ b c => some (r.ea b c, o.shape.1)
  | .store o _ b c => some (r.ea b c, o.width)
  | .amo _ _ b _ => some ((r.rx b).toNat, 8)
  | .vld _ b c => some (r.vea b c, 64)
  | .vst _ b c => some (r.vea b c, 64)
  | .enq _ b _ => some (s.device (s.nextSlot (r.rx b).toNat), 64)
  | .enqm _ b _ => some (s.device (s.nextSlot (r.rx b).toNat), 64)
  | _ => none

/-- Whether an instruction waits for a stack that is paused (R441). -/
def Side.heldUp (s : Side) (g : Nat) (i : GInstr) : Bool :=
  (s.dataAccess g i).any (fun e => (s.loc e.1).any (fun l => s.paused l e.2))

/-- One Groom row: the Groom fetches the word at its pc. A fetch that faults, and a word that R66 makes illegal, raise
their exception; a word that is another instruction than the row's leaves the machine as it is (log entry 11), and so does one whose
access waits for a stack (R441). -/
def Side.groomRow (s : Side) (g : Nat) (env : Env) (f : GInstr → Nat → Option (Except Exc Side)) : Side :=
  if g < s.part.grooms ∧ (s.groom g).runs ∧ (s.groom g).wait = .none then
    let s0 := s.lineErrors none env.errs false
    let pc := (s.groom g).pc
    let pl := (s.groom g).pl
    match s0.fetch g env with
    | .error e => s0.takeExc g e
    | .ok (w, _) =>
        match decodeValzel w with
        | none => (s0.takeExc g (excIllegal w)).leftFlight g pc w pl false
        | some i =>
            if s0.heldUp g i then s else
            match f i w with
            | none => s
            | some (.error e) => (s0.takeExc g e).leftFlight g pc w pl false
            | some (.ok s') => (s'.lineErrors none env.errs true).leftFlight g pc w pl true
  else s

/-- The side in which a row's instruction runs: read errors met, and the free choice of a stale fetch drawn. -/
def Side.fetched (s : Side) (g : Nat) (env : Env) : Side :=
  let s0 := s.lineErrors none env.errs false
  match s0.fetch g env with
  | .ok (_, s1) => s1
  | .error _ => s0

/-- A result written into a general register, and the next pc. -/
def Side.retire (s : Side) (g rd : Nat) (v : Word) : Side := (s.onGroom g (fun r => r.wx rd v)).advance g

/-- A register to register operation (R68). -/
def doAlu (s : Side) (g : Nat) (op : AluOp) (rd rs1 rs2 : Nat) : Except Exc Side :=
  let r := s.groom g
  .ok (s.retire g rd (aluVal op (r.rx rs1) (r.rx rs2)))

/-- An immediate operation (R68). -/
def doImm (s : Side) (g : Nat) (op : ImmOp) (rd rs1 i : Nat) : Except Exc Side :=
  .ok (s.retire g rd (immVal op ((s.groom g).rx rs1) i))

/-- An atomic (R68 to R70): 8-byte aligned device memory outside the register region, or ACCESS. -/
def doAmo (s : Side) (g word : Nat) (op : AmoOp) (rd rs1 rs2 : Nat) : Except Exc Side :=
  let r := s.groom g
  let a := (r.rx rs1).toNat
  if inRegs a ∧ r.pl = 0 then .error (excPrivilege word)
  else if a % 8 ≠ 0 then .error (excAccess a)
  else match s.place a 8 with
    | .mem l =>
        if s.writeGuarded 0x10 l 8 ∨ s.readGuarded 0x10 l 8 then .error (excAccess a)
        else if s.poisoned l 8 then .error (excPoison a)
        else
          let old := BitVec.ofNat 64 (s.num l 8)
          let b := r.rx rs2
          let new := match op with
            | .add => old + b
            | .swap => b
            | .cas => if old = r.rx rd then b else old
          let s := if op = .cas ∧ old ≠ r.rx rd then s
            else (s.setGroom g (keepWords r (fun b => s.num (b % 2 ^ 46) 4) a 8)).store l (toBytes 8 new.toNat)
          .ok (s.retire g rd old)
    | _ => .error (excAccess a)

/-- A load (R68, R69). -/
def doLoad (s : Side) (g word : Nat) (env : Env) (op : LoadOp) (rd rs1 i : Nat) : Except Exc Side :=
  let (n, sx) := op.shape
  match s.gload g word ((s.groom g).ea rs1 i) n env with
  | .error e => .error e
  | .ok (v, s) => .ok (s.retire g rd (if sx then BitVec.ofInt 64 (signed (8 * n) v) else BitVec.ofNat 64 v))

/-- A store (R68, R69). -/
def doStore (s : Side) (g word : Nat) (op : StoreOp) (rs2 rs1 i : Nat) : Except Exc Side :=
  let r := s.groom g
  (s.advance g).gstore g word (r.ea rs1 i) op.width ((r.rx rs2).toNat % 2 ^ (8 * op.width))

/-- A branch (R65, R68): the offset is sign-extended, times 4, from the pc of the branch. -/
def doBranch (s : Side) (g : Nat) (op : BrOp) (rs1 rs2 off : Nat) : Except Exc Side :=
  let r := s.groom g
  if brTaken op (r.rx rs1) (r.rx rs2) then
    .ok (s.setGroom g { r with pc := unsigned 64 (r.pc + 4 * signed 16 off) })
  else .ok (s.advance g)

/-- CTLR (R74, R75). -/
def doCtlr (s : Side) (g word rd n : Nat) : Except Exc Side :=
  let r := s.groom g
  match ctlSpec n with
  | none => .error (excIllegal word)
  | some c =>
      if r.pl < c.readLvl then .error (excPrivilege word)
      else
        let v := if n = 0x022 then BitVec.ofNat 64 (g + 256 * s.id) else r.ctlGet n
        .ok (s.retire g rd v)

/-- R99, R100: a new role: the epoch advances, skipping 0, the grants clear, and every queued message goes back to its
sender with ROLE_MISMATCH. -/
def Side.newRole (s : Side) (g role : Nat) : Side :=
  let r := s.groom g
  let e := (r.ctlGet 0x010).fld 16 16
  let e' := if e = 0xFFFF then 1 else e + 1
  let n := r.recvQ.length
  let r := { (r.ctlSet 0x010 (BitVec.ofNat 64 (role % 65536 + e' * 65536))) with recvQ := [], lastRole := some s.now }
  let r := [0x011, 0x012, 0x013, 0x015].foldl (fun r c => r.ctlSet c 0) r
  let back := (s.groom g).recvQ
  let s := { s with returns := s.returns ++ back }
  (s.setGroom g r).count (Reg.GR_MSGCNT g) 48 16 n

/-- R101: whether a write of ctl.role still has to wait for 2 µs from the previous one. -/
def Side.roleStalls (s : Side) (g : Nat) : Bool :=
  match (s.groom g).lastRole with
  | some t => decide (s.now < t + 2000)
  | none => false

/-- CTLW (R74, R75, R98, R99): the level, then the reserved bits, then the write; of ctl.dfrac and ctl.self, which have no write level,
it raises PRIVILEGE at every level (DESIGN CHOICE, log entry 98). A write of ctl.role that must still wait answers none: the
instruction stalls. -/
def doCtlw (s : Side) (g word rs1 n : Nat) : Option (Except Exc Side) :=
  let r := s.groom g
  let v := r.rx rs1
  match ctlSpec n with
  | none => some (.error (excIllegal word))
  | some c =>
      match c.writeLvl with
      | none => some (.error (excPrivilege word))
      | some l =>
          if r.pl < l then some (.error (excPrivilege word))
          else if v.toNat &&& (2 ^ 64 - 1 - (c.rw ||| c.ro)) ≠ 0 then some (.error (excReserved n))
          else if n = 0x010 then
            if s.roleStalls g then none else some (.ok ((s.newRole g (v.fld 0 16)).advance g))
          else if n = 0x018 then
            some (.ok ((s.setGroom g (if v.flag 0 then r else r.ctlSet n ((r.ctlGet n).put 0 1 0))).advance g))
          else
            let new := ((r.ctlGet n).toNat &&& c.ro) ||| (v.toNat &&& c.rw)
            some (.ok ((s.setGroom g (r.ctlSet n (BitVec.ofNat 64 new))).advance g))

/-- Whether a queue may be used at the Groom's level (R78). -/
def Side.queueDenied (s : Side) (g word : Nat) (q : Word) : Option Exc :=
  let r := s.groom g
  if 63 < q.toNat then some (excIllegal word)
  else if r.pl = 0 ∧ (r.ctlGet 0x012).flag q.toNat = false then some (excPrivilege word)
  else none

/-- ENQ and ENQM (R77, R79, R122): 64 bytes into the next slot, or 1 when the ring is full. A slot that is not populated or is protected
raises ACCESS with its device address (DESIGN CHOICE, log entry 98), before an error in the local memory the bytes come from (R93). -/
def Side.enqueue (s : Side) (g rd q : Nat) (from' : Except Exc (List Byte)) : Except Exc Side :=
  let n := s.queueSlots q
  let tail := s.fld (Reg.CQ_TAIL q) 0 32
  if (tail + 2 ^ 32 - s.fld (Reg.CQ_HEAD q) 0 32) % 2 ^ 32 = n then
    .ok ((s.pmCount (1 + g) 0x0107 1 { mid := some (0x10 * 128 + g) }).retire g rd 1)
  else
    let a := s.nextSlot q
    if s.part.populated a 64 = false ∨ s.writeGuarded 0x10 a 64 then .error (excAccess (s.device a))
    else match from' with
      | .error e => .error e
      | .ok bs => .ok (((s.store a bs).put (Reg.CQ_TAIL q) 0 32 (tail + 1)).retire g rd 0)

/-- Whether a tether may be used at the Groom's level (R76, R81). -/
def Side.tetherDenied (s : Side) (g word : Nat) (t : Word) : Option Exc :=
  let r := s.groom g
  let base := (r.ctlGet 0x014).fld 0 13
  let cnt := (r.ctlGet 0x015).fld 0 14
  if 8191 < t.toNat then some (excIllegal word)
  else if r.pl = 0 ∧ ¬(base ≤ t.toNat ∧ t.toNat < base + cnt) then some (excPrivilege word)
  else none

/-- MSEND (R84, R85, R103, R104): the sender's instance is written into the message. With the send buffer full and a destination that does
not exist it answers 2 (DESIGN CHOICE, log entry 98). -/
def doMsend (s : Side) (g word rd vs1 : Nat) : Except Exc Side :=
  let r := s.groom g
  if r.pl = 0 ∧ (r.ctlGet 0x011).flag 0 = false then .error (excPrivilege word)
  else
    let m := BitVec.ofNat 512 (putBits (r.rv vs1).toNat 48 16 g)
    if s.part.grooms ≤ bits m.toNat 0 16 then .ok (s.retire g rd 2)
    else if 8 ≤ r.sendQ.length then .ok (s.retire g rd 1)
    else
      .ok (((s.setGroom g { r with sendQ := r.sendQ ++ [m] }).pmCount (1 + g) 0x0105 1 { mid := some (0x10 * 128 + g) }).retire g rd 0)

/-- R105, R106: the first message of a sender to a destination, if the receive queue has room: placed where ROLE and
EPOCH match and the epoch is not 0 (R102), otherwise sent back. -/
def Side.deliver (s : Side) (from' goal : Nat) : Side :=
  let a := s.groom from'
  let b := s.groom goal
  match a.sendQ.find? (fun m => bits m.toNat 0 16 == goal) with
  | none => s
  | some m =>
      if s.part.grooms ≤ from' ∨ s.part.grooms ≤ goal ∨ 32 ≤ b.recvQ.length then s
      else
        let s := s.setGroom from' { a with sendQ := a.sendQ.erase m }
        let role := b.ctlGet 0x010
        if bits m.toNat 16 16 = role.fld 0 16 ∧ bits m.toNat 32 16 = role.fld 16 16 ∧ role.fld 16 16 ≠ 0 then
          (s.onGroom goal (fun r => { r with recvQ := r.recvQ ++ [m] })).count (Reg.GR_MSGCNT goal) 0 16
        else
          let s := s.count (Reg.GR_MSGCNT goal) 48 16
          { s with returns := s.returns ++ [m] }

/-- R107, R108: a returned message reaches its sender's error queue, or is discarded and counted when that is full. -/
def Side.giveBack (s : Side) (g : Nat) : Side :=
  match s.returns.find? (fun m => bits m.toNat 48 16 == g) with
  | none => s
  | some m =>
      let s : Side := { s with returns := s.returns.erase m }
      let s := s.pmCount (1 + g) 0x0106 1 { mid := some (0x10 * 128 + g) }
      if 16 ≤ (s.groom g).errQ.length then s.count (Reg.GR_MSGCNT g) 16 16
      else (s.onGroom g (fun r => { r with errQ := r.errQ ++ [m] })).count (Reg.GR_MSGCNT g) 32 16

/-- Whether a Groom may use a Race slot (R63, R87). -/
def Side.raceDenied (s : Side) (g word : Nat) (t : Word) : Option Exc :=
  let r := s.groom g
  if 16 ≤ g ∨ 31 < t.toNat then some (excIllegal word)
  else if r.pl = 0 ∧ (r.ctlGet 0x013).flag t.toNat = false then some (excPrivilege word)
  else none

/-- An instruction that the level checks deny, or its effect. -/
def unlessDenied (d : Option Exc) (k : Except Exc Side) : Except Exc Side :=
  match d with
  | some e => .error e
  | none => k

/-- TWAIT (R80 to R82): DONE at once where the counter is at the target; otherwise the Groom blocks. -/
def doTwait (s : Side) (g rd rs1 rs2 : Nat) : Except Exc Side :=
  let r := s.groom g
  let t := (r.rx rs1).toNat
  let v := (r.rx rs2).toNat
  if v ≤ (s.rd (Reg.TE_VALUE t)).toNat then .ok (s.retire g rd 0)
  else .ok (s.setGroom g { r with wait := .twait rd t v (r.ctlGet 0x020).toNat false })

/-- R82: a blocked TWAIT ends: DONE where its target was reached in time, TIMEOUT once the deadline has passed. -/
def Side.twaitEnd (s : Side) (g : Nat) : Side :=
  let r := s.groom g
  match r.wait with
  | .twait rd _ _ d met =>
      if r.halted then s
      else if met then (s.setGroom g { r with wait := .none }).retire g rd 0
      else if past s.now d then (s.setGroom g { r with wait := .none }).retire g rd (BitVec.ofNat 64 stTimeout)
      else s
  | _ => s

/-- DTIME (R89, R171): the Groom's copy of Datum time, within 4 ns of the counter and never decreasing, its fraction
latched in ctl.dfrac. -/
def doDtime (s : Side) (g rd : Nat) : Except Exc Side :=
  let (t, s) := s.copyTime g
  let s := s.onGroom g (fun r => r.ctlSet 0x021 (BitVec.ofNat 64 (t % 65536)))
  .ok (s.retire g rd (BitVec.ofNat 64 (t / 65536)))

/-- PCRD (R89, R90): the Groom's performance monitor, counter 0 the cycles, 1 to 8 the programmable ones. -/
def doPcrd (s : Side) (g word rd rs1 : Nat) : Except Exc Side :=
  let r := s.groom g
  let i := (r.rx rs1).toNat
  if r.pl = 0 ∧ (r.ctlGet 0x011).flag 1 = false then .error (excPrivilege word)
  else
    let m := 1 + g
    let v : Word := if i = 0 then s.rd (Reg.PM_CYCLES m) else if i ≤ 8 then s.rd (Reg.PM_COUNT m i) else 0
    .ok (s.retire g rd v)

/-- ERET (R91): the pc, level and enable return from the current level's saved state; a saved level 3, which R61 does not
have, acts as 2. A saved pc that is not 4-byte aligned is a jump target that R92 faults (DEDUCED, log entry 14). -/
def doEret (s : Side) (g word : Nat) : Except Exc Side :=
  let r := s.groom g
  let epc := (r.ctlGet (ctlBase r.pl)).toNat
  if r.pl = 0 then .error (excPrivilege word)
  else if epc % 4 ≠ 0 then .error (excMisaligned epc)
  else
    let st := r.ctlGet 0
    let st' := (st.put 0 2 (min 2 (st.fld 4 2))).put 2 1 (st.fld 3 1)
    .ok (s.setGroom g { (r.ctlSet 0 st') with pc := epc })

/-- WFE (R91): ends at once where an enabled interrupt is pending or a message waits. -/
def doWfe (s : Side) (g : Nat) : Except Exc Side :=
  let (t, s) := s.copyTime g
  if (s.groom g).wanted t ∨ (s.groom g).recvQ.isEmpty = false then .ok (s.advance g)
  else .ok (s.onGroom g (fun r => { r with wait := .wfe }))

/-- A Groom in WFE resumes (R91). -/
def Side.wfeWake (s : Side) (g : Nat) : Side :=
  if (s.groom g).wait = .wfe ∧ (s.groom g).halted = false then
    let (t, s) := s.copyTime g
    let r := s.groom g
    if r.wanted t ∨ r.recvQ.isEmpty = false then (s.setGroom g { r with wait := .none }).advance g else s
  else s

/-! ### One meaning per Groom row -/

/-- A row whose instruction is one register to register operation. -/
def aluRow (op : AluOp) (g : Nat) (env : Env) (s : Side) : Side :=
  s.groomRow g env (fun i _ => match i with
    | .alu o a b c => if o = op then some (doAlu (s.fetched g env) g o a b c) else none
    | _ => none)

/-- A row whose instruction is one atomic. -/
def amoRow (op : AmoOp) (g : Nat) (env : Env) (s : Side) : Side :=
  s.groomRow g env (fun i w => match i with
    | .amo o a b c => if o = op then some (doAmo (s.fetched g env) g w o a b c) else none
    | _ => none)

/-- A row whose instruction is one immediate operation. -/
def immRow (op : ImmOp) (g : Nat) (env : Env) (s : Side) : Side :=
  s.groomRow g env (fun i _ => match i with
    | .imm o a b c => if o = op then some (doImm (s.fetched g env) g o a b c) else none
    | _ => none)

/-- A row whose instruction is one load. -/
def loadRow (op : LoadOp) (g : Nat) (env : Env) (s : Side) : Side :=
  s.groomRow g env (fun i w => match i with
    | .load o a b c => if o = op then some (doLoad (s.fetched g env) g w env o a b c) else none
    | _ => none)

/-- A row whose instruction is one store. -/
def storeRow (op : StoreOp) (g : Nat) (env : Env) (s : Side) : Side :=
  s.groomRow g env (fun i w => match i with
    | .store o a b c => if o = op then some (doStore (s.fetched g env) g w o a b c) else none
    | _ => none)

/-- A row whose instruction is one branch. -/
def brRow (op : BrOp) (g : Nat) (env : Env) (s : Side) : Side :=
  s.groomRow g env (fun i _ => match i with
    | .br o a b c => if o = op then some (doBranch (s.fetched g env) g o a b c) else none
    | _ => none)

/-- A row whose instruction is one vector operation. -/
def vecRow (op : VOp) (g : Nat) (env : Env) (s : Side) : Side :=
  s.groomRow g env (fun i _ => match i with
    | .vec o d a b pg t =>
        if o = op then
          let s := s.fetched g env
          let r := s.groom g
          let v := vecVal o t (r.rv d) (r.rv a) (r.rv b) (b % 8) (r.rp pg) (r.rp (b % 8)) (r.rx a)
          some (.ok ((s.onGroom g (fun r => r.wv d v)).advance g))
        else none
    | _ => none)

/-- A row whose instruction is one predicate operation; PAND, POR and PNOT take their sources from [18:16] and [13:11] (R73). None looks
at pg, PNOT takes [18:16], and the bits of the source fields above a predicate's number are not checked (DESIGN CHOICE, log
entry 98). -/
def predRow (op : POp) (g : Nat) (env : Env) (s : Side) : Side :=
  s.groomRow g env (fun i _ => match i with
    | .pred o d a b _ =>
        if o = op then
          let s := s.fetched g env
          let r := s.groom g
          let v := predVal o (r.rv a) (r.rv b) (r.rp (a % 8)) (r.rp (b % 8))
          some (.ok ((s.onGroom g (fun r => r.wp d v)).advance g))
        else none
    | _ => none)

/-- The LUI row (R68). -/
def luiRow (g : Nat) (env : Env) (s : Side) : Side :=
  s.groomRow g env (fun i _ => match i with
    | .lui a v => some (.ok ((s.fetched g env).retire g a (sext16 v <<< 16)))
    | _ => none)

/-- The JAL row (R68): x31 links, the offset is times 4 from the pc of the jump. -/
def jalRow (g : Nat) (env : Env) (s : Side) : Side :=
  s.groomRow g env (fun i _ => match i with
    | .jal off => some (.ok ((s.fetched g env).onGroom g (fun r =>
        { (r.wx 31 (BitVec.ofNat 64 (r.pc + 4))) with pc := unsigned 64 (r.pc + 4 * signed 26 off) })))
    | _ => none)

/-- The JALR row (R68): rd links, the target is rs1 + imm16 with its two low bits cleared. -/
def jalrRow (g : Nat) (env : Env) (s : Side) : Side :=
  s.groomRow g env (fun i _ => match i with
    | .jalr a b v => some (.ok ((s.fetched g env).onGroom g (fun r =>
        { (r.wx a (BitVec.ofNat 64 (r.pc + 4))) with pc := r.ea b v / 4 * 4 })))
    | _ => none)

/-- The VLD row (R67, R69, R73). -/
def vldRow (g : Nat) (env : Env) (s : Side) : Side :=
  s.groomRow g env (fun i w => match i with
    | .vld d b v =>
        let s := s.fetched g env
        some (match s.gload g w ((s.groom g).vea b v) 64 env with
          | .error e => .error e
          | .ok (x, s) => .ok ((s.onGroom g (fun r => r.wv d (BitVec.ofNat 512 x))).advance g))
    | _ => none)

/-- The VST row (R67, R69, R73). -/
def vstRow (g : Nat) (env : Env) (s : Side) : Side :=
  s.groomRow g env (fun i w => match i with
    | .vst v b o =>
        let s := s.fetched g env
        let r := s.groom g
        some ((s.advance g).gstore g w (r.vea b o) 64 (r.rv v).toNat)
    | _ => none)

/-- The CTLR row (R74). -/
def ctlrRow (g : Nat) (env : Env) (s : Side) : Side :=
  s.groomRow g env (fun i w => match i with
    | .ctlr a n => some (doCtlr (s.fetched g env) g w a n)
    | _ => none)

/-- The CTLW row (R74); a write of ctl.role has the row CTL_ROLE_WRITE. -/
def ctlwRow (g : Nat) (env : Env) (s : Side) : Side :=
  s.groomRow g env (fun i w => match i with
    | .ctlw b n => if n = 0x010 then none else doCtlw (s.fetched g env) g w b n
    | _ => none)

/-- The CTLW row for ctl.role (R99 to R101). -/
def ctlRoleRow (g : Nat) (env : Env) (s : Side) : Side :=
  s.groomRow g env (fun i w => match i with
    | .ctlw b n => if n = 0x010 then doCtlw (s.fetched g env) g w b n else none
    | _ => none)

/-- The ENQ row (R77 to R79). -/
def enqRow (g : Nat) (env : Env) (s : Side) : Side :=
  s.groomRow g env (fun i w => match i with
    | .enq a b c =>
        let s := s.fetched g env
        let r := s.groom g
        let q := r.rx b
        some (unlessDenied (s.queueDenied g w q) (s.enqueue g a q.toNat (.ok (toBytes 64 (r.rv c).toNat))))
    | _ => none)

/-- The ENQM row (R77 to R79): the 64 bytes come from aligned local memory; an rs2 that is not aligned, or not local, faults before the
ring is looked at (DESIGN CHOICE, log entry 98). -/
def enqmRow (g : Nat) (env : Env) (s : Side) : Side :=
  s.groomRow g env (fun i w => match i with
    | .enqm a b c =>
        let s := s.fetched g env
        let r := s.groom g
        let q := r.rx b
        let l := (r.rx c).toNat
        some (unlessDenied (s.queueDenied g w q)
          (if l % 64 ≠ 0 then .error (excMisaligned l)
           else match s.place l 64 with
             | .loc o => s.enqueue g a q.toNat (if env.eccData then .error (excLocalEcc l) else .ok ((Store.mk r.lmem []).bytes o 64))
             | _ => .error (excAccess l)))
    | _ => none)

/-- The QSPACE row (R77, R122). -/
def qspaceRow (g : Nat) (env : Env) (s : Side) : Side :=
  s.groomRow g env (fun i w => match i with
    | .qspace a b =>
        let s := s.fetched g env
        let q := (s.groom g).rx b
        let used := (s.fld (Reg.CQ_TAIL q.toNat) 0 32 + 2 ^ 32 - s.fld (Reg.CQ_HEAD q.toNat) 0 32) % 2 ^ 32
        some (unlessDenied (s.queueDenied g w q) (.ok (s.retire g a (BitVec.ofNat 64 (s.queueSlots q.toNat - used)))))
    | _ => none)

/-- The TSIG row (R80, R81, R154). -/
def tsigRow (g : Nat) (env : Env) (s : Side) : Side :=
  s.groomRow g env (fun i w => match i with
    | .tsig b c =>
        let s := s.fetched g env
        let r := s.groom g
        some (unlessDenied (s.tetherDenied g w (r.rx b)) (.ok ((s.signal (r.rx b).toNat (r.rx c).toNat).advance g)))
    | _ => none)

/-- The TWAIT row (R80 to R82). -/
def twaitRow (g : Nat) (env : Env) (s : Side) : Side :=
  s.groomRow g env (fun i w => match i with
    | .twait a b c =>
        let s := s.fetched g env
        some (unlessDenied (s.tetherDenied g w ((s.groom g).rx b)) (doTwait s g a b c))
    | _ => none)

/-- The TREAD row (R80, R81). -/
def treadRow (g : Nat) (env : Env) (s : Side) : Side :=
  s.groomRow g env (fun i w => match i with
    | .tread a b =>
        let s := s.fetched g env
        let t := (s.groom g).rx b
        some (unlessDenied (s.tetherDenied g w t) (.ok (s.retire g a (s.rd (Reg.TE_VALUE t.toNat)))))
    | _ => none)

/-- The MSEND row (R84, R85). -/
def msendRow (g : Nat) (env : Env) (s : Side) : Side :=
  s.groomRow g env (fun i w => match i with
    | .msend a b => some (doMsend (s.fetched g env) g w a b)
    | _ => none)

/-- The MRECV row (R84). -/
def mrecvRow (g : Nat) (env : Env) (s : Side) : Side :=
  s.groomRow g env (fun i _ => match i with
    | .mrecv d c =>
        let s := s.fetched g env
        let r := s.groom g
        some (.ok (match r.recvQ with
          | [] => s.retire g c 1
          | m :: q => (s.setGroom g ({ r with recvQ := q }.wv d m)).retire g c 0))
    | _ => none)

/-- The MERR row (R84, R107). -/
def merrRow (g : Nat) (env : Env) (s : Side) : Side :=
  s.groomRow g env (fun i _ => match i with
    | .merr d c =>
        let s := s.fetched g env
        let r := s.groom g
        some (.ok (match r.errQ with
          | [] => s.retire g c 0
          | m :: q => (s.setGroom g ({ r with errQ := q }.wv d m)).retire g c (BitVec.ofNat 64 stRole)))
    | _ => none)

/-- The MCOUNT row (R84). -/
def mcountRow (g : Nat) (env : Env) (s : Side) : Side :=
  s.groomRow g env (fun i _ => match i with
    | .mcount a b =>
        let s := s.fetched g env
        let r := s.groom g
        let k := (r.rx b).toNat
        some (.ok (s.retire g a (BitVec.ofNat 64 (if k = 0 then r.recvQ.length else if k = 1 then r.errQ.length else 0))))
    | _ => none)

/-- The RPOP row (R86 to R88, R242): the word with its tag, or bit 63 of the tag where the queue is empty; `eccData` says that the word
has been upset in its queue. -/
def rpopRow (g : Nat) (env : Env) (s : Side) : Side :=
  s.groomRow g env (fun i w => match i with
    | .rpop d b c =>
        let s := s.fetched g env
        let t := (s.groom g).rx b
        some (unlessDenied (s.raceDenied g w t) (.ok (match (if env.eccData then s.raceUpset t.toNat else s).racePop t.toNat with
          | none => s.retire g c (BitVec.ofNat 64 (2 ^ 63))
          | some (x, tag, s) => (s.onGroom g (fun r => r.wv d (BitVec.ofNat 512 x))).retire g c (BitVec.ofNat 64 tag))))
    | _ => none)

/-- The RMARK row (R86). -/
def rmarkRow (g : Nat) (env : Env) (s : Side) : Side :=
  s.groomRow g env (fun i w => match i with
    | .rmark b =>
        let s := s.fetched g env
        let t := (s.groom g).rx b
        some (unlessDenied (s.raceDenied g w t) (.ok ((s.raceMark t.toNat).advance g)))
    | _ => none)

/-- The RREWIND row (R86). -/
def rrewindRow (g : Nat) (env : Env) (s : Side) : Side :=
  s.groomRow g env (fun i w => match i with
    | .rrewind b =>
        let s := s.fetched g env
        let t := (s.groom g).rx b
        some (unlessDenied (s.raceDenied g w t) (.ok ((s.raceRewind t.toNat).advance g)))
    | _ => none)

/-- The RRELEASE row (R86). -/
def rreleaseRow (g : Nat) (env : Env) (s : Side) : Side :=
  s.groomRow g env (fun i w => match i with
    | .rrelease b =>
        let s := s.fetched g env
        let t := (s.groom g).rx b
        some (unlessDenied (s.raceDenied g w t) (.ok ((s.raceRelease t.toNat).advance g)))
    | _ => none)

/-- The RCOUNT row (R86). -/
def rcountRow (g : Nat) (env : Env) (s : Side) : Side :=
  s.groomRow g env (fun i w => match i with
    | .rcount a b =>
        let s := s.fetched g env
        let t := (s.groom g).rx b
        some (unlessDenied (s.raceDenied g w t) (.ok (s.retire g a (BitVec.ofNat 64 (s.raceCount t.toNat)))))
    | _ => none)

/-- The DTIME row (R89). -/
def dtimeRow (g : Nat) (env : Env) (s : Side) : Side :=
  s.groomRow g env (fun i _ => match i with
    | .dtime a => some (doDtime (s.fetched g env) g a)
    | _ => none)

/-- The PCRD row (R89, R90). -/
def pcrdRow (g : Nat) (env : Env) (s : Side) : Side :=
  s.groomRow g env (fun i w => match i with
    | .pcrd a b => some (doPcrd (s.fetched g env) g w a b)
    | _ => none)

/-- A system instruction's effect (R91). -/
def doSys (s : Side) (g word : Nat) (op : SysOp) : Except Exc Side :=
  match op with
  | .ecall => .error excEcall
  | .eret => doEret s g word
  | .fence => .ok (s.advance g)
  | .fencei => .ok ((s.onGroom g (fun r => { r with stale := [] })).advance g)
  | .wfe => doWfe s g
  | .ebreak => .error excBreakpoint

/-- A row whose instruction is one system instruction. -/
def sysRow (op : SysOp) (g : Nat) (env : Env) (s : Side) : Side :=
  s.groomRow g env (fun i w => match i with
    | .sys o => if o = op then some (doSys (s.fetched g env) g w o) else none
    | _ => none)

end Sys2Proof.Machine
end

