-- ==== Sys2Proof/Machine/HostAgent.lean ====
section
/-!
DEFINITION. Machine/HostAgent.lean: the host agent (R724 to R741): requests and replies, memory regions and queue pairs,
subscriptions and their delivery, inbound RDMA, the debug agent's datagrams, ICMPv6.
-/
namespace Sys2Proof.Machine

/-! ### Messages (R725 to R730) -/

/-- The host agent with one of its parts updated. -/
def Side.haSet (s : Side) (f : HostAgent → HostAgent) : Side := { s with host := f s.host }

/-- What a host port sends: the destination address and UDP port, most significant byte first, and the payload. Until its
MACsec is keyed a protected port sends none of it (R697). -/
def Side.hostSend (s : Side) (port dst dport : Nat) (payload : List Byte) : Side :=
  if s.secSends port then s.send port (toBytesBE 16 dst ++ toBytesBE 2 dport ++ payload) else s

/-- A message of the device (R727): a reply or a DELIVER. -/
def hostMessage (type seq status index : Nat) (payload : List Byte) : List Byte :=
  [1, BitVec.ofNat 8 type, 1, 0] ++ toBytes 4 seq ++ toBytes 2 payload.length ++ toBytes 2 status ++ toBytes 4 index ++ payload

/-- The link-local address of a host port (R725), byte 0 most significant. -/
def Side.linkLocal (s : Side) (port : Nat) : Nat :=
  0xFE80 * 2 ^ 112 + fromBytesBE (s.deviceId.take 6) * 2 ^ 16 + (0xC0 + s.id) * 2 ^ 8 + port

/-- The global address (R725). -/
def Side.globalAddr (s : Side) : Nat := (s.rd (Reg.HP_ADDR 0)).toNat * 2 ^ 64 + (s.rd (Reg.HP_ADDR 1)).toNat

/-- R726: the source address is allowed. -/
def Side.sourceOk (s : Side) (src : Nat) : Bool :=
  let on := s.fld Reg.HP_CFG 8 4
  if on = 0 then src / 2 ^ 118 == 0x3FA
  else (upTo 4).any (fun n => bitAt on n &&
    src == (s.rd (Reg.HP_PEER (2 * n))).toNat * 2 ^ 64 + (s.rd (Reg.HP_PEER (2 * n + 1))).toNat)

/-- The header of a request is one that may be accepted (R724, R726). -/
def requestHeader (bs : List Byte) : Bool :=
  let v := fromBytes bs
  decide (16 ≤ bs.length) && decide (bs.length ≤ 1452) && sfld v 0 0 8 == 1 && sfld v 2 0 1 == 0

/-- The message types of R732. -/
def requestType (t : Nat) : Bool := decide (1 ≤ t) && decide (t ≤ 0x0E)

/-- The payload bytes that R732 lists for a type, and the reserved fields among them. -/
def requestShape (t p : Nat) : Nat × List (Nat × Nat × Nat) :=
  match t with
  | 0x01 => (10, [])
  | 0x02 => (16 + 8 * sfld p 8 0 16, [byteRange 10 15])
  | 0x03 => (12, [])
  | 0x04 => (16 + sfld p 8 0 32, [byteRange 12 15])
  | 0x05 => (24, [(1, 2, 6), byteRange 2 7])
  | 0x06 => (1, [])
  | 0x07 => (32, [byteRange 2 3, (7, 0, 8), (11, 0, 8), (15, 0, 8)])
  | 0x08 => (1, [])
  | 0x09 => (44, [(0, 4, 4), (1, 2, 6), (3, 5, 3), (16, 4, 4), (17, 4, 4), (18, 4, 4), (19, 0, 8)])
  | 0x0A => (1, [])
  | 0x0B => (16 + sfld p 8 0 16, [byteRange 1 3, byteRange 10 15])
  | 0x0C => (4, [])
  | 0x0D => (52, [(1, 2, 6), byteRange 2 3])
  | _ => (0, [])

/-- An answer to a request: its status, index and payload, and the side after it. -/
abbrev Answer := (Nat × Nat × List Byte) × Side

/-- An answer of a status alone. -/
def answer (s : Side) (status : Nat) (index : Nat := 0) (payload : List Byte := []) : Answer := ((status, index, payload), s)

/-! ### Registers and memory (R731, R733) -/

/-- The register that a device address of this side names, where no fault of R51 applies. -/
def Side.regKey (s : Side) (a : Nat) : Option Nat :=
  match s.loc a with
  | none => none
  | some l =>
      if 0x3F00_0000_0000 ≤ l ∧ bits l 32 8 = 0 ∧ l % 8 = 0 ∧ 0 < bits l 24 8 ∧ bits l 24 8 ≤ 0x18 then some (l % 2 ^ 32) else none

/-- REG_READ's accesses in order, to the first that faults. -/
def Side.readRegs (s : Side) (a : Nat) : Nat → Nat → List Byte → Answer
  | 0, _, acc => answer s stDone 0 acc
  | n + 1, i, acc =>
      match s.regKey (a + 8 * i) with
      | none => answer s stAddress i acc
      | some k => let (v, s) := s.busRead k; s.readRegs a n (i + 1) (acc ++ toBytes 8 v.toNat)

/-- REG_WRITE's accesses in order, to the first that faults. -/
def Side.writeRegs (s : Side) (a : Nat) : List Nat → Nat → Answer
  | [], _ => answer s stDone
  | v :: vs, i =>
      match s.regKey (a + 8 * i) with
      | none => answer s stAddress i
      | some k => match s.busWrite 2 k (BitVec.ofNat 64 v) with
          | (false, s) => answer s stReserved i
          | (true, s) => s.writeRegs a vs (i + 1)

/-- REG_READ (R732, R733). -/
def Side.hostRegRead (s : Side) (p : Nat) : Answer :=
  let n := sfld p 8 0 16
  if n = 0 ∨ 128 < n then answer s stLength else s.readRegs (sfld p 0 0 64) n 0 []

/-- REG_WRITE (R731 to R733). -/
def Side.hostRegWrite (s : Side) (p : Nat) : Answer :=
  let n := sfld p 8 0 16
  if n = 0 ∨ 128 < n then answer s stLength
  else s.writeRegs (sfld p 0 0 64) ((upTo n).map (fun i => sfld p (16 + 8 * i) 0 64)) 0

/-- MEM_READ (R733): poisoned bytes come back as 0x00. -/
def Side.hostMemRead (s : Side) (p : Nat) : Answer :=
  let a := sfld p 0 0 64
  let n := sfld p 8 0 32
  if 1024 < n then answer s stLength
  else if n = 0 then answer s stDone
  else if s.extentOk a n = false ∨ s.readGuarded 0x17 (local46 a) n then answer s stAddress
  else
    let l := local46 a
    let bad := (upTo n).filter (fun i => s.poisoned (l + i) 1)
    let bytes := (upTo n).map (fun i => if s.poisoned (l + i) 1 then 0 else s.mem.get (l + i))
    match bad with
    | [] => answer s stDone 0 bytes
    | i :: _ => answer s stPoison i bytes

/-- MEM_WRITE (R733): nothing is written where an extent protected from the host is met. -/
def Side.hostMemWrite (s : Side) (p : Nat) : Answer :=
  let a := sfld p 0 0 64
  let n := sfld p 8 0 32
  if 1024 < n then answer s stLength
  else if n = 0 then answer s stDone
  else if s.extentOk a n = false ∨ s.writeGuarded 0x17 (local46 a) n then answer s stAddress
  else answer (s.store (local46 a) (toBytes n (p / 2 ^ 128))) stDone

/-! ### Memory regions and queue pairs (R733 to R735) -/

/-- MR_OPEN (R733, R735): the new RKEY differs from the region's last. -/
def Side.hostMrOpen (s : Side) (p : Nat) : Answer :=
  let m := sfld p 0 0 8
  let acc := sfld p 1 0 2
  let base := sfld p 8 0 64
  let len := sfld p 16 0 64
  if 15 < m then answer s stLength
  else if base % 4096 ≠ 0 ∨ len < 4096 ∨ 2 ^ 40 < len ∨ s.extentOk base len = false then answer s stAddress
  else
    let (k, s) := s.draw
    let last := s.host.mrKeys.getD m 0
    let free := Config.freeNat k % 2 ^ 24
    let key := if free = last then (last + 1) % 2 ^ 24 else free
    let s := s.haSet (fun h => { h with mrKeys := setAt h.mrKeys m key })
    let s := (s.wr (Reg.MR_BASE m) (BitVec.ofNat 64 (base + acc * 2 + 1))).wr (Reg.MR_LEN m) (BitVec.ofNat 64 (len % 2 ^ 40))
    answer s stDone 0 (toBytes 4 (m * 2 ^ 24 + key))

/-- MR_CLOSE (R735). -/
def Side.hostMrClose (s : Side) (p : Nat) : Answer :=
  let m := sfld p 0 0 8
  if 15 < m then answer s stLength else answer (s.put (Reg.MR_BASE m) 0 1 0) stDone

/-- QP_SETUP (R734). -/
def Side.hostQpSetup (s : Side) (port p : Nat) : Answer :=
  let q := sfld p 0 0 8
  if 15 < q ∨ 2 < sfld p 1 0 8 ∨ s.fld (Reg.QP_STATE q) 0 2 ≠ 0 then answer s stLength
  else
    let c : QPair := ⟨sfld p 1 0 8, sfld p 4 0 24, sfld p 8 0 24, sfld p 12 0 24, fromBytesBE (toBytes 16 (sfld p 16 0 128)), 0, port⟩
    let qpn := 0x100 + 16 * s.id + q
    let s := s.haSet (fun h => { h with qps := setAt h.qps q c })
    answer (s.wr (Reg.QP_STATE q) (BitVec.ofNat 64 (qpn * 2 ^ 32 + 1))) stDone 0 (toBytes 4 qpn)

/-- An operation that uses a queue pair, cut short: it completes with TIMEOUT (R452, R734) after `got` bytes, or pages of
OR_MOVE, of which a read received `data`. -/
def Side.cutRdma (s : Side) (q got : Nat) (data : List Byte) : Side :=
  (s.ops.filter (fun o => o.run.isSome)).foldl (fun s o =>
    let o' := { o with worst := 0 }
    if o.unit = 0x17 ∧ o.qp = q then
      (if o.opcode = 1 then rcRead .timeout data o' s else rcWrite .timeout got o' s)
    else if o.unit = 0x0C ∧ o.opcode = 2 ∧ 2 ≤ o.f 40 0 2 ∧ seqQp (o.block (o.f 32 0 64)) = q then
      orMove (some (got, .timeout, 0)) data o' s
    else s) s

/-- QP_RESET (R734). -/
def Side.hostQpReset (s : Side) (p got : Nat) (data : List Byte) : Answer :=
  let q := sfld p 0 0 8
  if 15 < q then answer s stLength else answer ((s.cutRdma q got data).wr (Reg.QP_STATE q) 0) stDone

/-! ### Subscriptions (R736 to R738) -/

/-- The value that a subscription follows, modulo 2^32 (R737). -/
def Side.subValue (s : Side) (reg : Bool) (tether countReg : Nat) : Nat × Side :=
  if reg then
    match s.regKey countReg with
    | none => (0, s)
    | some k => let (v, s) := s.busRead k; (v.fld 0 32, s)
  else ((s.rd (Reg.TE_VALUE tether)).fld 0 32, s)

/-- Whether a device address names a register that the side has (R736). -/
def Side.regThere (s : Side) (a : Nat) : Bool :=
  match s.regKey a with
  | none => false
  | some k => s.part.hasInst (k / 0x1000000) (k / 0x10000 % 0x100) && (specOf k).isSome

/-- SUBSCRIBE (R736, R737). -/
def Side.hostSubscribe (s : Side) (port src sport p : Nat) : Answer :=
  let i := sfld p 0 0 4
  let rdma := sfld p 1 0 1 == 1
  let reg := sfld p 1 1 1 == 1
  let slot := sfld p 4 0 32
  let size := sfld p 16 0 4
  let hsize := sfld p 18 0 4
  let q := sfld p 17 0 4
  if slot < 64 ∨ 4096 < slot ∨ slot % 64 ≠ 0 ∨ (rdma = false ∧ 1024 < slot) ∨ 8 < size ∨ 8 < hsize then answer s stLength
  else if s.extentOk (sfld p 8 0 64) (16 * 2 ^ size * slot) = false ∨ (reg ∧ s.regThere (sfld p 24 0 64) = false) then
    answer s stAddress
  else if rdma ∧ s.qpReady q = false then answer s stCapacity
  else
    let (v, s) := s.subValue reg (sfld p 2 0 13) (sfld p 24 0 64)
    let sub : Sub :=
      { id := i
        rdma := rdma
        trigReg := reg
        tether := sfld p 2 0 13
        slotBytes := slot
        ring := sfld p 8 0 64
        size := size
        qp := q
        hsize := hsize
        first := sfld p 20 0 32
        countReg := sfld p 24 0 64
        hostVa := sfld p 32 0 64
        rkey := sfld p 40 0 32
        v0 := v
        sent := 0
        port := port
        dst := src
        dport := sport }
    let s := s.haSet (fun h => { h with subs := h.subs.filter (fun x => x.id != i) ++ [sub] })
    answer (s.put Reg.HP_SUB i 1 1) stDone

/-- A subscription ended. -/
def Side.endSub (s : Side) (i : Nat) : Side :=
  (s.haSet (fun h => { h with subs := h.subs.filter (fun x => x.id != i) })).put Reg.HP_SUB i 1 0

/-- UNSUBSCRIBE (R738). -/
def Side.hostUnsubscribe (s : Side) (p : Nat) : Answer :=
  let i := sfld p 0 0 8
  if 15 < i then answer s stLength else answer (s.endSub i) stDone

/-- DELIVER (R737, R738): the next record of a subscription; `ok` says whether an RDMA WRITE is acknowledged. A slot that only its
owner may read (R291) is delivered as 0x00 with ADDRESS_FAULT (DESIGN CHOICE, log entry 105). -/
def Side.deliver1 (s : Side) (i : Nat) (ok : Bool) : Side :=
  match s.host.subs.find? (fun x => x.id == i) with
  | none => s
  | some u =>
      let (v, s) := s.subValue u.trigReg u.tether u.countReg
      let n := 16 * 2 ^ u.size
      let d := (v + 2 ^ 32 - u.v0) % 2 ^ 32
      let behind := (d + 2 ^ 32 - u.sent) % 2 ^ 32
      if behind = 0 then s
      else
        let lapped := decide (n ≤ behind)
        let sent := if lapped then (d + 2 ^ 32 - n / 2) % 2 ^ 32 else u.sent
        let s := if lapped then s.count Reg.HP_CNT 16 16 else s
        let idx := (u.first + sent) % 2 ^ 32 % n
        let a := local46 u.ring + idx * u.slotBytes
        let shut := s.readGuarded 0x17 a u.slotBytes
        let bad := (upTo u.slotBytes).any (fun k => s.poisoned (a + k) 1)
        let slot := (upTo u.slotBytes).map (fun k => if shut || s.poisoned (a + k) 1 then 0 else s.mem.get (a + k))
        let s := s.haSet (fun h => { h with subs := h.subs.map (fun x => if x.id == i then { x with sent := (sent + 1) % 2 ^ 32 } else x) })
        let msg (body : List Byte) : List Byte :=
          hostMessage 0x20 sent (if shut then stAddress else if bad then stPoison else stDone) idx (BitVec.ofNat 8 i :: toBytes 7 0 ++ body)
        if u.rdma then
          if ok ∧ s.qpReady u.qp ∧ s.secSends (s.qp u.qp).port then
            (s.rdmaWrite u.qp ((u.hostVa + sent % (16 * 2 ^ u.hsize) * u.slotBytes) % 2 ^ 64) u.rkey slot).hostSend u.port u.dst u.dport (msg [])
          else (s.qpError u.qp).endSub i
        else s.hostSend u.port u.dst u.dport (msg slot)

/-! ### Flash, certificate, MACsec key, recovery (R732, R733, R739, R740) -/

/-- FLASH_WRITE (R739): a write at the start of a sector erases it first. -/
def Side.hostFlash (s : Side) (p : Nat) : Answer :=
  let bank := sfld p 0 0 8
  let off := sfld p 4 0 32
  let n := sfld p 8 0 16
  if 1 < bank ∨ n = 0 ∨ 1024 < n ∨ off % 256 ≠ 0 ∨ 2 ^ 27 < off + n then answer s stLength
  else if s.phase ≠ .recovery ∧ s.fld Reg.KP_STATE 4 1 = bank then answer s stAddress
  else
    let old := s.host.flash.getD bank []
    let first := off % 65536 == 0
    let kept := if first then old.filter (fun c => decide (c.1 < off) || decide (off + 65536 ≤ c.1)) else old
    let new := (upTo n).foldl (fun c i => alPut 0 c (off + i) (~~~(BitVec.ofNat 8 (sfld p (16 + i) 0 8)))) kept
    let sector := (bank, off / 65536)
    answer (s.haSet (fun h => { h with
      flash := setAt h.flash bank new
      touched := if first && !(h.touched.contains sector) then h.touched ++ [sector] else h.touched
      torn := if first then h.torn.filter (fun x => x != sector) else h.torn })) stDone

/-- CERT_READ (R732, R733). -/
def Side.hostCert (s : Side) (p : Nat) : Answer :=
  let off := sfld p 0 0 32
  let cert := Config.certificate s.id
  if cert.length ≤ off then answer s stLength
  else answer s stDone 0 (toBytes 4 cert.length ++ (cert.drop off).take 1024)

/-- CAK_SET (R733). -/
def Side.hostCak (s : Side) (port p : Nat) : Answer :=
  if s.flag (Reg.ET_SEC port) 4 ∨ s.kp.cak = none then
    answer (s.kpSet (fun k => { k with cak := some (sfld p 0 0 10, sfld p 4 0 128, sfld p 20 0 256) })) stDone
  else answer s stAddress

/-! ### Serving a request (R728 to R730) -/

/-- R728, R733, R740: a request checked in order and performed. -/
def Side.hostPerform (s : Side) (d : Datagram) (got : Nat) (data : List Byte) : Answer :=
  let v := fromBytes d.bytes
  let t := sfld v 1 0 8
  let len := d.bytes.length - 16
  let p := v / 2 ^ 128
  let (listed, reserved) := requestShape t p
  if sfld v 8 0 16 ≠ len then answer s stLength
  else if requestType t = false ∨ (s.phase = .recovery ∧ t ≠ 0x0B ∧ t ≠ 0x0C ∧ t ≠ 0x0E) ∨ (t = 0x0E ∧ s.phase ≠ .recovery) then
    answer s stBadOpcode
  else if sfld v 2 1 7 ≠ 0 ∨ sfld v 3 0 8 ≠ 0 ∨ sfld v 10 0 48 ≠ 0 ∨ anySet p reserved ∨ p / 2 ^ (8 * listed) ≠ 0 then
    answer s stReserved
  else if len < listed then answer s stLength
  else match t with
    | 0x01 => s.hostRegRead p
    | 0x02 => s.hostRegWrite p
    | 0x03 => s.hostMemRead p
    | 0x04 => s.hostMemWrite p
    | 0x05 => s.hostMrOpen p
    | 0x06 => s.hostMrClose p
    | 0x07 => s.hostQpSetup d.port p
    | 0x08 => s.hostQpReset p got data
    | 0x09 => s.hostSubscribe d.port d.src d.sport p
    | 0x0A => s.hostUnsubscribe p
    | 0x0B => s.hostFlash p
    | 0x0C => s.hostCert p
    | 0x0D => s.hostCak d.port p
    | _ => answer s stDone

/-- R729, R730, R740: an accepted request is answered once; one whose key is kept gets the kept reply again. RECOVER_DONE resets
the side after its reply. -/
def Side.hostServe (s : Side) (d : Datagram) (got : Nat) (data : List Byte) : Side :=
  let v := fromBytes d.bytes
  let seq := sfld v 4 0 32
  match s.host.replies.find? (fun r => r.port == d.port && r.src == d.src && r.sport == d.sport && r.seq == seq) with
  | some r => (s.count Reg.HP_CNT 32 16).hostSend d.port d.src d.sport r.reply
  | none =>
      let ((status, index, payload), s') := s.hostPerform d got data
      let reply := hostMessage (sfld v 1 0 8) seq status index payload
      let mine := s'.host.replies.filter (fun r => r.port == d.port)
      let old := if 16 ≤ mine.length then mine.head? else none
      let s' := s'.haSet (fun h => { h with
        replies := (match old with | none => h.replies | some r => h.replies.erase r) ++ [⟨d.port, d.src, d.sport, seq, reply⟩] })
      let s' := if status = stDone then s' else s'.count Reg.HP_CNT 0 16
      let s' := s'.hostSend d.port d.src d.sport reply
      if s.phase = .recovery ∧ sfld v 1 0 8 = 0x0E ∧ status = stDone then { s'.fullReset .held with egress := s'.egress } else s'

/-- A datagram that reaches a host port (R724 to R726, R740): in recovery only port 0 answers, at its link-local address. -/
def Side.hostReceive (s : Side) (d : Datagram) (got : Nat) (data : List Byte) : Side :=
  if 1 < d.port ∨ s.phase = .off ∨ s.phase = .held ∨ s.flag (Reg.ET_PORT d.port) 0 = false then s
  else if s.phase = .recovery then
    (if d.port = 0 ∧ d.toGlobal = false ∧ requestHeader d.bytes then s.hostServe d got data else s)
  else if d.toGlobal ∧ s.flag Reg.HP_CFG 0 = false then s
  else
    let (ok, s) := s.secAdmit d.port d.sec false
    if ok = false then s
    else if requestHeader d.bytes && s.sourceOk d.src && (!(s.flag Reg.HP_CFG 1) || s.flag (Reg.ET_SEC d.port) 4) then
      s.hostServe d got data
    else s.count Reg.HP_CNT 48 16

/-- A row of a request type: a datagram of another assigned type has its own row. An access to a paused stack waits (R441). -/
def hostRow (t : Nat) (d : Datagram) (got : Nat) (data : List Byte) (s : Side) : Side :=
  let v := fromBytes d.bytes
  let u := sfld v 1 0 8
  if 16 ≤ d.bytes.length ∧ requestType u ∧ u ≠ t then s
  else if (t = 0x03 ∨ t = 0x04) ∧ s.paused (local46 (sfld v 16 0 64)) (sfld v 24 0 32) = true then s
  else s.hostReceive d got data

/-- DEBUG_AGENT_DATAGRAM (R700, R704): served as a request where the agent scope is unlocked, else discarded and counted. -/
def debugDatagram (d : Datagram) (s : Side) : Side :=
  if 1 < d.port ∨ s.phase = .off ∨ s.phase = .held ∨ s.flag (Reg.ET_PORT d.port) 0 = false then s
  else if s.flag Reg.KP_STATE 9 ∧ s.flag Reg.KP_STATE 7 = false then s.hostReceive d 0 []
  else s.count Reg.KP_CNT 16 16

/-! ### Inbound RDMA (R734, R735) -/

/-- What a queue pair answers: a code (0 data, 1 acknowledged, 2 a NAK with its syndrome) and bytes. -/
def Side.rdmaAnswer (s : Side) (q code : Nat) (bs : List Byte) : Side :=
  let port := (s.qp q).port
  if s.secSends port then s.send port (BitVec.ofNat 8 q :: BitVec.ofNat 8 code :: bs) else s

/-- A NAK of remote access error: the queue pair enters ERROR. -/
def Side.rdmaRefuse (s : Side) (q : Nat) : Side :=
  ((s.count (Reg.QP_CNT q) 48 16).rdmaAnswer q 2 [0x62]).qpError q

/-- Whether an RKEY names an open region with an access that holds an extent (R735). -/
def Side.mrAllows (s : Side) (rkey access va n : Nat) : Bool :=
  let m := rkey / 2 ^ 24
  let r := s.rd (Reg.MR_BASE m)
  let base := r.fld 12 52 * 4096
  decide (m < 16) && r.flag 0 && r.flag (1 + access) && rkey % 2 ^ 24 == s.host.mrKeys.getD m 0 &&
    decide (base ≤ va) && decide (va + n ≤ base + (s.rd (Reg.MR_LEN m)).toNat)

/-- The side with the port of a queue pair's last packet (R734). -/
def Side.qpHeard (s : Side) (q port : Nat) : Side := s.haSet (fun h => { h with qps := setAt h.qps q { s.qp q with port := port } })

/-- A packet of the peer of a queue pair, once MACsec admits it (R449, R697); one for a paused stack has to wait (R441). -/
def Side.rdmaHeard (s : Side) (q port va n : Nat) (sec : SecIn) (k : Side → Side) : Side :=
  if 1 < port ∨ s.paused (local46 va) n = true then s
  else
    let (ok, s) := s.secAdmit port sec false
    if ok ∧ s.qpReady q = true then k (s.qpHeard q port) else s

/-- RDMA_INBOUND_READ (R735). -/
def Side.rdmaReadIn (q rkey va n : Nat) (s : Side) : Side :=
  if s.mrAllows rkey 0 va n = false ∨ s.readGuarded 0x17 (local46 va) n then s.rdmaRefuse q
  else if s.poisoned (local46 va) n then (s.count (Reg.QP_CNT q) 48 16).rdmaAnswer q 2 [0x63]
  else s.rdmaAnswer q 0 (s.bytes (local46 va) n)

/-- RDMA_INBOUND_WRITE (R735). -/
def Side.rdmaWriteIn (q rkey va : Nat) (bs : List Byte) (s : Side) : Side :=
  if s.mrAllows rkey 1 va bs.length = false ∨ s.writeGuarded 0x17 (local46 va) bs.length then s.rdmaRefuse q
  else (s.store (local46 va) bs).rdmaAnswer q 1 []

/-- RDMA_ACK_TIMEOUT (R734): a retry, or after 7 of them the queue pair in ERROR. -/
def Side.ackTimeout (s : Side) (q : Nat) : Side :=
  if s.qpReady q then
    let c := s.qp q
    if c.retries < 7 then
      (s.haSet (fun h => { h with qps := setAt h.qps q { c with retries := c.retries + 1 } })).count (Reg.QP_CNT q) 16 16
    else s.qpError q
  else s

/-! ### ICMPv6 (R724) -/

/-- The Internet checksum of 16-bit words, most significant byte first. -/
def inetSum (bs : List Byte) : Nat :=
  let rec' := (upTo ((bs.length + 1) / 2)).foldl (fun a i => a + (bs.getD (2 * i) 0).toNat * 256 + (bs.getD (2 * i + 1) 0).toNat) 0
  let fold (v : Nat) : Nat := v % 65536 + v / 65536
  65535 - fold (fold (fold rec'))

/-- An ICMPv6 message with its checksum, between two addresses. -/
def icmpMessage (src dst type code : Nat) (body : List Byte) : List Byte :=
  let n := 4 + body.length
  let pseudo := toBytesBE 16 src ++ toBytesBE 16 dst ++ toBytesBE 4 n ++ [0, 0, 0, 58]
  let head (c : Nat) : List Byte := [BitVec.ofNat 8 type, BitVec.ofNat 8 code] ++ toBytesBE 2 c
  head (inetSum (pseudo ++ head 0 ++ body)) ++ body

/-- ICMPV6_RECEIVE (R724): a Neighbor Solicitation for one of the port's addresses is answered by an Advertisement with its
station address, an Echo request by its reply. -/
def Side.icmpReceive (s : Side) (port : Nat) (toGlobal : Bool) (sec : SecIn) (src : Nat) (msg : List Byte) : Side :=
  if 1 < port ∨ !(s.phase = .up ∨ s.phase = .boot ∨ s.phase = .nofw) ∨ s.flag (Reg.ET_PORT port) 0 = false ∨
      (toGlobal ∧ s.flag Reg.HP_CFG 0 = false) then s
  else
    let (ok, s) := s.secAdmit port sec false
    let own := if toGlobal then s.globalAddr else s.linkLocal port
    let out (m : List Byte) : Side :=
      if s.secSends port then s.send port (toBytesBE 16 src ++ m) else s
    let type := (msg.getD 0 0).toNat
    if ok = false ∨ (msg.getD 1 0).toNat ≠ 0 then s
    else if type = 128 ∧ 8 ≤ msg.length then out (icmpMessage own src 129 0 (msg.drop 4))
    else if type = 135 ∧ 24 ≤ msg.length then
      let target := fromBytesBE ((msg.drop 8).take 16)
      if target = s.linkLocal port ∨ (s.flag Reg.HP_CFG 0 ∧ target = s.globalAddr) then
        out (icmpMessage target src 136 0 ([0x60, 0, 0, 0] ++ toBytesBE 16 target ++ [2, 1] ++ toBytesBE 6 (s.fld (Reg.ET_PORT port) 16 48)))
      else s
    else s

end Sys2Proof.Machine
end

