-- ==== Sys2Proof/Machine/Stall.lean ====
section
/-!
DEFINITION. Machine/Stall.lean: attention in the Stalls (R496 to R518) and the ragged length-table scheduler (R526 to R530).
-/
namespace Sys2Proof.Machine

/-! ### Parameter blocks (R501, R514) -/

/-- The fields that ST_DECODE and ST_RETRIEVE share, read from either block. -/
structure StParam where
  q : Nat
  list : Nat
  first : Nat
  n : Nat
  layer : Nat
  scale : Nat
  nq : Nat
  qfmt : Nat
  bit4 : Bool
  deriving DecidableEq, Repr

/-- The parameters of ST_DECODE. -/
def decodeParam (b : Nat) : StParam :=
  ⟨sfld b 0 0 64, sfld b 16 0 64, sfld b 24 0 32, sfld b 28 0 16, sfld b 30 0 16, sfld b 40 0 32, sfld b 44 0 8, sfld b 45 0 4,
    bitAt b (8 * 45 + 4)⟩

/-- The parameters of ST_RETRIEVE. -/
def retrieveParam (b : Nat) : StParam :=
  ⟨sfld b 0 0 64, sfld b 8 0 64, sfld b 16 0 32, sfld b 20 0 16, sfld b 22 0 16, sfld b 28 0 32, sfld b 32 0 8, sfld b 33 0 4,
    bitAt b (8 * 33 + 4)⟩

/-- The worst-case run time of ST_DECODE (R503), in units of 1/8192 ns. -/
def decodeWorst (np q nq : Nat) : Nat :=
  let tt := np * seqP q
  2000 * 8192 + max (2 * np * pageBytes q) (nq * tt * seqD q) + 32 * nq * tt

/-- What R498, R502, R503 and R517 say of the admission of a Stall command. -/
def stChecks (s : Side) (cmd : Nat) : Checks :=
  let op := sfld cmd 0 0 8
  let inst := sfld cmd 4 0 16
  let qa := sfld cmd 32 0 64
  let pa := sfld cmd 40 0 64
  let q := s.struct qa 64 8
  let b := s.struct pa 64 8
  let okq := s.readable qa 64 8
  let okb := s.readable pa 64 8
  let both := okq && okb
  let closed : Option Nat := if s.mode = 0 then some 0 else none
  if op = 1 ∨ op = 2 then
    let p := if op = 1 then decodeParam b else retrieveParam b
    let useList := okb && p.bit4
    let head := s.struct p.list 16 1
    let okh := useList && s.readable p.list 16 1
    let cnt := sfld head 0 0 16
    let np := if op = 1 ∧ p.bit4 = true then min cnt 256 else p.n
    let lim := if seqWin q = 0 then 2 ^ seqPplLog q else seqWin q
    let shape := okb && okq && (p.nq % seqHkv q != 0 || decide (16 * seqHkv q < p.nq) || decide (seqLayers q ≤ p.layer))
    let foot := p.nq * (np * seqP q) * 4
    let n := p.nq * seqD q * (fmtBits p.qfmt) / 8
    let wr := if op = 1 then s.badExtent (sfld b 8 0 64) (p.nq * (64 + 4 * seqD q)) || sfld b 8 0 64 % 64 != 0
      else s.badExtent p.list (16 + 8 * sfld b 34 0 16)
    { reserved := anySet cmd [byteRange 48 63] || (okq && seqReserved q) ||
        (okb && (if op = 1 then anySet b [(45, 5, 3), byteRange 46 63] || (!p.bit4 && p.list != 0)
          else anySet b [(33, 5, 3), byteRange 36 63])),
      blocks := [(qa, 64, 8), (pa, 64, 8)] ++ (if useList then [(p.list, 16, 1)] else []) ++
        (if okh && decide (cnt ≤ 256) then [(p.list, 16 + 8 * cnt, 1)] else []),
      format := (okq && seqFormat q) || (okb && !(p.qfmt == 0 || p.qfmt == 2 || p.qfmt == 3)),
      length := (okq && s.seqLength (seqOwner q) q) || shape || (okb && decide (128 < p.nq)) ||
        (if op = 1 then
          (okb && decide (256 < p.n)) || (okh && (decide (256 < cnt) || sfld head 4 0 16 != p.layer)) ||
            (both && !p.bit4 && decide (lim < p.first + p.n)) || (okb && decide (sfld b 36 0 32 < sfld b 32 0 32))
        else
          (okb && (decide (4096 < p.n) || sfld b 34 0 16 == 0 || decide (256 < sfld b 34 0 16))) || (both && decide (lim < p.first + p.n)) ||
            (okh && (sfld head 2 0 16 != sfld b 34 0 16 || sfld head 4 0 16 != p.layer || decide (256 < cnt)))),
      address := inst == 0xFFFF || (okq && s.badExtent (seqRoot q) (seqTableBytes q)) ||
        (okb && (p.q % 64 != 0 || (okq && s.badExtent p.q n) || wr || (useList && p.list == 0))),
      space := if closed.isSome then closed else if op = 1 ∧ both = true ∧ 8388608 < foot then some foot else none,
      worst := if !both then (2000, 1) else if op = 1 then (decodeWorst np q p.nq, 8192)
        else (2000 * 8192 + p.n * (seqHkv q * seqD q * 4 + 64) * 32 + p.n * p.nq * seqD q, 8192) }
  else { opcode := true, address := inst == 0xFFFF, space := closed }

/-! ### Pages and translations (R497, R504) -/

/-- The stack in whose home part a page lies wholly (R434, R497). -/
def Side.homeStack (s : Side) (a n : Nat) : Option Nat :=
  match s.loc a with
  | none => none
  | some l =>
      if s.fld Reg.NT_MAP 0 8 * 2 ^ 30 ≤ l ∧ s.part.inNear l n = true ∧ s.stackOf l = s.stackOf (l + n - 1) then some (s.stackOf l) else none

/-- The page list of an admitted command, as admission read it (R515): page index and score. -/
def pageList (blk : Nat) : List (Nat × Nat) :=
  (upTo (min 256 (sfld blk 0 0 16))).map (fun i => (sfld blk (16 + 8 * i) 0 32, sfld blk (20 + 8 * i) 0 32))

/-- The list of an operation: the longest structure read at its address. -/
def Op.listBlock (o : Op) (a : Nat) : Nat :=
  (o.blocks.filter (fun b => b.addr == a && decide (16 ≤ b.len))).foldl (fun m b => max m b.val) 0

/-- The page indices of ST_DECODE in ascending order. -/
def Op.decodePages (o : Op) : List Nat :=
  let p := decodeParam (o.block (o.f 40 0 64))
  if p.bit4 then ((pageList (o.listBlock p.list)).map (fun e => e.1)).mergeSort
  else (upTo p.n).map (fun i => p.first + i)

/-- R504: the pages translated in turn until one finds no entry or lies in no home part. Each translation obtained leaves its
entry; the page that ends the command leaves its VPN and, in units of 2^128, the status that it ends with. -/
def Side.translateAll (s : Side) (own q layer : Nat) : List Nat → List Nat → List Nat × Side
  | [], acc => (acc, s)
  | k :: rest, acc =>
      let vpn := layer * 2 ^ seqPplLog q + k
      match s.translate own q vpn (decide (k < 2 ^ seqPplLog q)) with
      | ((none, st), s) => (acc ++ [st * 2 ^ 128 + vpn], s)
      | ((some e, _), s) =>
          if (s.homeStack (entryAddr e) (pageBytes q)).isNone then (acc ++ [e, stAddress * 2 ^ 128 + vpn], s)
          else s.translateAll own q layer rest (acc ++ [e])

/-- What happens when ST_DECODE starts: its translations, held under R471. -/
def Side.decodeStart (s : Side) (o : Op) : Side :=
  let q := o.block (o.f 32 0 64)
  let p := decodeParam (o.block (o.f 40 0 64))
  if p.nq = 0 then s
  else
    let (l, s) := s.translateAll (seqOwner q) q p.layer o.decodePages []
    s.setOp { o with pages := l, resv := seqOwner q + 1 }

/-! ### Numbers (R506, R509, R510) -/

/-- The code of a non-negative finite value rounded toward zero to FP32. -/
def floor32 (v : FVal) : Nat :=
  match v with
  | .fin _ m e =>
      let u := flt32.ulp m e
      let k := if u ≤ e then m * 2 ^ (e - u).toNat else m / 2 ^ (u - e).toNat
      flt32.code (.fin false k u)
  | _ => 0

/-- P_t of R506: one of the two FP32 values that bracket the exact exponential, which of them being free. -/
def expBracket (free : Bool) (v : FVal) : FVal :=
  match v with
  | .fin _ 0 _ => FVal.ofInt 1
  | .fin _ _ _ => of32 (floor32 (expVal v) + if free then 1 else 0)
  | .inf true => FVal.zero
  | v => v

/-- A sum taken in the order of its terms in FP32, each addition rounded to nearest even (R509, R510; DEDUCED, log entry 106). -/
def sum32 (l : List FVal) : FVal := l.foldl (fun a v => r32 (a.add v)) FVal.zero

/-- S of R509 or R510: its terms accumulated in their order in FP32, each addition rounded toward +∞. -/
def sumUp32 (l : List FVal) : FVal := l.foldl (fun a v => roundUp32 (a.add v)) FVal.zero

/-- A check of R509 or R510: none where it passes, some none where it is skipped (R511), else Δ and the bound. -/
def stCheckVal (computed reference sv : FVal) (k : Nat) : Option (Option (Nat × Nat)) :=
  let bound := (sv.mul (FVal.ofInt (k : Nat))).scale2 (-24)
  if !(computed.isFin && reference.isFin && bound.isFin) then some none
  else
    let d := computed.sub reference
    if d.abs.le bound then none else some (some (to32 (r32 d), to32 (roundUp32 bound)))

/-! ### ST_DECODE (R505 to R513) -/

/-- A fault of a Stall: the head, whether in an output rather than a score, the position or the element, and the bits of its
FP32 code that it turns over. -/
abbrev StFault := Nat × Bool × Nat × Nat

/-- A page that the Stall processes: its VPN and its entry. -/
structure StPage where
  vpn : Nat
  entry : Nat
  deriving DecidableEq, Repr

/-- A value read as a vector element of a page: region `r`, its scale region, format. -/
def Side.kvElem (s : Side) (q fmt r : Nat) (a ht d : Nat) : FVal :=
  let w := fmtBits fmt
  let off := pageRegions q
  let bit := (ht * seqD q + d) * w
  let code := bits (s.num (a + off.getD r 0 + bit / 8) 1) (bit % 8) w
  let sc := s.num (a + off.getD (r + 1) 0 + (ht * seqD q + d) / 32 * 2) 2
  (flt16.ieee sc).mul (fmtVal fmt code)

/-- Whether the stored vector of a token, keys or values, holds a poisoned byte. -/
def Side.kvPoison (s : Side) (q fmt r : Nat) (a ht : Nat) : Bool :=
  let off := pageRegions q
  s.poisoned (a + off.getD r 0 + ht * seqD q * fmtBits fmt / 8) (seqD q * fmtBits fmt / 8) ||
    s.poisoned (a + off.getD (r + 1) 0 + ht * seqD q / 16) (seqD q / 16)

/-- Whether an element of such a vector, or its scale, holds a poisoned byte. -/
def Side.kvBad (s : Side) (q fmt r : Nat) (a ht d : Nat) : Bool :=
  let off := pageRegions q
  let w := fmtBits fmt
  s.poisoned (a + off.getD r 0 + (ht * seqD q + d) * w / 8) 1 || s.poisoned (a + off.getD (r + 1) 0 + (ht * seqD q + d) / 32 * 2) 2

/-- What a head came to. -/
structure StHead where
  record : List Byte
  bad : Bool
  poison : Bool
  nonfinite : Bool
  empty : Bool
  unchecked : Nat
  checked : Nat
  fails : List (Nat × Nat × Nat × Nat)
  tokens : Nat
  deriving DecidableEq, Repr

/-- One query head of ST_DECODE. `ecc` says that a score-buffer word of it was uncorrectable (R511). -/
def Side.decodeHead (s : Side) (o : Op) (free : Nat) (faults : List StFault) (ecc : Bool) (pages : List StPage) (j : Nat) : StHead :=
  let q := o.block (o.f 32 0 64)
  let b := o.block (o.f 40 0 64)
  let p := decodeParam b
  let lo := sfld b 32 0 32
  let hi := sfld b 36 0 32
  let d := seqD q
  let h := j * seqHkv q / p.nq
  let w := fmtBits p.qfmt / 8
  let qa := local46 p.q + j * d * w
  let qv : List FVal := (upTo d).map (fun e => fmtVal p.qfmt (s.num (qa + e * w) w))
  let qe (e : Nat) : FVal := qv.getD e FVal.zero
  let addr (g : StPage) : Nat := local46 (entryAddr g.entry)
  let row (_ : StPage) (t : Nat) : Nat := h * seqP q + t
  let flip (out : Bool) (at_ : Nat) (v : FVal) : FVal :=
    match faults.find? (fun f => f.1 == j && f.2.1 == out && f.2.2.1 == at_) with
    | some f => of32 (to32 v ^^^ (f.2.2.2 % 2 ^ 32))
    | none => v
  let kAt (g : StPage) (t e : Nat) : FVal := s.kvElem q (seqKfmt q) 0 (addr g) (row g t) e
  let score (g : StPage) (t : Nat) : FVal := flip false (entryPos g.entry + t) (accFloat FVal.zero d qe (kAt g t))
  let on (g : StPage) (t : Nat) : Bool := decide (lo ≤ entryPos g.entry + t) && decide (entryPos g.entry + t < hi)
  let pagesR := pages.map (fun g => (g, (upTo (entryFill g.entry)).map (fun t => (t, score g t))))
  let attended := ((pagesR.map (fun x => (x.2.filter (fun y => on x.1 y.1)).map (fun y => (entryPos x.1.entry + y.1, x.1, y.1, y.2)))).flatten).mergeSort
    (fun x y => decide (x.1 ≤ y.1))
  let poison := s.poisoned qa (d * w) || pages.any (fun g =>
    s.poisoned (addr g + (pageRegions q).getD 4 0 + h * d * 4) (d * 4) ||
      (upTo (entryFill g.entry)).any (fun t => s.kvPoison q (seqKfmt q) 0 (addr g) (row g t) ||
        (on g t && (s.kvPoison q (seqVfmt q) 2 (addr g) (row g t) || s.poisoned (addr g + (pageRegions q).getD 5 0 + row g t * 4) 4))))
  let sc := of32 p.scale
  let ss := attended.map (fun x => r32 (x.2.2.2.mul sc))
  let m := ss.foldl (fun a v => if v.isNan then a else if a.isNan || a.lt v then v else a) FVal.nan
  let ps := (upTo ss.length).map (fun i => expBracket (bitAt free (j + 128 * i)) (r32 ((ss.getD i FVal.zero).sub m)))
  let l := ps.foldl (fun a v => r32 (a.add v)) FVal.zero
  let toks := (attended.zip ps).map (fun x => (x.1.2.1, x.1.2.2.1, x.2))
  let vAt (g : StPage) (t e : Nat) : FVal := s.kvElem q (seqVfmt q) 2 (addr g) (row g t) e
  let os := (upTo d).map (fun e => flip true e (toks.foldl (fun a x => r32 (a.add (x.2.2.mul (vAt x.1 x.2.1 e)))) FVal.zero))
  let n := attended.length
  let empty := n == 0
  let keyCheck (x : StPage × List (Nat × FVal)) :=
    let g := x.1
    let f := entryFill x.1.entry
    stCheckVal (sum32 (x.2.map (fun y => y.2)))
      (accFloat FVal.zero d qe (fun e => of32 (s.num (addr g + (pageRegions q).getD 4 0 + (h * d + e) * 4) 4)))
      (sumUp32 ((upTo f).map (fun t => (upTo d).map (fun e => (qe e).abs.mul (kAt g t e).abs))).flatten) (8 + f + d)
  let rowCheck : Option (Option (Nat × Nat)) :=
    stCheckVal (sum32 os)
      (sum32 (toks.map (fun x => x.2.2.mul (of32 (s.num (addr x.1 + (pageRegions q).getD 5 0 + row x.1 x.2.1 * 4) 4)))))
      (sumUp32 (toks.map (fun x => x.2.2.mul (sumUp32 ((upTo d).map (fun e => (vAt x.1 x.2.1 e).abs)))))) (8 + n + d)
  let bad := poison || ecc
  let ks := if bad then [] else pagesR.map (fun x => (x.1.vpn, 0, keyCheck x))
  let rs := if bad || empty then [] else [(0xFFFFFFFF, 1, rowCheck)]
  let checks := ks ++ rs
  let skipped := (checks.filter (fun c => c.2.2 == some none)).length
  let fails := checks.filterMap (fun c => match c.2.2 with | some (some x) => some (c.1, c.2.1, x) | _ => none)
  let mBytes := if empty then 0xFF800000 else to32 m
  let record := toBytes 4 mBytes ++ toBytes 4 (if empty then 0 else to32 l) ++ toBytes 4 n ++
    toBytes 4 ((if empty then 1 else 0) + if skipped = 0 then 0 else 2) ++ toBytes 48 0 ++
    (os.map (fun v => toBytes 4 (if empty then 0 else to32 v))).flatten
  let odd (a m : Nat) (v : FVal) : Bool := !v.isFin && !(s.poisoned a m)
  let oddF32 (a : Nat) : Bool := odd a 4 (of32 (s.num a 4))
  let oddElem (fmt r : Nat) (g : StPage) (t e : Nat) : Bool :=
    !(s.kvElem q fmt r (addr g) (row g t) e).isFin && !(s.kvBad q fmt r (addr g) (row g t) e)
  let read := !sc.isFin || (upTo d).any (fun e => odd (qa + e * w) w (qe e)) ||
    pages.any (fun g => (upTo d).any (fun e => oddF32 (addr g + (pageRegions q).getD 4 0 + (h * d + e) * 4)) ||
      (upTo (entryFill g.entry)).any (fun t => (upTo d).any (fun e => oddElem (seqKfmt q) 0 g t e))) ||
    toks.any (fun x => oddF32 (addr x.1 + (pageRegions q).getD 5 0 + row x.1 x.2.1 * 4) ||
      (upTo d).any (fun e => oddElem (seqVfmt q) 2 x.1 x.2.1 e))
  let made := !poison && (pagesR.any (fun x => x.2.any (fun y => !y.2.isFin)) || ss.any (fun v => !v.isFin) ||
    (!bad && (ps.any (fun v => !v.isFin) || !l.isFin || os.any (fun v => !v.isFin) || skipped != 0)))
  ⟨record, bad || !fails.isEmpty, bad, read || made, empty, skipped, checks.length - skipped, fails, n⟩

/-- The end of a Stall command (R499, R500). -/
def Side.stEnd (s : Side) (o : Op) (met : Bool) (status flags count skipped : Nat) : Side :=
  s.finish o met (if status = stDone ∧ flags ≠ 0 then stFlagged else status) (count % 2 ^ 32 + flags * 2 ^ 32 + o.inst * 2 ^ 40 + skipped % 2 ^ 16 * 2 ^ 48)

/-- The errors of score-buffer words: corrected (false) or uncorrectable (true), by head. -/
def Side.scoreErrors (s : Side) (i : Nat) (errs : List (Nat × Bool)) : Side :=
  errs.foldl (fun s e => if e.2 then s.count (Reg.ST_SRAM i) 32 16 else s.count (Reg.ST_SRAM i) 48 16) s

/-- The resolved pages of an ST_DECODE that lie in the home stack of its instance (R497). -/
def Side.decodeHome (s : Side) (o : Op) : List StPage :=
  let q := o.block (o.f 32 0 64)
  let vpns := o.decodePages.map (fun k => (decodeParam (o.block (o.f 40 0 64))).layer * 2 ^ seqPplLog q + k)
  ((vpns.zip o.pages).map (fun x => StPage.mk x.1 x.2)).filter (fun g => s.homeStack (entryAddr g.entry) (pageBytes q) == some o.inst)

/-- The pages of an ST_DECODE that another stack holds (R497). -/
def Side.decodeSkipped (s : Side) (o : Op) : Nat := min o.decodePages.length o.pages.length - (s.decodeHome o).length

/-- The extents of device memory that an ST_DECODE reads. -/
def Side.decodeReads (s : Side) (o : Op) : List (Nat × Nat) :=
  let q := o.block (o.f 32 0 64)
  let p := decodeParam (o.block (o.f 40 0 64))
  (local46 p.q, p.nq * seqD q * fmtBits p.qfmt / 8) ::
    (s.decodeHome o).map (fun g => (local46 (entryAddr g.entry), pageBytes q))

/-- The query heads of an ST_DECODE (R505 to R511). -/
def Side.decodeHeads (s : Side) (o : Op) (faults : List StFault) (sram : List (Nat × Bool)) : List StHead :=
  (upTo (decodeParam (o.block (o.f 40 0 64))).nq).map (fun j =>
    s.decodeHead o (Config.freeNat s.draw.1) faults (sram.any (fun e => e.2 && e.1 == j)) (s.decodeHome o) j)

/-- The records that the heads of an ST_DECODE are written as (R508). -/
def Op.decodeWrites (o : Op) (heads : List StHead) : List (Nat × Byte × Bool) :=
  let out := local46 (sfld (o.block (o.f 40 0 64)) 8 0 64)
  (((upTo heads.length).zip heads).map (fun x =>
    (goodAt (out + x.1 * (64 + 4 * seqD (o.block (o.f 32 0 64)))) x.2.record).map (fun w => (w.1, w.2.1, x.2.bad)))).flatten

/-- The failing checks of an ST_DECODE with their heads, in order. -/
def headFails (heads : List StHead) : List (Nat × Nat × Nat × Nat × Nat) :=
  (((upTo heads.length).zip heads).map (fun x => x.2.fails.map (fun f => (x.1, f)))).flatten

/-- The flags of an ST_DECODE's RESULT (R499). -/
def headFlags (heads : List StHead) : Nat :=
  let any (f : StHead → Bool) : Nat := if heads.any f then 1 else 0
  any (fun x => x.nonfinite) + 2 * any (fun x => x.empty) + 4 * any (fun x => x.unchecked != 0)

/-- The checks of an ST_DECODE counted and its first failing one noted (R512, R534). -/
def Side.checkHeads (s : Side) (o : Op) (heads : List StHead) : Side :=
  let i := o.inst
  let sum (f : StHead → Nat) : Nat := heads.foldl (fun a x => a + f x) 0
  let s := ((s.count (Reg.ST_CHK i) 32 32 (sum (fun x => x.checked))).count (Reg.ST_CHK i) 16 16 (headFails heads).length).count
    (Reg.ST_CHK i) 0 16 (sum (fun x => x.unchecked))
  match headFails heads with
  | [] => s
  | (j, f) :: _ =>
      let dw := f.2.2.1 + f.2.2.2 * 2 ^ 32
      let s := s.wr (Reg.ST_WHERE i) (BitVec.ofNat 64 (o.chain * 2 ^ 32 + f.1))
      let s := s.wr (Reg.ST_WHERE2 i) (BitVec.ofNat 64 (o.queue * 2 ^ 32 + f.2.1 * 256 + j))
      let s := s.wr (Reg.ST_DELTA i) (BitVec.ofNat 64 dw)
      s.raise 0x01 0x0F i (some (o.chain, o.queue)) dw

/-- The first page of an ST_DECODE whose translation failed: the walk's status, and its VPN (R497). -/
def Op.pageFailed (o : Op) : Option (Nat × Nat) :=
  (o.pages.find? (fun e => decide (2 ^ 128 ≤ e))).map (fun e => (e / 2 ^ 128, e % 2 ^ 32))

/-- ST_DECODE (R504 to R513). -/
def stDecode (faults : List StFault) (sram : List (Nat × Bool)) (o : Op) (s : Side) : Side :=
  if (decodeParam (o.block (o.f 40 0 64))).nq = 0 ∨ o.decodePages = [] then s.stEnd o false stDone 0 0 0
  else
    match o.pageFailed with
    | some (st, vpn) => s.stEnd o false st 0 vpn 0
    | none =>
        let skipped := s.decodeSkipped o
        if (s.decodeReads o).any (fun r => s.readGuarded 0x0F r.1 r.2) then s.stEnd o true stDone 0 0 skipped
        else
          let heads := s.decodeHeads o faults sram
          let (s, met) := (s.draw.2.scoreErrors o.inst sram).scatter 0x0F (o.decodeWrites heads)
          let s := s.checkHeads o heads
          let st := if !(headFails heads).isEmpty then stCheck else if heads.any (fun x => x.poison) then stPoison else stDone
          s.stEnd o met st (headFlags heads) ((heads.head?.map (fun x => x.tokens)).getD 0) skipped

/-! ### ST_RETRIEVE (R514 to R518) -/

/-- The order of a page list (R515): descending SCORE, ties to the lower PAGE. -/
def listBefore (a b : Nat × FVal) : Bool := b.2.lt a.2 || (!(a.2.lt b.2) && decide (a.1 ≤ b.1))

/-- A candidate offered to a list of at most `cap` entries (R516). -/
def listOffer (cap : Nat) (l : List (Nat × FVal)) (c : Nat × FVal) : List (Nat × FVal) :=
  if l.any (fun e => e.1 == c.1) then
    (l.map (fun e => if e.1 = c.1 ∧ e.2.lt c.2 = true then c else e)).mergeSort listBefore
  else if l.length < cap then (l ++ [c]).mergeSort listBefore
  else match l.getLast? with
    | some z => if listBefore c z then (l.dropLast ++ [c]).mergeSort listBefore else l
    | none => l

/-- The state of a retrieval. -/
structure StRun where
  list : List (Nat × FVal)
  scored : Nat
  skipped : Nat
  nonfinite : Bool
  poison : Bool
  met : Bool
  deriving DecidableEq, Repr

/-- One candidate page of ST_RETRIEVE (R516). The Outrider's walk of it changes the Tally and its counts. -/
def stCandidate (o : Op) (qv : List FVal) (r : StRun × Side) (k : Nat) : StRun × Side :=
  let q := o.block (o.f 32 0 64)
  let b := o.block (o.f 40 0 64)
  let p := retrieveParam b
  let d := seqD q
  let s := r.2
  if s.flag (Reg.OR_CTRL (seqOwner q)) 0 = false then (r.1, s)
  else
    match s.walk (seqOwner q) q (p.layer * 2 ^ seqPplLog q + k) with
    | ((none, st), s) =>
        ({ r.1 with poison := r.1.poison || st == stPoison, met := r.1.met || st == stAddress,
                    skipped := r.1.skipped + if st = stPoison then 1 else 0 }, s)
    | ((some e, _), s) =>
        let a := local46 (entryAddr e)
        let sums := a + (pageRegions q).getD 4 0
        if entryState e = 3 then ({ r.1 with skipped := r.1.skipped + 1 }, s)
        else if entryState e = 0 ∨ entryFill e = 0 then (r.1, s)
        else if s.extentOk (entryAddr e) (pageBytes q) = false ∨ s.readGuarded 0x0F sums (seqHkv q * d * 4) = true then
          ({ r.1 with met := true }, s)
        else if s.poisoned sums (seqHkv q * d * 4) then ({ r.1 with skipped := r.1.skipped + 1, poison := true }, s)
        else
          let score (j : Nat) : FVal :=
            let h := j * seqHkv q / p.nq
            let dot := accFloat FVal.zero d (fun e => qv.getD (j * d + e) FVal.zero) (fun e => of32 (s.num (sums + (h * d + e) * 4) 4))
            r32 ((r32 ((of32 p.scale).mul dot)).div (FVal.ofInt (entryFill e : Nat)))
          let cs := (upTo p.nq).map score
          let c := if sfld b 24 0 32 ≤ entryPos e then FVal.inf false
            else if cs.any (fun v => v.isNan) then FVal.nan
            else cs.foldl (fun a v => if a.isNan || a.lt v then v else a) FVal.nan
          if c.isNan then ({ r.1 with skipped := r.1.skipped + 1, nonfinite := true, scored := r.1.scored + 1 }, s)
          else
            ({ r.1 with list := listOffer (sfld b 34 0 16) r.1.list (k, c), scored := r.1.scored + 1,
                        nonfinite := r.1.nonfinite || cs.any (fun v => !v.isFin) }, s)

/-- The query vectors of an ST_RETRIEVE. -/
def Side.retrieveQuery (s : Side) (o : Op) : List FVal :=
  let p := retrieveParam (o.block (o.f 40 0 64))
  let w := fmtBits p.qfmt / 8
  (upTo (p.nq * seqD (o.block (o.f 32 0 64)))).map (fun e => fmtVal p.qfmt (s.num (local46 p.q + e * w) w))

/-- The extent of an ST_RETRIEVE's query vectors. -/
def Op.retrieveExtent (o : Op) : Nat × Nat :=
  let p := retrieveParam (o.block (o.f 40 0 64))
  (local46 p.q, p.nq * seqD (o.block (o.f 32 0 64)) * (fmtBits p.qfmt / 8))

/-- The candidates of an ST_RETRIEVE scored in turn, from the list it continues or from none (R516, R517). -/
def Side.retrieveRun (s : Side) (o : Op) : StRun × Side :=
  let p := retrieveParam (o.block (o.f 40 0 64))
  let start : List (Nat × FVal) := if p.bit4 then (pageList (o.listBlock p.list)).map (fun e => (e.1, of32 e.2)) else []
  ((upTo p.n).map (fun i => p.first + i)).foldl (stCandidate o (s.retrieveQuery o)) (⟨start, 0, 0, false, false, false⟩, s)

/-- The bytes of the page list that an ST_RETRIEVE writes (R515). -/
def Op.retrieveBytes (o : Op) (l : List (Nat × FVal)) : List Byte :=
  let b := o.block (o.f 40 0 64)
  let cap := sfld b 34 0 16
  let l := l.take cap
  toBytes 2 l.length ++ toBytes 2 cap ++ toBytes 2 (retrieveParam b).layer ++ toBytes 10 0 ++
    (l.map (fun e => toBytes 4 e.1 ++ toBytes 4 (to32 e.2))).flatten

/-- The flags of an ST_RETRIEVE's RESULT: a NaN or an infinity read or made (R499). -/
def Side.retrieveFlags (s : Side) (o : Op) : Nat :=
  if s.retrieveRun o |>.1.nonfinite then 1 else if (s.retrieveQuery o).any (fun v => !v.isFin) then 1 else 0

/-- ST_RETRIEVE: the ranked page list written whole. -/
def stRetrieve (o : Op) (s : Side) : Side :=
  let p := retrieveParam (o.block (o.f 40 0 64))
  let x := o.retrieveExtent
  if p.nq = 0 ∨ p.n = 0 then s.stEnd o false stDone 0 0 0
  else if s.readGuarded 0x0F x.1 x.2 then s.stEnd o true stDone 0 0 0
  else if s.poisoned x.1 x.2 then
    let (n, s) := s.draw
    let (s, _) := if Config.freeBool n then s.scatter 0x0F (badAt (local46 p.list) (16 + 8 * sfld (o.block (o.f 40 0 64)) 34 0 16)) else (s, false)
    s.stEnd o false stPoison 0 0 0
  else
    let flags := s.retrieveFlags o
    let (r, s) := s.retrieveRun o
    let (s, met) := s.scatter 0x0F (goodAt (local46 p.list) (o.retrieveBytes r.list))
    s.stEnd o (met || r.met) (if r.poison then stPoison else stDone) flags r.scored r.skipped

end Sys2Proof.Machine
end

