-- ==== Sys2Proof/Machine/Admit.lean ====
section
/-!
DEFINITION. Machine/Admit.lean: fetch and admission (R123 to R146), and the ragged scheduler (R526 to R530).
-/
namespace Sys2Proof.Machine

/-! ### What the chapters of the smaller units say of admission -/

/-- What R192 to R196 say of the admission of LAUNCH and CANCEL. -/
def lgChecks (s : Side) (cmd : Nat) : Checks :=
  let op := sfld cmd 0 0 8
  if op = 1 then
    let a := sfld cmd 40 0 64
    let n := sfld cmd 48 0 16
    let port := sfld cmd 50 0 4
    let off := sfld cmd 52 0 8
    let m := sfld cmd 53 0 8
    let can := decide (10 ≤ port) && decide (port ≤ 13)
    let hd := s.struct a n 1
    let ok := can && decide (8 ≤ n) && s.readable a n 1
    { reserved := anySet cmd [(50, 4, 4), (51, 2, 6), (54, 4, 4), byteRange 55 55, byteRange 60 63] || (ok && anySet hd [byteRange 4 7]),
      blocks := [(a, n, 1)],
      absent := decide (14 ≤ port) || decide (14 ≤ sfld cmd 54 0 4),
      length := decide ((if can then 72 else 1518) < n) || decide (16 < m) || decide (n < off + m) ||
        (can && (decide (1 ≤ n) && decide (n ≤ 7))) || (ok && decide (16 < n) && !(bitAt hd 30)) ||
        (bitAt (sfld cmd 51 0 8) 0 && sfld cmd 32 0 64 == 0),
      degraded := s.flag Reg.LG_CTRL 2,
      space := if n ≠ 0 ∧ (512 ≤ s.lg.frames.length ∨ 262144 < s.lgBytes + roundUp n 64) then some (roundUp n 64) else none }
  else if op = 2 then
    { reserved := anySet cmd [(36, 4, 4), byteRange 37 63], absent := decide (14 ≤ sfld cmd 36 0 4) }
  else { opcode := true }

/-- What R252 and R253 say of the admission of TR_POST. -/
def trChecks (cmd : Nat) : Checks :=
  if sfld cmd 0 0 8 = 1 then
    let n := sfld cmd 33 0 8
    { reserved := anySet cmd [(32, 5, 3), byteRange 34 35, byteRange 48 63], blocks := [(sfld cmd 40 0 64, 4 * n, 4)],
      length := decide (16 < n), worst := (1000, 1) }
  else { opcode := true }

/-- What R284 says of the admission of GT_CORR. -/
def gtChecks (s : Side) (cmd : Nat) : Checks :=
  if sfld cmd 0 0 8 = 1 then
    let p := sfld cmd 48 0 64
    { reserved := anySet cmd [byteRange 56 63] || (s.readable p 64 1 && anySet (s.struct p 64 1) [byteRange 16 63]),
      blocks := [(p, 64, 1)], worst := (2000, 1) }
  else { opcode := true }

/-- The reserved fields of the header of a command slot (R125). -/
def headerReserved (cmd : Nat) : Bool := anySet cmd [(2, 1, 7), (3, 0, 8), (6, 13, 2), (8, 13, 2), (10, 0, 16)]

/-- What R526 and R527 say of the admission of CQ_RAGGED. -/
def rgChecks (s : Side) (cmd : Nat) : Checks :=
  if sfld cmd 0 0 8 = 1 then
    let t := sfld cmd 32 0 64
    let tab := sfld cmd 40 0 64
    let st := sfld cmd 48 0 64
    let n := sfld cmd 56 0 16
    let fits := decide (n ≤ 4096)
    let tv := s.struct t 64 64
    let tok := s.readable t 64 64
    let ents := s.struct tab (24 * n) 8
    let eok := fits && s.readable tab (24 * n) 8
    { reserved := anySet cmd [byteRange 58 63] || (tok && headerReserved tv) || (eok && (upTo n).any (fun i => sfld ents (24 * i + 20) 0 32 != 0)),
      opcode := tok && sfld tv 1 0 8 != 0x0E && sfld tv 1 0 8 != 0x0F,
      absent := s.part != .cjm7480 || !(sfld cmd 4 0 16 == 64 || sfld cmd 4 0 16 == 0xFFFF),
      blocks := (t, 64, 64) :: (if fits then [(tab, 24 * n, 8)] else []),
      length := !fits, address := st != 0 && s.badExtent st (2 * n), worst := (1000 + 20 * n, 1) }
  else { opcode := true }

/-- What the chapter of a unit says of the admission of a command; a unit that accepts none assigns no opcode. -/
def Side.unitChecks (s : Side) (cmd : Nat) : Checks :=
  match sfld cmd 1 0 8 with
  | 0x04 => lgChecks s cmd
  | 0x06 => trChecks cmd
  | 0x07 => gtChecks s cmd
  | 0x08 => plChecks s cmd
  | 0x09 => ptChecks s cmd
  | 0x0A => tvChecks s cmd
  | 0x0B => brChecks s cmd
  | 0x0C => orChecks s cmd
  | 0x0D => rlChecks s cmd
  | 0x0E => drChecks s cmd
  | 0x0F => stChecks s cmd
  | 0x12 => rgChecks s cmd
  | 0x17 => rcChecks s cmd
  | _ => { opcode := true }

/-! ### The checks in their order (R135) -/

/-- A refusal: its status, REQ_NS and REQUIRED. -/
structure Refused where
  status : Nat
  reqNs : Bool
  required : Nat
  deriving DecidableEq, Repr

/-- A refusal without a requirement. -/
def Refused.plain (st : Nat) : Refused := ⟨st, false, 0⟩

/-- The instances of a unit that commands may name (R29). -/
def Part.insts (p : Part) (unit : Nat) : List Nat :=
  match unit with
  | 0x0C => upTo p.dies
  | 0x0D => upTo p.relays
  | 0x0E => upTo p.engines
  | 0x0F => upTo p.stalls
  | _ => [0]

/-- Whether the effective mode powers an instance (R707, R714). -/
def Side.modePowers (s : Side) (unit inst : Nat) : Bool :=
  if unit = 0x0E ∨ unit = 0x0F then (s.part.modeUnits s.mode).contains (unit, inst) else true

/-- Check 10 of R135, and R140 for any instance. -/
def Side.allWithdrawn (s : Side) (unit inst : Nat) : Bool :=
  if inst = 0xFFFF then (s.part.insts unit).all (fun i => s.withdrawn unit i) else s.withdrawn unit inst

/-- Whether the mode powers no instance that the command may run on (R137, R140). -/
def Side.noPower (s : Side) (unit inst : Nat) : Bool :=
  if inst = 0xFFFF then (s.part.insts unit).all (fun i => s.withdrawn unit i || !(s.modePowers unit i)) else !(s.modePowers unit inst)

/-- The bytes of a structure meet the extent that only its owner may read (R291). -/
def Side.structGuarded (s : Side) (unit : Nat) (b : Nat × Nat × Nat) : Bool := s.readGuarded unit (local46 b.1) b.2.1

/-- R135: the first check that fails decides. -/
def Side.admission (s : Side) (cmd : Nat) : Option Refused :=
  let unit := sfld cmd 1 0 8
  let inst := sfld cmd 4 0 16
  let c := s.unitChecks cmd
  let here (b : Nat × Nat × Nat) : Bool := s.structOk b.1 b.2.1 b.2.2
  if headerReserved cmd || c.reserved then some (.plain stReserved)
  else if c.opcode then some (.plain stBadOpcode)
  else if c.absent || (s.part.insts unit).isEmpty || !(inst == 0xFFFF || s.part.hasInst unit inst) then some (.plain stAbsent)
  else if c.blocks.any (fun b => here b && s.poisoned (local46 b.1) b.2.1) then some (.plain stPoison)
  else if c.format then some (.plain stBadFormat)
  else if c.stride then some (.plain stZeroStride)
  else if c.aliasing then some (.plain stAliasing)
  else if c.length then some (.plain stLength)
  else if c.address || c.blocks.any (fun b => !(here b) || s.structGuarded unit b) then some (.plain stAddress)
  else if c.degraded || s.allWithdrawn unit inst then some (.plain stDegraded)
  else match c.space with
    | some n => some ⟨stCapacity, false, n⟩
    | none =>
        if s.noPower unit inst then some ⟨stCapacity, false, 0⟩
        else if 200000 * c.worst.2 < c.worst.1 then some ⟨stCapacity, true, ceilDiv c.worst.1 c.worst.2⟩
        else none

/-- The structures that admission read, each kept with the command (R126). -/
def Side.readBlocks (s : Side) (cmd : Nat) : List Block :=
  (s.unitChecks cmd).blocks.map (fun b => ⟨b.1, b.2.1, s.num (local46 b.1) b.2.1⟩)

/-- An operation in flight made of an admitted command. -/
def Side.newOp (s : Side) (queue chain cls slots cmd : Nat) (parent : Option (Nat × Nat × Nat)) : Op :=
  let c := s.unitChecks cmd
  let r := if sfld cmd 1 0 8 = 0x0C then s.orReservation cmd else (0, [])
  { queue := queue, chain := chain, cls := cls, slots := slots, cmd := cmd, blocks := s.readBlocks cmd,
    worst := ceilDiv c.worst.1 c.worst.2, waitMet := false, run := none, capped := false, resv := r.1, pages := r.2,
    parent := parent, fetched := s.now, readyAt := none, mode := s.mode }

/-- R192: the gate copies the frame of an admitted LAUNCH into its store. -/
def Side.storeFrame (s : Side) (o : Op) : Side :=
  let n := o.f 48 0 16
  if n = 0 then s
  else
    let tl := o.f 32 0 64
    let port := o.f 50 0 4
    let dual := o.f 51 0 1 == 1
    let f : LFrame :=
      { uid := s.lg.nextUid, queue := o.queue, chain := o.chain, tl := tl, image := toBytes n (o.block (o.f 40 0 64)), port := port, dual := dual,
        report := o.f 51 1 1 == 1, matchOff := o.f 52 0 8, matchLen := o.f 53 0 8, watch := o.f 54 0 4, tag := o.f 56 0 32,
        started := false, startNs := 0, order := 0, sched := 0, shadow := false, judged := false }
    s.lgSet (fun l => { l with
      frames := l.frames ++ [f]
      nextUid := l.nextUid + 1
      duals := if dual then l.duals ++ [(tl, port, false)] else l.duals
      dualPorts := if dual then nsAdd l.dualPorts port else l.dualPorts })

/-! ### Fetch (R123, R124, R144 to R146) -/

/-- Whether a queue fetches: enabled, the side not silent (R626), a command in the ring, fewer than 8,192 operations in
flight, and room in the completion ring. -/
def Side.mayFetch (s : Side) (q : Nat) : Bool :=
  let c := s.fld (Reg.CQ_HEAD q) 0 32
  let n := 16 * 2 ^ s.fld (Reg.CQ_CFG q) 8 4
  decide (q < 64) && s.flag (Reg.CQ_CFG q) 3 && s.swState != 3 && c != s.fld (Reg.CQ_TAIL q) 0 32 &&
    decide (s.ops.length < 8192) && decide ((c + 2 ^ 32 - s.fld (Reg.CQ_CPLREAD q) 0 32) % 2 ^ 32 < n)

/-- A fetched command is refused: its record is written and REFUSED rises; no tether is signalled (R136). -/
def Side.refuse (s : Side) (q c n unit : Nat) (r : Refused) : Side :=
  let s := (s.record q c n r.status unit r.reqNs r.required 0).count (Reg.CQ_STAT q) 48 16
  let s := s.pmCount (monitorOf 0x12 q) 0x0402 1 { mid := some (0x12 * 128 + q), cls := some (s.fld (Reg.CQ_CFG q) 0 3) }
  s.tagCommand q c unit 0 r.status 0 0

/-- COMMAND_FETCH (R123 to R146): the next command of a queue is fetched, given its chain number and checked. -/
def Side.fetchCommand (s : Side) (q : Nat) (env : Env) : Side :=
  if s.mayFetch q then
    let c := s.fld (Reg.CQ_HEAD q) 0 32
    let n := 16 * 2 ^ s.fld (Reg.CQ_CFG q) 8 4
    let cls := s.fld (Reg.CQ_CFG q) 0 3
    let a := (s.fld (Reg.CQ_RING q) 6 58 * 64 + c % n * 64) % 2 ^ 46
    let s := s.lineErrors (some (c, q)) env.errs false
    let s := s.put (Reg.CQ_HEAD q) 0 32 (c + 1)
    let cmd := s.num a 64
    let m := monitorOf 0x12 q
    let who : PmAttr := { mid := some (0x12 * 128 + q), cls := some cls }
    let s := s.pmCount m 0x0401 1 who
    let (tagged, s) := s.tagItem m who
    let s := if tagged then s.onTag m (fun t => { t with chain := some c, fetched := s.now }) else s
    if s.poisoned a 64 then s.refuse q c n (if s.poisoned (a + 1) 1 then 0 else sfld cmd 1 0 8) (.plain stPoison)
    else if s.readGuarded 0x12 a 64 then s.refuse q c n 0 (.plain stAddress)
    else match s.admission cmd with
      | some r => s.refuse q c n (sfld cmd 1 0 8) r
      | none =>
          let o := s.newOp q c cls n cmd none
          let s : Side := { s with ops := s.ops ++ [o] }
          if o.unit = 0x04 ∧ o.opcode = 1 then s.storeFrame o else s
  else s

/-! ### The ragged scheduler (R526 to R530) -/

/-- Entry `e` of the table of a CQ_RAGGED command. -/
def Op.entry (o : Op) (e : Nat) : Nat := bits (o.block (o.f 40 0 64)) (192 * e) 192

/-- LENGTH of an entry. -/
def Op.entryLen (o : Op) (e : Nat) : Nat := sfld (o.entry e) 16 0 32

/-- An entry placed behind every one that is not shorter. -/
def longerFirst (len : Nat → Nat) : List Nat → Nat → List Nat
  | [], e => [e]
  | x :: r, e => if len x < len e then e :: x :: r else x :: longerFirst len r e

/-- The entries that issue something, in the order of R528. -/
def Op.issueOrder (o : Op) : List Nat :=
  ((upTo (o.f 56 0 16)).filter (fun e => o.entryLen e != 0)).foldl (fun l e => longerFirst o.entryLen l e) []

/-- Sub-command `e` (R526, R527): the template with bytes 32 to 47 replaced, SIG_EN, WAIT_EN and FENCE ignored, and the
parent's DEADLINE. -/
def Op.subCommand (o : Op) (e : Nat) : Nat :=
  let t := o.block (o.f 32 0 64)
  let x := o.entry e
  let t := putBits (putBits (putBits t 16 1 0) 63 1 0) 79 1 0
  putBits (putBits (putBits t 192 64 (o.f 24 0 64)) 256 64 (sfld x 0 0 64)) 320 64 (sfld x 8 0 64)

/-- The parent's note of what became of an entry (see `Side.endRagged`). -/
def Side.noteEntry (s : Side) (o : Op) (e v : Nat) : Side :=
  { s with ops := s.ops.map (fun (p : Op) => if p.same o then { p with pages := setAt p.pages e v } else p) }

/-- One sub-command is issued: admitted under R135 and in flight, or ended by its refusal. -/
def Side.issue (s : Side) (o : Op) (e : Nat) : Side :=
  let cmd := o.subCommand e
  let s := s.put Reg.CQ_RAGGED 32 32 (min (2 ^ 32 - 1) (s.fld Reg.CQ_RAGGED 32 32 + 1))
  match s.admission cmd with
  | some r => s.noteEntry o e (2 + r.status)
  | none =>
      let p := s.newOp o.queue o.chain o.cls o.slots cmd (some (o.queue, o.chain, e))
      let s : Side := { s with ops := s.ops ++ [p] }
      (s.put Reg.CQ_RAGGED 0 14 (s.fld Reg.CQ_RAGGED 0 14 + 1)).noteEntry o e 1

/-- CQ_RAGGED (R528 to R530): as many sub-commands are issued as the side has room for; the last one issued, later commands
of the queue may start, and with the last one ended the parent ends. -/
def cqRagged (o : Op) (s : Side) : Side :=
  if o.resv = 1 then s
  else
    let o := if o.pages.isEmpty then { o with pages := List.replicate (o.f 56 0 16) 0 } else o
    let s := s.setOp o
    let todo := o.issueOrder.filter (fun e => o.pages.getD e 0 == 0)
    let s := todo.foldl (fun s e => if s.ops.length < 8192 then s.issue o e else s) s
    match s.ops.find? (fun p => p.same o) with
    | none => s
    | some p =>
        if o.issueOrder.all (fun e => p.pages.getD e 0 != 0) then
          let p := { p with resv := 1 }
          (s.setOp p).endRagged p
        else s

end Sys2Proof.Machine
end

