-- ==== Sys2Proof/Machine/Schedule.lean ====
section
/-!
DEFINITION. Machine/Schedule.lean: which ready command an instance starts (R131, R638, R640, R712), what a withdrawal leaves
without an instance (R634), the 200 µs ceiling (R134), and missed deadlines (R157).
-/
namespace Sys2Proof.Machine

/-- Whether a command may run on an instance of a unit: it names it or any, a unit of one instance has but one, CQ_RAGGED
runs on instance 64, and an RC command on its queue pair (R454). -/
def Op.targets (o : Op) (unit inst : Nat) : Bool :=
  o.unit == unit && (match unit with
    | 0x0C | 0x0D | 0x0E | 0x0F => o.f 4 0 16 == inst || o.f 4 0 16 == 0xFFFF
    | 0x12 => inst == 64
    | 0x17 => o.qp == inst
    | _ => inst == 0)

/-- Whether an instance that a command does not name passes check 11 of R135 (R137) for it: in the mode at its fetch, which
changes nothing for it later (R139), or in the mode now. -/
def Side.fits (s : Side) (o : Op) (unit inst : Nat) : Bool :=
  !(unit == 0x0E || unit == 0x0F) || o.f 4 0 16 != 0xFFFF || (s.part.modeUnits o.mode).contains (unit, inst) || s.modePowers unit inst

/-- Whether a withdrawal has left a command without an instance (R634). -/
def Side.stranded (s : Side) (o : Op) : Bool :=
  if o.f 4 0 16 = 0xFFFF then
    (s.part.insts o.unit).any (fun i => s.withdrawn o.unit i) &&
      (s.part.insts o.unit).all (fun i => s.gone o.unit i || !(s.modePowers o.unit i || (s.powered o.unit i && s.fits o o.unit i)))
  else s.gone o.unit (o.f 4 0 16)

/-- R634: the ready commands of a unit that a withdrawal has left without an instance complete with SIDE_DEGRADED, in the
order in which they would have started. -/
def Side.degradeLoop (unit : Nat) : Nat → Side → Side
  | 0, s => s
  | n + 1, s =>
      match s.pick unit (s.ops.filter (fun o => o.unit == unit && s.ready o && s.stranded o)) with
      | none => s
      | some o => Side.degradeLoop unit n (s.complete o stDegraded).settle

/-- R634 for every command of a unit. -/
def Side.degradeReady (s : Side) (unit : Nat) : Side := Side.degradeLoop unit s.ops.length s

/-- The commands that an instance may start now. -/
def Side.startable (s : Side) (unit inst : Nat) : List Op :=
  s.ops.filter (fun o => o.targets unit inst && s.fits o unit inst && s.ready o && !(past s.now (o.f 24 0 64)))

/-- Whether an instance may start a command: it is free, powered and not withdrawn, and neither a Trot-up that may start
(R638) nor one owed before its first command (R640) comes first. -/
def Side.mayStart (s : Side) (unit inst : Nat) : Bool :=
  s.idle unit inst && s.powered unit inst && !(s.withdrawn unit inst) &&
    !((s.trot unit inst).any (fun t => t.owes || s.trotMayStart t))

/-- What a command fixes at its start: PL_INGEST the landing counters of its slot, ST_DECODE its translations (R504),
TV_OPEN the epoch, an RC command its retries. -/
def Side.onStart (s : Side) (o : Op) : Side :=
  if o.unit = 0x08 ∧ o.opcode = 2 then
    s.setOp { o with pages := [s.fld (Reg.IN_LPTR (o.f 58 0 5)) 32 32, s.fld (Reg.IN_LPTR (o.f 58 0 5)) 0 32] }
  else if o.unit = 0x0F ∧ o.opcode = 1 then s.decodeStart o
  else if o.unit = 0x0A ∧ o.opcode = 1 then s.tvOpenStart o
  else if o.unit = 0x17 then
    { s with host := { s.host with qps := setAt s.host.qps o.qp { s.qp o.qp with retries := 0 } } }
  else s

/-- A command starts on an instance, and the pointer of its class moves (R131). -/
def Side.start (s : Side) (o : Op) (inst : Nat) : Side :=
  let o : Op := { o with run := some (inst, s.now), readyAt := some (o.readyAt.getD s.now) }
  let s : Side := { s.setOp o with rr := alSet s.rr (o.unit * 8 + o.cls) o.queue }
  s.onStart o

/-- R712: whether the credit of an engine holds back classes 1 to 7. -/
def Side.capHolds (s : Side) (unit inst : Nat) : Bool := unit == 0x0E && s.mode == 2 && decide (s.credit inst < 0)

/-- COMMAND_DISPATCH (R131): a free instance starts the ready command that R131 chooses. One that the Canter cap holds back
is counted once (R712). LAUNCH and CANCEL start by rows of their own. -/
def Side.dispatch (s : Side) (unit inst : Nat) : Side :=
  let s := s.degradeReady unit
  if unit = 0x04 ∨ s.mayStart unit inst = false then s
  else
    match s.pick unit (s.startable unit inst) with
    | none => s
    | some o =>
        if o.cls ≠ 0 ∧ s.capHolds unit inst = true then
          if o.capped then s else (s.setOp { o with capped := true }).count Reg.PW_CNT 0 32
        else s.start o inst

/-- The operation that runs on an instance of a unit. -/
def Side.occupant (s : Side) (unit inst : Nat) : Option Op :=
  s.ops.find? (fun o => o.unit == unit && (match o.run with | some (i, _) => i == inst | none => false))

/-- The bytes of the report of a BR_SOLVE (R602), of the structure it solves or is about to solve. -/
def Side.brReport (s : Side) (o : Op) : Nat :=
  match s.br.run with
  | some r => 128 + 8 * (r.work.n + 2 * r.work.m)
  | none => ((s.brSlot (o.f 40 0 2)).map (fun b => 128 + 8 * (b.n + 2 * b.m))).getD 0

/-- The effect of a running command, by which the bytes it is due to write are known (R134): nothing it leaves to chance goes
wrong. TR_POST, GT_CORR, LAUNCH and RC_WRITE write no bytes of this side; those of BR_SOLVE are its report (R602). -/
def Op.effect (o : Op) : Side → Side :=
  match o.unit, o.opcode with
  | 0x08, 1 => plOpen o
  | 0x08, 2 => plIngest [] o
  | 0x08, 3 => plClose o
  | 0x08, 4 => plSort o
  | 0x08, 5 => plMerge o
  | 0x08, 6 => plPillar o
  | 0x08, 7 => plRules o
  | 0x09, 1 => ptPaint o
  | 0x09, 2 => ptBlank o
  | 0x09, 3 => ptSeal o
  | 0x0A, 1 => tvOpen o
  | 0x0A, 2 => tvMapRows o
  | 0x0A, 3 => tvGrow o
  | 0x0A, 4 => tvSearch [] false o
  | 0x0A, 5 => tvPace o
  | 0x0B, 2 => fun s => (s.scatter 0x0B (badAt (local46 (sfld (brParam o) 24 0 64)) (s.brReport o))).1
  | 0x0C, 1 => orAppend o
  | 0x0C, 2 => orMove none (List.replicate (o.f 41 0 8 * pageBytes (o.block (o.f 32 0 64))) 0) o
  | 0x0C, 3 => orRelease o
  | 0x0C, 4 => orFlush o
  | 0x0D, 1 => rlCopy o
  | 0x0D, 2 => rlFill o
  | 0x0E, 1 => drStage [] o
  | 0x0E, 2 => drGemm [] [] o
  | 0x0E, 3 => drSpconv [] [] o
  | 0x0F, 1 => stDecode [] [] o
  | 0x0F, 2 => stRetrieve o
  | 0x12, 1 => fun s => (s.scatter 0x12 (badAt (local46 (o.f 48 0 64)) (if o.f 48 0 64 = 0 then 0 else 2 * o.f 56 0 16))).1
  | 0x17, 1 => fun s => (s.scatter 0x17 (badAt (local46 (o.f 32 0 64)) (o.f 52 0 32))).1
  | _, _ => id

/-- R134: every byte that a stopped command was due to write, in device memory and in its engine's Manger, is poisoned: those
that its effect writes from the state at the stop (DEDUCED, log entry 107). -/
def Side.dueBad (s : Side) (o : Op) : Side :=
  let after := s.acting o.unit o.inst none (fun x => o.effect { x with acts := { x.acts with spoil := true } })
  { s with mem := after.mem, mangers := after.mangers }

/-- RESULT of a command that the ceiling stopped: the instance that ran it, where the unit's chapter has it there (R140, R388,
R428, R474, R499), and RUNNING of a Traverse command (R539). -/
def Side.stopResult (s : Side) (o : Op) : Nat :=
  if o.unit = 0x0C ∨ o.unit = 0x0D ∨ o.unit = 0x0E ∨ o.unit = 0x0F then o.inst * 2 ^ 40
  else if o.unit = 0x0A ∧ s.tvRunning.isSome = true then 2 ^ 32
  else 0

/-- COMMAND_CEILING_STOP (R134): a command that runs 200 µs after its start, the stack pauses `held` that its accesses met
not counted (R441), is stopped; `mErrs` are the errors it met in its engine's Manger until then (R385). -/
def Side.ceilingStop (s : Side) (unit inst held : Nat) (mErrs : List (Nat × ErrKind)) : Side :=
  match s.occupant unit inst with
  | none => s
  | some o =>
      match o.run with
      | none => s
      | some (_, t) =>
          if held ≤ 10000 * s.part.stacks ∧ t + 200000 + held ≤ s.now ∧ (unit ≠ 0x12 ∨ o.resv ≠ 1) then
            let s := (if unit = 0x0E then s.mangerErrors inst mErrs else s).dueBad o
            let s : Side := if unit = 0x0B then { s with br := { s.br with run := none } } else s
            let s := if unit = 0x17 then s.qpError o.qp else s
            let s := (s.count Reg.CQ_CEILING 0 16).raise 0x02 unit inst (some (o.chain, o.queue)) o.worst
            s.complete o stTimeout (s.stopResult o)
          else s

/-- COMMAND_DEADLINE_MISSED (R157): the first command of a queue that has not started by its DEADLINE; the frame of a LAUNCH
leaves the store (R195). -/
def Side.deadlineMissed (s : Side) (q : Nat) : Side :=
  match s.ops.find? (fun o => o.queue == q && o.run.isNone && past s.now (o.f 24 0 64)) with
  | none => s
  | some o =>
      let s := if o.unit = 0x04 ∧ o.opcode = 1 then s.lgDropOf o else s
      s.complete o stDeadline

end Sys2Proof.Machine
end

