-- ==== Sys2Proof/Machine/Lift.lean ====
section
/-!
DEFINITION. Machine/Lift.lean: how the effect of a command on a side becomes an effect on the module: the side it names, the
phases in which it happens, and the messages that cross the link (R31 to R33, R40 to R45).
-/
namespace Sys2Proof.Machine

/-- The side a command names. -/
def State.side (s : State) (sd : SideId) : Side :=
  match sd with
  | .near => s.near
  | .off => s.off

/-- The side a command names, replaced. -/
def State.setSide (s : State) (sd : SideId) (x : Side) : State :=
  match sd with
  | .near => { s with near := x }
  | .off => { s with off := x }

/-- Whether the units of a side work: not while it is off, held in reset or in recovery (R688, R750, R752). -/
def Side.live (s : Side) : Bool := s.phase == .boot || s.phase == .nofw || s.phase == .up

/-- A side after an effect: what holds continuously is settled, it is still the same side of the same part (R1, R23), and no agent's
effect is under way. -/
def Side.after (x : Side) (f : Side → Side) : Side := { (f x).settle with id := x.id, part := x.part, acts := Agent.hub }

/-- An effect on a live side; on another it does not happen. -/
def State.onLive (s : State) (sd : SideId) (f : Side → Side) : State :=
  if (s.side sd).live then s.setSide sd ((s.side sd).after f) else s

/-- An effect on a side in any phase: pins, power, and what its own meaning restricts. -/
def State.onAny (s : State) (sd : SideId) (f : Side → Side) : State := s.setSide sd ((s.side sd).after f)

/-- The effect of a command on the side it names. -/
def onSide (sd : SideId) (f : Side → Side) (s : State) : Host.Outcome State Fault Refusal := .next (s.onLive sd f)

/-- The side as a Groom meets it (R33). -/
def Side.asGroom (s : Side) (g : Nat) : Side := s.agent 0x10 g none

/-- The effect of a Groom's instruction on its side (R33). -/
def byGroom (sd : SideId) (g : Nat) (f : Side → Side) (s : State) : Host.Outcome State Fault Refusal :=
  onSide sd (fun x => x.acting 0x10 g none f) s

/-- The effect of a command that a side may meet in any phase. -/
def onPins (sd : SideId) (f : Side → Side) (s : State) : Host.Outcome State Fault Refusal := .next (s.onAny sd f)

/-- The messages still on the way to a side are lost with its reset. -/
def State.dropInbound (s : State) (sd : SideId) : State :=
  if (s.side sd).live then s else s.setSide sd.other { s.side sd.other with xout := [] }

/-- A command that may put a side into reset. -/
def onReset (sd : SideId) (f : Side → Side) (s : State) : Host.Outcome State Fault Refusal :=
  .next ((s.onAny sd f).dropInbound sd)

/-- The next message of a class to arrive: the first that the other side has sent, where none of a higher class that was accepted
before it is still on its way, as the link serves its classes in strict priority (R41). -/
def firstOf (cls : Nat) : List XMsg → Option (XMsg × List XMsg)
  | [] => none
  | m :: r =>
      if m.cls = cls then some (m, r)
      else if m.cls < cls then none
      else match firstOf cls r with
        | some (x, l) => some (x, m :: l)
        | none => none

/-- A message of a class arrives: the next of its class (R40, R41). A side that is not live receives nothing. -/
def State.receive (s : State) (sd : SideId) (cls : Nat) (f : XMsg → Side → Side) : State :=
  if (s.side sd).live then
    match firstOf cls (s.side sd.other).xout with
    | none => s
    | some (m, rest) => (s.setSide sd.other { s.side sd.other with xout := rest }).onLive sd (f m)
  else s

/-- The effect of a command that is the arrival of a message. -/
def onMessage (sd : SideId) (cls : Nat) (f : XMsg → Side → Side) (s : State) : Host.Outcome State Fault Refusal :=
  .next (s.receive sd cls f)

/-- R33: a link is declared down: its counts on the receiving side, its bit and event 0x08 at both ends of the cross link;
`begun` and `begunBack` are the messages of either direction that had begun, by index, with the bytes received. -/
def State.linkDown (s : State) (sd : SideId) (n : Nat) (begun begunBack : List (Nat × Nat)) : State :=
  if (s.side sd).live ∧ (s.side sd).part.hasLink n ∧ (s.side sd).flag Reg.BN_STATE n then
    let s := s.onLive sd (fun x => (x.linkCounts n).linkEndDown n)
    if n = 3 then
      let s := s.onLive sd.other (fun x => x.linkEndDown 3)
      (s.onAny sd (fun x => x.cutMessages begunBack)).onAny sd.other (fun x => x.cutMessages begun)
    else s
  else s

/-- R35: a link has trained; the cross link trains at both ends. -/
def State.linkUp (s : State) (sd : SideId) (n : Nat) : State :=
  if (s.side sd).live ∧ (s.side sd).part.hasLink n then
    if n = 3 then
      if (s.side sd.other).live then (s.onLive sd (fun x => x.linkEndUp 3)).onLive sd.other (fun x => x.linkEndUp 3) else s
    else s.onLive sd (fun x => x.linkEndUp n)
  else s

/-- One cycle of a side's own 100 MHz reference (R36, R38): Datum time, the credits of R712, the monitors of R666. -/
def Side.cycle (s : Side) : Side := ((s.refCycle).creditStep 10).pmStep

/-- A reference cycle on a side that has power and is out of reset. -/
def State.cycle (s : State) (sd : SideId) : State :=
  if (s.side sd).phase = .off ∨ (s.side sd).phase = .held then s else s.onAny sd Side.cycle

/-- Time passes (DESIGN CHOICE, log entry 10): a reference cycle of one side or of both; the sides' references are unrelated
(R36), so which is a free choice. -/
def State.idle (s : State) : State :=
  let (k, x) := s.near.draw
  let s := s.setSide .near x
  match Config.freeNat k % 3 with
  | 0 => s.cycle .near
  | 1 => s.cycle .off
  | _ => (s.cycle .near).cycle .off

/-- A register write at a privilege level (R12, R18, R19); at level 0 there is none (R61). -/
def wreg (level k : Nat) (v : Word) (s : Side) : Side := if level = 0 then s else (s.busWrite level k v).2

end Sys2Proof.Machine
end

