-- ==== Sys2Proof/Machine/RowsCloud.lean ====
section
/-!
DEFINITION. Machine/RowsCloud.lean: the commands of the Pillar and the Plat (R290 to R366), one meaning each.
-/
namespace Sys2Proof.Machine

/-- PL_OPEN: PL_OPEN (R293 to R295). -/
def execPlOpen (sd : SideId) (env : Env) (s : State) : Host.Outcome State Fault Refusal :=
  onSide sd (fun x => x.onRunning 0x08 0 1 env plOpen) s

/-- PL_INGEST: PL_INGEST (R297 to R314). -/
def execPlIngest (sd : SideId) (env : Env) (tabErrs : List Nat) (s : State) : Host.Outcome State Fault Refusal :=
  onSide sd (fun x => x.onRunning 0x08 0 2 env (plIngest tabErrs)) s

/-- PL_CLOSE: PL_CLOSE (R296, R317). -/
def execPlClose (sd : SideId) (env : Env) (s : State) : Host.Outcome State Fault Refusal :=
  onSide sd (fun x => x.onRunning 0x08 0 3 env plClose) s

/-- PL_SORT: PL_SORT (R319, R320). -/
def execPlSort (sd : SideId) (env : Env) (s : State) : Host.Outcome State Fault Refusal :=
  onSide sd (fun x => x.onRunning 0x08 0 4 env plSort) s

/-- PL_MERGE: PL_MERGE (R321, R322). -/
def execPlMerge (sd : SideId) (env : Env) (s : State) : Host.Outcome State Fault Refusal :=
  onSide sd (fun x => x.onRunning 0x08 0 5 env plMerge) s

/-- PL_PILLAR: PL_PILLAR (R323 to R325). -/
def execPlPillar (sd : SideId) (env : Env) (s : State) : Host.Outcome State Fault Refusal :=
  onSide sd (fun x => x.onRunning 0x08 0 6 env plPillar) s

/-- PL_RULES: PL_RULES (R326 to R329). -/
def execPlRules (sd : SideId) (env : Env) (s : State) : Host.Outcome State Fault Refusal :=
  onSide sd (fun x => x.onRunning 0x08 0 7 env plRules) s

/-- PILLAR_ENABLE: a write of PL_CTRL (R292, R333). -/
def execPillarEnable (sd : SideId) (level : Nat) (v : Word) (s : State) : Host.Outcome State Fault Refusal :=
  onSide sd (wreg level Reg.PL_CTRL v) s

/-- PT_PAINT: PT_PAINT (R338 to R341). -/
def execPtPaint (sd : SideId) (env : Env) (s : State) : Host.Outcome State Fault Refusal :=
  onSide sd (fun x => x.onRunning 0x09 0 1 env ptPaint) s

/-- PT_BLANK: PT_BLANK (R344). -/
def execPtBlank (sd : SideId) (env : Env) (s : State) : Host.Outcome State Fault Refusal :=
  onSide sd (fun x => x.onRunning 0x09 0 2 env ptBlank) s

/-- PT_SEAL: PT_SEAL (R345 to R348). -/
def execPtSeal (sd : SideId) (env : Env) (s : State) : Host.Outcome State Fault Refusal :=
  onSide sd (fun x => x.onRunning 0x09 0 3 env ptSeal) s

/-- HALF_GRID_RECEIVE: a peer half grid arrives (R43, R351). -/
def execHalfGridReceive (sd : SideId) (got : Nat) (s : State) (errs : List LineErr := []) : Host.Outcome State Fault Refusal :=
  onMessage sd 3 (fun m => Side.meeting errs (fun x => x.halfReceive m got)) s

/-- TRACK_LIST_RECEIVE: a peer track list arrives (R43, R351). -/
def execTrackListReceive (sd : SideId) (got : Nat) (s : State) (errs : List LineErr := []) : Host.Outcome State Fault Refusal :=
  onMessage sd 4 (fun m => Side.meeting errs (fun x => x.tracksReceive m got)) s

/-- PLAT_MERGE: the Plat merges the next frame (R350 to R357, R361, R362, R569). -/
def execPlatMerge (sd : SideId) (took : Nat) (s : State) (errs : List LineErr := []) : Host.Outcome State Fault Refusal :=
  onSide sd (Side.meeting errs (fun x => (x.platMerge took).tvRevoked)) s

/-- PLAT_PUBLISH: a merged record is published (R358, R577). -/
def execPlatPublish (sd : SideId) (s : State) (errs : List LineErr := []) : Host.Outcome State Fault Refusal :=
  onSide sd (Side.meeting errs (fun x => x.platPublish.stopDue (x.rd Reg.PT_EPOCH).toNat)) s

/-- PLAT_ENABLE: a write of PT_CTRL (R366). -/
def execPlatEnable (sd : SideId) (level : Nat) (v : Word) (s : State) : Host.Outcome State Fault Refusal :=
  onSide sd (wreg level Reg.PT_CTRL v) s

end Sys2Proof.Machine
end

