-- ==== Sys2Proof/Machine/RowsCore.lean ====
section
/-!
DEFINITION. Machine/RowsCore.lean: the commands of register accesses, Groom instructions and events (R12 to R20, R55 to R118), one meaning each.
-/
namespace Sys2Proof.Machine

/-- REGISTER_WRITE: a write of any register by an agent of a privilege level; 2 is the host (R12, R18, R19). -/
def execRegisterWrite (sd : SideId) (level : Nat) (key : Nat) (v : Word)
    (s : State) : Host.Outcome State Fault Refusal :=
  onSide sd (wreg level key v) s

/-- REGISTER_READ_CLEAR: a read clears the RC fields of a register (R19); its value goes to the reader. -/
def execRegisterReadClear (sd : SideId) (key : Nat) (s : State) : Host.Outcome State Fault Refusal :=
  onSide sd (fun x => (x.busRead key).2) s

/-- ADD: Groom instruction ADD (R68). -/
def execAdd (sd : SideId) (g : Nat) (env : Env) (s : State) : Host.Outcome State Fault Refusal :=
  byGroom sd g (aluRow .add g env) s

/-- SUB: Groom instruction SUB (R68). -/
def execSub (sd : SideId) (g : Nat) (env : Env) (s : State) : Host.Outcome State Fault Refusal :=
  byGroom sd g (aluRow .sub g env) s

/-- AND: Groom instruction AND (R68). -/
def execAnd (sd : SideId) (g : Nat) (env : Env) (s : State) : Host.Outcome State Fault Refusal :=
  byGroom sd g (aluRow .and g env) s

/-- OR: Groom instruction OR (R68). -/
def execOr (sd : SideId) (g : Nat) (env : Env) (s : State) : Host.Outcome State Fault Refusal :=
  byGroom sd g (aluRow .or g env) s

/-- XOR: Groom instruction XOR (R68). -/
def execXor (sd : SideId) (g : Nat) (env : Env) (s : State) : Host.Outcome State Fault Refusal :=
  byGroom sd g (aluRow .xor g env) s

/-- SLL: Groom instruction SLL (R68). -/
def execSll (sd : SideId) (g : Nat) (env : Env) (s : State) : Host.Outcome State Fault Refusal :=
  byGroom sd g (aluRow .sll g env) s

/-- SRL: Groom instruction SRL (R68). -/
def execSrl (sd : SideId) (g : Nat) (env : Env) (s : State) : Host.Outcome State Fault Refusal :=
  byGroom sd g (aluRow .srl g env) s

/-- SRA: Groom instruction SRA (R68). -/
def execSra (sd : SideId) (g : Nat) (env : Env) (s : State) : Host.Outcome State Fault Refusal :=
  byGroom sd g (aluRow .sra g env) s

/-- SLT: Groom instruction SLT (R68). -/
def execSlt (sd : SideId) (g : Nat) (env : Env) (s : State) : Host.Outcome State Fault Refusal :=
  byGroom sd g (aluRow .slt g env) s

/-- SLTU: Groom instruction SLTU (R68). -/
def execSltu (sd : SideId) (g : Nat) (env : Env) (s : State) : Host.Outcome State Fault Refusal :=
  byGroom sd g (aluRow .sltu g env) s

/-- MUL: Groom instruction MUL (R68). -/
def execMul (sd : SideId) (g : Nat) (env : Env) (s : State) : Host.Outcome State Fault Refusal :=
  byGroom sd g (aluRow .mul g env) s

/-- MULH: Groom instruction MULH (R68). -/
def execMulh (sd : SideId) (g : Nat) (env : Env) (s : State) : Host.Outcome State Fault Refusal :=
  byGroom sd g (aluRow .mulh g env) s

/-- MULHU: Groom instruction MULHU (R68). -/
def execMulhu (sd : SideId) (g : Nat) (env : Env) (s : State) : Host.Outcome State Fault Refusal :=
  byGroom sd g (aluRow .mulhu g env) s

/-- DIV: Groom instruction DIV (R68). -/
def execDiv (sd : SideId) (g : Nat) (env : Env) (s : State) : Host.Outcome State Fault Refusal :=
  byGroom sd g (aluRow .div g env) s

/-- DIVU: Groom instruction DIVU (R68). -/
def execDivu (sd : SideId) (g : Nat) (env : Env) (s : State) : Host.Outcome State Fault Refusal :=
  byGroom sd g (aluRow .divu g env) s

/-- REM: Groom instruction REM (R68). -/
def execRem (sd : SideId) (g : Nat) (env : Env) (s : State) : Host.Outcome State Fault Refusal :=
  byGroom sd g (aluRow .rem g env) s

/-- REMU: Groom instruction REMU (R68). -/
def execRemu (sd : SideId) (g : Nat) (env : Env) (s : State) : Host.Outcome State Fault Refusal :=
  byGroom sd g (aluRow .remu g env) s

/-- AMOADD: Groom atomic AMOADD (R68 to R70). -/
def execAmoadd (sd : SideId) (g : Nat) (env : Env) (s : State) : Host.Outcome State Fault Refusal :=
  byGroom sd g (amoRow .add g env) s

/-- AMOSWP: Groom atomic AMOSWP (R68 to R70). -/
def execAmoswp (sd : SideId) (g : Nat) (env : Env) (s : State) : Host.Outcome State Fault Refusal :=
  byGroom sd g (amoRow .swap g env) s

/-- AMOCAS: Groom atomic AMOCAS (R68 to R70). -/
def execAmocas (sd : SideId) (g : Nat) (env : Env) (s : State) : Host.Outcome State Fault Refusal :=
  byGroom sd g (amoRow .cas g env) s

/-- ADDI: Groom instruction ADDI (R68). -/
def execAddi (sd : SideId) (g : Nat) (env : Env) (s : State) : Host.Outcome State Fault Refusal :=
  byGroom sd g (immRow .addi g env) s

/-- ANDI: Groom instruction ANDI (R68). -/
def execAndi (sd : SideId) (g : Nat) (env : Env) (s : State) : Host.Outcome State Fault Refusal :=
  byGroom sd g (immRow .andi g env) s

/-- ORI: Groom instruction ORI (R68). -/
def execOri (sd : SideId) (g : Nat) (env : Env) (s : State) : Host.Outcome State Fault Refusal :=
  byGroom sd g (immRow .ori g env) s

/-- XORI: Groom instruction XORI (R68). -/
def execXori (sd : SideId) (g : Nat) (env : Env) (s : State) : Host.Outcome State Fault Refusal :=
  byGroom sd g (immRow .xori g env) s

/-- SLTI: Groom instruction SLTI (R68). -/
def execSlti (sd : SideId) (g : Nat) (env : Env) (s : State) : Host.Outcome State Fault Refusal :=
  byGroom sd g (immRow .slti g env) s

/-- SLLI: Groom instruction SLLI (R68). -/
def execSlli (sd : SideId) (g : Nat) (env : Env) (s : State) : Host.Outcome State Fault Refusal :=
  byGroom sd g (immRow .slli g env) s

/-- SRLI: Groom instruction SRLI (R68). -/
def execSrli (sd : SideId) (g : Nat) (env : Env) (s : State) : Host.Outcome State Fault Refusal :=
  byGroom sd g (immRow .srli g env) s

/-- SRAI: Groom instruction SRAI (R68). -/
def execSrai (sd : SideId) (g : Nat) (env : Env) (s : State) : Host.Outcome State Fault Refusal :=
  byGroom sd g (immRow .srai g env) s

/-- LUI: Groom instruction LUI (R68). -/
def execLui (sd : SideId) (g : Nat) (env : Env) (s : State) : Host.Outcome State Fault Refusal :=
  byGroom sd g (luiRow g env) s

/-- LB: Groom load LB (R67, R69). -/
def execLb (sd : SideId) (g : Nat) (env : Env) (s : State) : Host.Outcome State Fault Refusal :=
  byGroom sd g (loadRow .lb g env) s

/-- LH: Groom load LH (R67, R69). -/
def execLh (sd : SideId) (g : Nat) (env : Env) (s : State) : Host.Outcome State Fault Refusal :=
  byGroom sd g (loadRow .lh g env) s

/-- LW: Groom load LW (R67, R69). -/
def execLw (sd : SideId) (g : Nat) (env : Env) (s : State) : Host.Outcome State Fault Refusal :=
  byGroom sd g (loadRow .lw g env) s

/-- LD: Groom load LD (R67, R69). -/
def execLd (sd : SideId) (g : Nat) (env : Env) (s : State) : Host.Outcome State Fault Refusal :=
  byGroom sd g (loadRow .ld g env) s

/-- LBU: Groom load LBU (R67, R69). -/
def execLbu (sd : SideId) (g : Nat) (env : Env) (s : State) : Host.Outcome State Fault Refusal :=
  byGroom sd g (loadRow .lbu g env) s

/-- LHU: Groom load LHU (R67, R69). -/
def execLhu (sd : SideId) (g : Nat) (env : Env) (s : State) : Host.Outcome State Fault Refusal :=
  byGroom sd g (loadRow .lhu g env) s

/-- LWU: Groom load LWU (R67, R69). -/
def execLwu (sd : SideId) (g : Nat) (env : Env) (s : State) : Host.Outcome State Fault Refusal :=
  byGroom sd g (loadRow .lwu g env) s

/-- SB: Groom store SB (R67, R69). -/
def execSb (sd : SideId) (g : Nat) (env : Env) (s : State) : Host.Outcome State Fault Refusal :=
  byGroom sd g (storeRow .sb g env) s

/-- SH: Groom store SH (R67, R69). -/
def execSh (sd : SideId) (g : Nat) (env : Env) (s : State) : Host.Outcome State Fault Refusal :=
  byGroom sd g (storeRow .sh g env) s

/-- SW: Groom store SW (R67, R69). -/
def execSw (sd : SideId) (g : Nat) (env : Env) (s : State) : Host.Outcome State Fault Refusal :=
  byGroom sd g (storeRow .sw g env) s

/-- SD: Groom store SD (R67, R69). -/
def execSd (sd : SideId) (g : Nat) (env : Env) (s : State) : Host.Outcome State Fault Refusal :=
  byGroom sd g (storeRow .sd g env) s

/-- BEQ: Groom branch BEQ (R68). -/
def execBeq (sd : SideId) (g : Nat) (env : Env) (s : State) : Host.Outcome State Fault Refusal :=
  byGroom sd g (brRow .beq g env) s

/-- BNE: Groom branch BNE (R68). -/
def execBne (sd : SideId) (g : Nat) (env : Env) (s : State) : Host.Outcome State Fault Refusal :=
  byGroom sd g (brRow .bne g env) s

/-- BLT: Groom branch BLT (R68). -/
def execBlt (sd : SideId) (g : Nat) (env : Env) (s : State) : Host.Outcome State Fault Refusal :=
  byGroom sd g (brRow .blt g env) s

/-- BGE: Groom branch BGE (R68). -/
def execBge (sd : SideId) (g : Nat) (env : Env) (s : State) : Host.Outcome State Fault Refusal :=
  byGroom sd g (brRow .bge g env) s

/-- BLTU: Groom branch BLTU (R68). -/
def execBltu (sd : SideId) (g : Nat) (env : Env) (s : State) : Host.Outcome State Fault Refusal :=
  byGroom sd g (brRow .bltu g env) s

/-- BGEU: Groom branch BGEU (R68). -/
def execBgeu (sd : SideId) (g : Nat) (env : Env) (s : State) : Host.Outcome State Fault Refusal :=
  byGroom sd g (brRow .bgeu g env) s

/-- JAL: Groom jump JAL (R68). -/
def execJal (sd : SideId) (g : Nat) (env : Env) (s : State) : Host.Outcome State Fault Refusal :=
  byGroom sd g (jalRow g env) s

/-- JALR: Groom jump JALR (R68). -/
def execJalr (sd : SideId) (g : Nat) (env : Env) (s : State) : Host.Outcome State Fault Refusal :=
  byGroom sd g (jalrRow g env) s

/-- VADD: vector instruction VADD (R71, R72). -/
def execVadd (sd : SideId) (g : Nat) (env : Env) (s : State) : Host.Outcome State Fault Refusal :=
  byGroom sd g (vecRow .add g env) s

/-- VSUB: vector instruction VSUB (R71, R72). -/
def execVsub (sd : SideId) (g : Nat) (env : Env) (s : State) : Host.Outcome State Fault Refusal :=
  byGroom sd g (vecRow .sub g env) s

/-- VMUL: vector instruction VMUL (R71, R72). -/
def execVmul (sd : SideId) (g : Nat) (env : Env) (s : State) : Host.Outcome State Fault Refusal :=
  byGroom sd g (vecRow .mul g env) s

/-- VFMA: vector instruction VFMA (R71, R72). -/
def execVfma (sd : SideId) (g : Nat) (env : Env) (s : State) : Host.Outcome State Fault Refusal :=
  byGroom sd g (vecRow .fma g env) s

/-- VMIN: vector instruction VMIN (R71, R72). -/
def execVmin (sd : SideId) (g : Nat) (env : Env) (s : State) : Host.Outcome State Fault Refusal :=
  byGroom sd g (vecRow .min g env) s

/-- VMAX: vector instruction VMAX (R71, R72). -/
def execVmax (sd : SideId) (g : Nat) (env : Env) (s : State) : Host.Outcome State Fault Refusal :=
  byGroom sd g (vecRow .max g env) s

/-- VAND: vector instruction VAND (R71, R72). -/
def execVand (sd : SideId) (g : Nat) (env : Env) (s : State) : Host.Outcome State Fault Refusal :=
  byGroom sd g (vecRow .and g env) s

/-- VOR: vector instruction VOR (R71, R72). -/
def execVor (sd : SideId) (g : Nat) (env : Env) (s : State) : Host.Outcome State Fault Refusal :=
  byGroom sd g (vecRow .or g env) s

/-- VXOR: vector instruction VXOR (R71, R72). -/
def execVxor (sd : SideId) (g : Nat) (env : Env) (s : State) : Host.Outcome State Fault Refusal :=
  byGroom sd g (vecRow .xor g env) s

/-- VSLL: vector instruction VSLL (R71, R72). -/
def execVsll (sd : SideId) (g : Nat) (env : Env) (s : State) : Host.Outcome State Fault Refusal :=
  byGroom sd g (vecRow .sll g env) s

/-- VSRA: vector instruction VSRA (R71, R72). -/
def execVsra (sd : SideId) (g : Nat) (env : Env) (s : State) : Host.Outcome State Fault Refusal :=
  byGroom sd g (vecRow .sra g env) s

/-- VBCAST: vector instruction VBCAST (R71, R72). -/
def execVbcast (sd : SideId) (g : Nat) (env : Env) (s : State) : Host.Outcome State Fault Refusal :=
  byGroom sd g (vecRow .bcast g env) s

/-- VSEL: vector instruction VSEL (R71, R72). -/
def execVsel (sd : SideId) (g : Nat) (env : Env) (s : State) : Host.Outcome State Fault Refusal :=
  byGroom sd g (vecRow .sel g env) s

/-- VPERM: vector instruction VPERM (R71, R72). -/
def execVperm (sd : SideId) (g : Nat) (env : Env) (s : State) : Host.Outcome State Fault Refusal :=
  byGroom sd g (vecRow .perm g env) s

/-- VREDSUM: vector instruction VREDSUM (R71, R72). -/
def execVredsum (sd : SideId) (g : Nat) (env : Env) (s : State) : Host.Outcome State Fault Refusal :=
  byGroom sd g (vecRow .redsum g env) s

/-- VCVT: vector instruction VCVT (R71, R72). -/
def execVcvt (sd : SideId) (g : Nat) (env : Env) (s : State) : Host.Outcome State Fault Refusal :=
  byGroom sd g (vecRow .cvt g env) s

/-- VLD: vector load VLD (R67, R69). -/
def execVld (sd : SideId) (g : Nat) (env : Env) (s : State) : Host.Outcome State Fault Refusal :=
  byGroom sd g (vldRow g env) s

/-- VST: vector store VST (R67, R69). -/
def execVst (sd : SideId) (g : Nat) (env : Env) (s : State) : Host.Outcome State Fault Refusal :=
  byGroom sd g (vstRow g env) s

/-- VCMPEQ: predicate instruction VCMPEQ (R73). -/
def execVcmpeq (sd : SideId) (g : Nat) (env : Env) (s : State) : Host.Outcome State Fault Refusal :=
  byGroom sd g (predRow .cmpeq g env) s

/-- VCMPLT: predicate instruction VCMPLT (R73). -/
def execVcmplt (sd : SideId) (g : Nat) (env : Env) (s : State) : Host.Outcome State Fault Refusal :=
  byGroom sd g (predRow .cmplt g env) s

/-- VCMPLTU: predicate instruction VCMPLTU (R73). -/
def execVcmpltu (sd : SideId) (g : Nat) (env : Env) (s : State) : Host.Outcome State Fault Refusal :=
  byGroom sd g (predRow .cmpltu g env) s

/-- PAND: predicate instruction PAND (R73). -/
def execPand (sd : SideId) (g : Nat) (env : Env) (s : State) : Host.Outcome State Fault Refusal :=
  byGroom sd g (predRow .and g env) s

/-- POR: predicate instruction POR (R73). -/
def execPor (sd : SideId) (g : Nat) (env : Env) (s : State) : Host.Outcome State Fault Refusal :=
  byGroom sd g (predRow .or g env) s

/-- PNOT: predicate instruction PNOT (R73). -/
def execPnot (sd : SideId) (g : Nat) (env : Env) (s : State) : Host.Outcome State Fault Refusal :=
  byGroom sd g (predRow .not g env) s

/-- CTLR: CTLR (R74, R75). -/
def execCtlr (sd : SideId) (g : Nat) (env : Env) (s : State) : Host.Outcome State Fault Refusal :=
  byGroom sd g (ctlrRow g env) s

/-- CTLW: CTLW (R74, R75). -/
def execCtlw (sd : SideId) (g : Nat) (env : Env) (s : State) : Host.Outcome State Fault Refusal :=
  byGroom sd g (ctlwRow g env) s

/-- CTL_ROLE_WRITE: a CTLW of ctl.role (R99 to R102). -/
def execCtlRoleWrite (sd : SideId) (g : Nat) (env : Env) (s : State) : Host.Outcome State Fault Refusal :=
  byGroom sd g (ctlRoleRow g env) s

/-- ENQ: ENQ (R77, R78). -/
def execEnq (sd : SideId) (g : Nat) (env : Env) (s : State) : Host.Outcome State Fault Refusal :=
  byGroom sd g (enqRow g env) s

/-- ENQM: ENQM (R77, R78). -/
def execEnqm (sd : SideId) (g : Nat) (env : Env) (s : State) : Host.Outcome State Fault Refusal :=
  byGroom sd g (enqmRow g env) s

/-- QSPACE: QSPACE (R77, R122). -/
def execQspace (sd : SideId) (g : Nat) (env : Env) (s : State) : Host.Outcome State Fault Refusal :=
  byGroom sd g (qspaceRow g env) s

/-- TSIG: TSIG (R80). -/
def execTsig (sd : SideId) (g : Nat) (env : Env) (s : State) : Host.Outcome State Fault Refusal :=
  byGroom sd g (tsigRow g env) s

/-- TWAIT: TWAIT (R80 to R83). -/
def execTwait (sd : SideId) (g : Nat) (env : Env) (s : State) : Host.Outcome State Fault Refusal :=
  byGroom sd g (twaitRow g env) s

/-- TWAIT_COMPLETE: a blocked TWAIT ends (R82). -/
def execTwaitComplete (sd : SideId) (g : Nat) (s : State) : Host.Outcome State Fault Refusal :=
  onSide sd (fun x => x.twaitEnd g) s

/-- TREAD: TREAD (R80). -/
def execTread (sd : SideId) (g : Nat) (env : Env) (s : State) : Host.Outcome State Fault Refusal :=
  byGroom sd g (treadRow g env) s

/-- MSEND: MSEND (R84, R105). -/
def execMsend (sd : SideId) (g : Nat) (env : Env) (s : State) : Host.Outcome State Fault Refusal :=
  byGroom sd g (msendRow g env) s

/-- MESSAGE_DELIVER: a message reaches its destination (R105, R106). -/
def execMessageDeliver (sd : SideId) (sender : Nat) (dest : Nat) (s : State) : Host.Outcome State Fault Refusal :=
  onSide sd (fun x => x.deliver sender dest) s

/-- MESSAGE_RETURN: a returned message reaches its sender (R107, R108). -/
def execMessageReturn (sd : SideId) (g : Nat) (s : State) : Host.Outcome State Fault Refusal :=
  onSide sd (fun x => x.giveBack g) s

/-- MRECV: MRECV (R84). -/
def execMrecv (sd : SideId) (g : Nat) (env : Env) (s : State) : Host.Outcome State Fault Refusal :=
  byGroom sd g (mrecvRow g env) s

/-- MERR: MERR (R84). -/
def execMerr (sd : SideId) (g : Nat) (env : Env) (s : State) : Host.Outcome State Fault Refusal :=
  byGroom sd g (merrRow g env) s

/-- MCOUNT: MCOUNT (R84). -/
def execMcount (sd : SideId) (g : Nat) (env : Env) (s : State) : Host.Outcome State Fault Refusal :=
  byGroom sd g (mcountRow g env) s

/-- RPOP: RPOP (R86 to R88). -/
def execRpop (sd : SideId) (g : Nat) (env : Env) (s : State) : Host.Outcome State Fault Refusal :=
  byGroom sd g (rpopRow g env) s

/-- RMARK: RMARK (R86). -/
def execRmark (sd : SideId) (g : Nat) (env : Env) (s : State) : Host.Outcome State Fault Refusal :=
  byGroom sd g (rmarkRow g env) s

/-- RREWIND: RREWIND (R86). -/
def execRrewind (sd : SideId) (g : Nat) (env : Env) (s : State) : Host.Outcome State Fault Refusal :=
  byGroom sd g (rrewindRow g env) s

/-- RRELEASE: RRELEASE (R86). -/
def execRrelease (sd : SideId) (g : Nat) (env : Env) (s : State) : Host.Outcome State Fault Refusal :=
  byGroom sd g (rreleaseRow g env) s

/-- RCOUNT: RCOUNT (R86). -/
def execRcount (sd : SideId) (g : Nat) (env : Env) (s : State) : Host.Outcome State Fault Refusal :=
  byGroom sd g (rcountRow g env) s

/-- DTIME: DTIME (R89, R171). -/
def execDtime (sd : SideId) (g : Nat) (env : Env) (s : State) : Host.Outcome State Fault Refusal :=
  byGroom sd g (dtimeRow g env) s

/-- PCRD: PCRD (R89). -/
def execPcrd (sd : SideId) (g : Nat) (env : Env) (s : State) : Host.Outcome State Fault Refusal :=
  byGroom sd g (pcrdRow g env) s

/-- ECALL: ECALL (R91, R92). -/
def execEcall (sd : SideId) (g : Nat) (env : Env) (s : State) : Host.Outcome State Fault Refusal :=
  byGroom sd g (sysRow .ecall g env) s

/-- ERET: ERET (R91, R95). -/
def execEret (sd : SideId) (g : Nat) (env : Env) (s : State) : Host.Outcome State Fault Refusal :=
  byGroom sd g (sysRow .eret g env) s

/-- FENCE: FENCE (R111). -/
def execFence (sd : SideId) (g : Nat) (env : Env) (s : State) : Host.Outcome State Fault Refusal :=
  byGroom sd g (sysRow .fence g env) s

/-- FENCE_I: FENCE_I (R116). -/
def execFenceI (sd : SideId) (g : Nat) (env : Env) (s : State) : Host.Outcome State Fault Refusal :=
  byGroom sd g (sysRow .fencei g env) s

/-- WFE: WFE (R91). -/
def execWfe (sd : SideId) (g : Nat) (env : Env) (s : State) : Host.Outcome State Fault Refusal :=
  byGroom sd g (sysRow .wfe g env) s

/-- WFE_WAKE: a Groom in WFE resumes (R91). -/
def execWfeWake (sd : SideId) (g : Nat) (s : State) : Host.Outcome State Fault Refusal :=
  onSide sd (fun x => x.wfeWake g) s

/-- EBREAK: EBREAK (R91, R92). -/
def execEbreak (sd : SideId) (g : Nat) (env : Env) (s : State) : Host.Outcome State Fault Refusal :=
  byGroom sd g (sysRow .ebreak g env) s

/-- INTERRUPT_ENTRY: an interrupt is taken (R97). -/
def execInterruptEntry (sd : SideId) (g : Nat) (src : Nat) (s : State) : Host.Outcome State Fault Refusal :=
  onSide sd (fun x => x.interrupt g src) s

/-- GR_CTRL_HALT: a write of GR_CTRL with HALT (R117, R118). -/
def execGrCtrlHalt (sd : SideId) (level : Nat) (g : Nat) (s : State) : Host.Outcome State Fault Refusal :=
  onSide sd (wreg level (Reg.GR_CTRL g) 1) s

/-- GR_CTRL_START: a write of GR_CTRL with START (R117). -/
def execGrCtrlStart (sd : SideId) (level : Nat) (g : Nat) (s : State) : Host.Outcome State Fault Refusal :=
  onSide sd (wreg level (Reg.GR_CTRL g) 2) s

end Sys2Proof.Machine
end

