-- ==== Sys2Proof/Machine/RowsHost.lean ====
section
/-!
DEFINITION. Machine/RowsHost.lean: the commands of the host protocol, RDMA from the host, reset and power pins (R686 to R688, R724 to R755), one meaning each.
-/
namespace Sys2Proof.Machine

/-- REG_READ: a REG_READ request (R733). -/
def execRegRead (sd : SideId) (d : Datagram) (s : State) : Host.Outcome State Fault Refusal :=
  onPins sd (hostRow 0x01 d 0 []) s

/-- REG_WRITE: a REG_WRITE request (R733). -/
def execRegWrite (sd : SideId) (d : Datagram) (s : State) : Host.Outcome State Fault Refusal :=
  onPins sd (hostRow 0x02 d 0 []) s

/-- MEM_READ: a MEM_READ request (R733). -/
def execMemRead (sd : SideId) (d : Datagram) (s : State) (errs : List LineErr := []) : Host.Outcome State Fault Refusal :=
  onPins sd (Side.meeting errs (hostRow 0x03 d 0 [])) s

/-- MEM_WRITE: a MEM_WRITE request (R733). -/
def execMemWrite (sd : SideId) (d : Datagram) (s : State) (errs : List LineErr := []) : Host.Outcome State Fault Refusal :=
  onPins sd (Side.meeting errs (hostRow 0x04 d 0 [])) s

/-- MR_OPEN: an MR_OPEN request (R733, R735). -/
def execMrOpen (sd : SideId) (d : Datagram) (s : State) : Host.Outcome State Fault Refusal :=
  onPins sd (hostRow 0x05 d 0 []) s

/-- MR_CLOSE: an MR_CLOSE request (R735). -/
def execMrClose (sd : SideId) (d : Datagram) (s : State) : Host.Outcome State Fault Refusal :=
  onPins sd (hostRow 0x06 d 0 []) s

/-- QP_SETUP: a QP_SETUP request (R734). -/
def execQpSetup (sd : SideId) (d : Datagram) (s : State) : Host.Outcome State Fault Refusal :=
  onPins sd (hostRow 0x07 d 0 []) s

/-- QP_RESET: a QP_RESET request (R734); `got` and `data` are what a command it ends had transferred. -/
def execQpReset (sd : SideId) (d : Datagram) (got : Nat) (data : List Byte)
    (s : State) : Host.Outcome State Fault Refusal :=
  onPins sd (hostRow 0x08 d got data) s

/-- SUBSCRIBE: a SUBSCRIBE request (R736). -/
def execSubscribe (sd : SideId) (d : Datagram) (s : State) : Host.Outcome State Fault Refusal :=
  onPins sd (hostRow 0x09 d 0 []) s

/-- UNSUBSCRIBE: an UNSUBSCRIBE request (R738). -/
def execUnsubscribe (sd : SideId) (d : Datagram) (s : State) : Host.Outcome State Fault Refusal :=
  onPins sd (hostRow 0x0A d 0 []) s

/-- DELIVER: the next record of a subscription is delivered (R736, R737). -/
def execDeliver (sd : SideId) (sub : Nat) (ok : Bool) (s : State) (errs : List LineErr := []) : Host.Outcome State Fault Refusal :=
  onSide sd (Side.meeting errs (fun x => x.deliver1 sub ok)) s

/-- FLASH_WRITE: a FLASH_WRITE request (R739). -/
def execFlashWrite (sd : SideId) (d : Datagram) (s : State) : Host.Outcome State Fault Refusal :=
  onPins sd (hostRow 0x0B d 0 []) s

/-- CERT_READ: a CERT_READ request (R732). -/
def execCertRead (sd : SideId) (d : Datagram) (s : State) : Host.Outcome State Fault Refusal :=
  onPins sd (hostRow 0x0C d 0 []) s

/-- CAK_SET: a CAK_SET request (R733). -/
def execCakSet (sd : SideId) (d : Datagram) (s : State) : Host.Outcome State Fault Refusal :=
  onPins sd (hostRow 0x0D d 0 []) s

/-- RECOVER_DONE: a RECOVER_DONE request (R740). -/
def execRecoverDone (sd : SideId) (d : Datagram) (s : State) : Host.Outcome State Fault Refusal :=
  onPins sd (hostRow 0x0E d 0 []) s

/-- RDMA_INBOUND_READ: an inbound RDMA READ (R735). -/
def execRdmaInboundRead (sd : SideId) (qp : Nat) (port : Nat) (rkey : Nat) (va : Nat) (len : Nat) (s : State) (sec : SecIn := .good) (errs : List LineErr := []) : Host.Outcome State Fault Refusal :=
  onSide sd (Side.meeting errs (fun x => x.rdmaHeard qp port va len sec (Side.rdmaReadIn qp rkey va len))) s

/-- RDMA_INBOUND_WRITE: an inbound RDMA WRITE (R735). -/
def execRdmaInboundWrite (sd : SideId) (qp : Nat) (port : Nat) (rkey : Nat) (va : Nat) (data : List Byte) (s : State) (sec : SecIn := .good) (errs : List LineErr := []) : Host.Outcome State Fault Refusal :=
  onSide sd (Side.meeting errs (fun x => x.rdmaHeard qp port va data.length sec (Side.rdmaWriteIn qp rkey va data))) s

/-- RDMA_ACK_TIMEOUT: an acknowledgement is late (R734). -/
def execRdmaAckTimeout (sd : SideId) (qp : Nat) (s : State) : Host.Outcome State Fault Refusal :=
  onSide sd (fun x => x.ackTimeout qp) s

/-- ICMPV6_RECEIVE: an ICMPv6 message arrives (R724). -/
def execIcmpv6Receive (sd : SideId) (port : Nat) (toGlobal : Bool) (sec : SecIn) (src : Nat) (msg : List Byte)
    (s : State) : Host.Outcome State Fault Refusal :=
  onSide sd (fun x => x.icmpReceive port toGlobal sec src msg) s

/-- SIDE_RESET_ASSERT: SIDE_RESET_N is held low for `lowNs` ns (R750); `cut` is the bank and sector of a FLASH_WRITE that it cuts
short, if there is one (R751). -/
def execSideResetAssert (sd : SideId) (lowNs : Nat) (s : State) (cut : Option (Nat × Nat) := none) : Host.Outcome State Fault Refusal :=
  onReset sd (fun x => x.resetAssert lowNs cut) s

/-- SIDE_RESET_RELEASE: the reset is released and the side boots (R685 to R688, R750). -/
def execSideResetRelease (sd : SideId) (images : List (Option BootImage)) (split : Nat)
    (s : State) : Host.Outcome State Fault Refusal :=
  onPins sd (fun x => x.resetRelease images split) s

/-- POWER_UP: VIN has been high enough for long enough (R752). -/
def execPowerUp (sd : SideId) (s : State) : Host.Outcome State Fault Refusal :=
  onReset sd (fun x => x.powerUp) s

/-- POWER_OFF: VIN has been too low for too long (R753). -/
def execPowerOff (sd : SideId) (s : State) (cut : Option (Nat × Nat) := none) : Host.Outcome State Fault Refusal :=
  onReset sd (fun x => x.powerDown cut) s

/-- RAIL_FAULT_RESET: a rail leaves regulation (R755). -/
def execRailFaultReset (sd : SideId) (s : State) (cut : Option (Nat × Nat) := none) : Host.Outcome State Fault Refusal :=
  onReset sd (fun x => x.railFault cut) s

/-- PHY_LINK_CHANGE: the PHY link of a port changes (R741). -/
def execPhyLinkChange (sd : SideId) (port : Nat) (up : Bool) (s : State) : Host.Outcome State Fault Refusal :=
  onPins sd (fun x => x.phyLink port up) s

/-- CAN_BUS_OFF_RECOVERY: a CAN FD controller leaves bus-off (R243). -/
def execCanBusOffRecovery (sd : SideId) (bus : Nat) (s : State) : Host.Outcome State Fault Refusal :=
  onSide sd (fun x => x.canRecover bus) s

/-- TAP_ACCESS: an edge of TCK, or TRST (R700). -/
def execTapAccess (sd : SideId) (tms : Bool) (tdi : Bool) (trst : Bool)
    (s : State) : Host.Outcome State Fault Refusal :=
  onPins sd (fun x => x.tapEdge tms tdi trst) s

/-- RAIL_RECOVERY: the rail recovers (R755). -/
def execRailRecovery (sd : SideId) (s : State) : Host.Outcome State Fault Refusal :=
  onPins sd (fun x => x.railRecover) s

/-- BEST_MASTER_CLOCK_ALGORITHM: a gPTP announce is evaluated (R185). -/
def execBestMasterClockAlgorithm (sd : SideId) (port : Nat) (vector : Nat) (s : State) (sec : SecIn := .good) : Host.Outcome State Fault Refusal :=
  onSide sd (fun x => x.gptpHeard port sec (fun x => x.announce port vector)) s

/-- ERROR_CHECK_AND_SCRUB: the error check and scrub of a stack reads a line (R447). -/
def execErrorCheckAndScrub (sd : SideId) (stack : Nat) (fixed : Bool) (s : State) : Host.Outcome State Fault Refusal :=
  onSide sd (fun x => x.ecsRead stack fixed) s

end Sys2Proof.Machine
end

