-- ==== Sys2Proof/Machine/RowsManage.lean ====
section
/-!
DEFINITION. Machine/RowsManage.lean: the commands of fleet diagnostics, performance monitors, the Keeper, power (R652 to R723), one meaning each.
-/
namespace Sys2Proof.Machine

/-- FS_RECORD_WRITE: a fault-signature record is signed and written (R652 to R657). -/
def execFsRecordWrite (sd : SideId) (die : Int) (stack : Int) (far : Int) (v48 : Nat) (core : Nat) (io : Nat) (s : State) (errs : List LineErr := []) : Host.Outcome State Fault Refusal :=
  onSide sd (Side.meeting errs (fun x => x.fsWrite die stack far v48 core io)) s

/-- TP_BASE_WRITE: a write of TP_BASE (R663, R664). -/
def execTpBaseWrite (sd : SideId) (level : Nat) (a : Nat) (v : Word) (s : State) : Host.Outcome State Fault Refusal :=
  onSide sd (wreg level (Reg.TP_BASE a) v) s

/-- PM_TAG_RECORD: a tag record is written (R670, R671). -/
def execPmTagRecord (sd : SideId) (m : Nat) (cycles : Nat) (s : State) (errs : List LineErr := []) : Host.Outcome State Fault Refusal :=
  onSide sd (Side.meeting errs (fun x => x.tagRecord m cycles)) s

/-- PM_DUMP_LATCH: the monitors are latched (R672). -/
def execPmDumpLatch (sd : SideId) (s : State) : Host.Outcome State Fault Refusal :=
  onSide sd (fun x => x.dumpLatch) s

/-- PM_DUMP_WRITE: a latched dump is written (R673). -/
def execPmDumpWrite (sd : SideId) (s : State) (errs : List LineErr := []) : Host.Outcome State Fault Refusal :=
  onSide sd (Side.meeting errs (fun x => x.dumpWrite)) s

/-- KP_VREQ: a write of KP_VREQ (R690, R691). -/
def execKpVreq (sd : SideId) (level : Nat) (v : Word) (s : State) : Host.Outcome State Fault Refusal :=
  onSide sd (wreg level Reg.KP_VREQ v) s

/-- KP_VERIFY_END: a verification ends (R682, R692, R693). -/
def execKpVerifyEnd (sd : SideId) (s : State) (errs : List LineErr := []) : Host.Outcome State Fault Refusal :=
  onSide sd (Side.meeting errs (fun x => x.kpVerifyEnd)) s

/-- KP_ROLL: a write of KP_ROLL (R694). -/
def execKpRoll (sd : SideId) (level : Nat) (v : Word) (s : State) : Host.Outcome State Fault Refusal :=
  onSide sd (wreg level Reg.KP_ROLL v) s

/-- KP_QREQ: a write of KP_QREQ (R695). -/
def execKpQreq (sd : SideId) (level : Nat) (v : Word) (s : State) : Host.Outcome State Fault Refusal :=
  onSide sd (wreg level Reg.KP_QREQ v) s

/-- KP_QUOTE_WRITE: the quote is written (R695). -/
def execKpQuoteWrite (sd : SideId) (s : State) (errs : List LineErr := []) : Host.Outcome State Fault Refusal :=
  onSide sd (Side.meeting errs (fun x => x.quoteWrite)) s

/-- KP_OWNER_CHECK: a write of KP_OWNER_7 (R680). -/
def execKpOwnerCheck (sd : SideId) (level : Nat) (v : Word) (s : State) : Host.Outcome State Fault Refusal :=
  onSide sd (wreg level (Reg.KP_OWNER 7) v) s

/-- KP_DEBUG_TOKEN: a write of KP_DTOK_14 (R701, R702). -/
def execKpDebugToken (sd : SideId) (level : Nat) (v : Word) (s : State) : Host.Outcome State Fault Refusal :=
  onSide sd (wreg level (Reg.KP_DTOK 14) v) s

/-- KP_HOBBLE: a write of KP_HOBBLE (R704). -/
def execKpHobble (sd : SideId) (level : Nat) (v : Word) (s : State) : Host.Outcome State Fault Refusal :=
  onSide sd (wreg level Reg.KP_HOBBLE v) s

/-- MKA_SAK_INSTALL: key agreement installs a SAK (R696, R698). -/
def execMkaSakInstall (sd : SideId) (port : Nat) (sak : Nat) (s : State) : Host.Outcome State Fault Refusal :=
  onSide sd (fun x => x.sakInstall port sak) s

/-- DEBUG_AGENT_DATAGRAM: a datagram reaches the debug agent (R700). -/
def execDebugAgentDatagram (sd : SideId) (d : Datagram) (s : State) : Host.Outcome State Fault Refusal :=
  onSide sd (debugDatagram d) s

/-- PW_REQ_WRITE: a write of PW_REQ (R713, R723). -/
def execPwReqWrite (sd : SideId) (level : Nat) (v : Word) (s : State) : Host.Outcome State Fault Refusal :=
  onSide sd (wreg level Reg.PW_REQ v) s

/-- THERMAL_SAMPLE: the temperatures are sampled (R716, R717). -/
def execThermalSample (sd : SideId) (dies : List Int) (stackTemps : List Int) (far : List Int) (inlet : Int)
    (s : State) : Host.Outcome State Fault Refusal :=
  onSide sd (fun x => x.thermalSample dies stackTemps far inlet) s

end Sys2Proof.Machine
end

