-- ==== Sys2Proof/Machine/RowsPlan.lean ====
section
/-!
DEFINITION. Machine/RowsPlan.lean: the commands of Traverse and the Bridle (R536 to R615), one meaning each.
-/
namespace Sys2Proof.Machine

/-- TV_OPEN: TV_OPEN (R541 to R548). -/
def execTvOpen (sd : SideId) (env : Env) (s : State) : Host.Outcome State Fault Refusal :=
  onSide sd (fun x => x.onRunning 0x0A 0 1 env tvOpen) s

/-- TV_MAP: TV_MAP (R549). -/
def execTvMap (sd : SideId) (env : Env) (s : State) : Host.Outcome State Fault Refusal :=
  onSide sd (fun x => x.onRunning 0x0A 0 2 env tvMapRows) s

/-- TV_GROW: TV_GROW (R562 to R568). -/
def execTvGrow (sd : SideId) (env : Env) (s : State) : Host.Outcome State Fault Refusal :=
  onSide sd (fun x => x.onRunning 0x0A 0 3 env tvGrow) s

/-- TV_SEARCH: TV_SEARCH (R550 to R561). -/
def execTvSearch (sd : SideId) (env : Env) (durs : List Nat) (more : Bool)
    (s : State) : Host.Outcome State Fault Refusal :=
  onSide sd (fun x => x.onRunning 0x0A 0 4 env (tvSearch durs more)) s

/-- TV_PACE: TV_PACE (R570 to R576). -/
def execTvPace (sd : SideId) (env : Env) (s : State) : Host.Outcome State Fault Refusal :=
  onSide sd (fun x => x.onRunning 0x0A 0 5 env tvPace) s

/-- TV_STOP_UPDATE: a minimal-risk stop is computed and published (R577 to R579). -/
def execTvStopUpdate (sd : SideId) (s : State) (errs : List LineErr := []) : Host.Outcome State Fault Refusal :=
  onSide sd (Side.meeting errs (fun x => x.stopUpdate)) s

/-- TRAVERSE_ENABLE: a write of TV_CTRL (R581). -/
def execTraverseEnable (sd : SideId) (level : Nat) (v : Word) (s : State) : Host.Outcome State Fault Refusal :=
  onSide sd (wreg level Reg.TV_CTRL v) s

/-- BR_BIND: BR_BIND (R588 to R593). -/
def execBrBind (sd : SideId) (env : Env) (s : State) : Host.Outcome State Fault Refusal :=
  onSide sd (fun x => x.onRunning 0x0B 0 1 env brBind) s

/-- BR_SOLVE: BR_SOLVE (R594 to R611). -/
def execBrSolve (sd : SideId) (env : Env) (setup : Nat) (pieces : List Nat)
    (s : State) : Host.Outcome State Fault Refusal :=
  onSide sd (fun x => x.onRunning 0x0B 0 2 env (brSolve setup pieces)) s

/-- BR_SOLVE_DEADLINE: the solve meets its deadline (R606). -/
def execBrSolveDeadline (sd : SideId) (s : State) (errs : List LineErr := []) : Host.Outcome State Fault Refusal :=
  onSide sd (Side.meeting errs (fun x => x.brDeadline)) s

/-- BR_SLOT_POISON: an uncorrectable error in the SRAM of a slot (R593). -/
def execBrSlotPoison (sd : SideId) (slot : Nat) (s : State) : Host.Outcome State Fault Refusal :=
  onSide sd (fun x => x.brPoison slot) s

/-- BRIDLE_ENABLE: a write of BR_CTRL (R614). -/
def execBridleEnable (sd : SideId) (level : Nat) (v : Word) (s : State) : Host.Outcome State Fault Refusal :=
  onSide sd (wreg level Reg.BR_CTRL v) s

end Sys2Proof.Machine
end

