-- ==== Sys2Proof/Machine/RowsQueue.lean ====
section
/-!
DEFINITION. Machine/RowsQueue.lean: the commands of command queues, tethers, and the start and end of commands (R119 to R166), one meaning each.
-/
namespace Sys2Proof.Machine

/-- CQ_TAIL_WRITE: a write of CQ_TAIL (R122, R166). -/
def execCqTailWrite (sd : SideId) (level : Nat) (q : Nat) (v : Word) (s : State) : Host.Outcome State Fault Refusal :=
  onSide sd (wreg level (Reg.CQ_TAIL q) v) s

/-- CQ_ENABLE: a write of CQ_CFG with ENABLE 1 (R163 to R165). -/
def execCqEnable (sd : SideId) (level : Nat) (q : Nat) (v : Word) (s : State) : Host.Outcome State Fault Refusal :=
  onSide sd (wreg level (Reg.CQ_CFG q) (v.put 3 1 1)) s

/-- CQ_DISABLE: a write of CQ_CFG with ENABLE 0 (R152, R164). -/
def execCqDisable (sd : SideId) (level : Nat) (q : Nat) (v : Word) (s : State) : Host.Outcome State Fault Refusal :=
  onSide sd (wreg level (Reg.CQ_CFG q) (v.put 3 1 0)) s

/-- CQ_BASE_WRITE: a write of CQ_RING, or of CQ_CPL (R165). -/
def execCqBaseWrite (sd : SideId) (level : Nat) (q : Nat) (cpl : Bool) (v : Word)
    (s : State) : Host.Outcome State Fault Refusal :=
  onSide sd (wreg level (if cpl then Reg.CQ_CPL q else Reg.CQ_RING q) v) s

/-- COMMAND_FETCH: a queue fetches and checks its next command (R123, R124, R135 to R146). -/
def execCommandFetch (sd : SideId) (q : Nat) (env : Env) (s : State) : Host.Outcome State Fault Refusal :=
  onSide sd (fun x => x.fetchCommand q env) s

/-- COMMAND_DISPATCH: a free instance starts a ready command (R130 to R132, R634, R638, R712). -/
def execCommandDispatch (sd : SideId) (unit : Nat) (inst : Nat) (s : State) (errs : List LineErr := []) : Host.Outcome State Fault Refusal :=
  onSide sd (Side.meeting errs (fun x => x.dispatch unit inst)) s

/-- COMMAND_CEILING_STOP: a command is stopped at the ceiling (R134, R441). -/
def execCommandCeilingStop (sd : SideId) (unit : Nat) (inst : Nat) (held : Nat) (errs : List LineErr) (mErrs : List (Nat × ErrKind))
    (s : State) : Host.Outcome State Fault Refusal :=
  onSide sd (Side.meeting errs (fun x => x.ceilingStop unit inst held mErrs)) s

/-- COMMAND_DEADLINE_MISSED: a command of a queue has not started by its DEADLINE (R157). -/
def execCommandDeadlineMissed (sd : SideId) (q : Nat) (s : State) : Host.Outcome State Fault Refusal :=
  onSide sd (fun x => x.deadlineMissed q) s

/-- TE_VALUE_WRITE: a write of TE_VALUE (R158). -/
def execTeValueWrite (sd : SideId) (level : Nat) (t : Nat) (v : Word) (s : State) : Host.Outcome State Fault Refusal :=
  onSide sd (wreg level (Reg.TE_VALUE t) v) s

/-- TE_ADD_WRITE: a write of TE_ADD (R154, R158). -/
def execTeAddWrite (sd : SideId) (level : Nat) (t : Nat) (v : Word) (s : State) : Host.Outcome State Fault Refusal :=
  onSide sd (wreg level (Reg.TE_ADD t) v) s

end Sys2Proof.Machine
end

