-- ==== Sys2Proof/Machine/RowsSafety.lean ====
section
/-!
DEFINITION. Machine/RowsSafety.lean: the commands of frame boundaries, Trot-ups, the two sides, the Steward (R616 to R651, R658 to R664, R706 to R715), one meaning each.
-/
namespace Sys2Proof.Machine

/-- FRAME_BOUNDARY: a frame boundary (R39, R638, R661, R714). -/
def execFrameBoundary (sd : SideId) (s : State) : Host.Outcome State Fault Refusal :=
  onSide sd (fun x => x.frameBoundary) s

/-- ENGINE_POWER_OFF: an instance powers off (R385, R714). -/
def execEnginePowerOff (sd : SideId) (unit : Nat) (inst : Nat) (s : State) : Host.Outcome State Fault Refusal :=
  onSide sd (fun x => x.enginePowerOff unit inst) s

/-- ENGINE_POWER_ON: an instance powers on (R640, R714). -/
def execEnginePowerOn (sd : SideId) (unit : Nat) (inst : Nat) (s : State) : Host.Outcome State Fault Refusal :=
  onSide sd (fun x => x.enginePowerOn unit inst) s

/-- GROOM_CLOCK_CHANGE: the Grooms change clock (R714). -/
def execGroomClockChange (sd : SideId) (s : State) : Host.Outcome State Fault Refusal :=
  onSide sd (fun x => x.groomClock) s

/-- TROT_PACK_FETCH: a unit fetches its next pattern (R662). -/
def execTrotPackFetch (sd : SideId) (unit : Nat) (inst : Nat) (s : State) (errs : List LineErr := []) : Host.Outcome State Fault Refusal :=
  onSide sd (Side.meeting errs (fun x => x.packFetch unit inst)) s

/-- TROT_UP_START: a Trot-up or a re-run starts (R636 to R639). -/
def execTrotUpStart (sd : SideId) (unit : Nat) (inst : Nat) (s : State) : Host.Outcome State Fault Refusal :=
  onSide sd (fun x => x.trotStart unit inst) s

/-- TROT_UP_RESULT: a Trot-up run ends (R636). -/
def execTrotUpResult (sd : SideId) (unit : Nat) (inst : Nat) (diff : Nat) (bad : List Nat)
    (s : State) : Host.Outcome State Fault Refusal :=
  onSide sd (fun x => x.trotResult unit inst diff bad) s

/-- TROT_UP_UNDECIDED: a Trot-up is undecided at the end of its frame (R640). -/
def execTrotUpUndecided (sd : SideId) (unit : Nat) (inst : Nat) (s : State) : Host.Outcome State Fault Refusal :=
  onSide sd (fun x => x.trotUndecided unit inst) s

/-- CONTROL_PERIOD_BOUNDARY: a control period begins (R187 to R189, R644, R647). -/
def execControlPeriodBoundary (sd : SideId) (s : State) : Host.Outcome State Fault Refusal :=
  onSide sd (fun x => x.controlPeriod) s

/-- TIME_COMPARE_RECEIVE: a class-1 message arrives (R187, R188). -/
def execTimeCompareReceive (sd : SideId) (poison : Bool) (s : State) : Host.Outcome State Fault Refusal :=
  onMessage sd 1 (fun m x => x.timeCompare m poison) s

/-- HEARTBEAT_SEND: a heartbeat is sent (R642). -/
def execHeartbeatSend (sd : SideId) (s : State) : Host.Outcome State Fault Refusal :=
  onSide sd (fun x => x.heartbeatSend) s

/-- HEARTBEAT_RECEIVE: a heartbeat arrives (R45, R643). -/
def execHeartbeatReceive (sd : SideId) (s : State) : Host.Outcome State Fault Refusal :=
  onMessage sd 0 (fun m x => x.heartbeat m) s

/-- PEER_LOST_TIMEOUT: no heartbeat for too long (R643). -/
def execPeerLostTimeout (sd : SideId) (s : State) : Host.Outcome State Fault Refusal :=
  onSide sd (fun x => x.peerLost) s

/-- PEER_EVENT_RECEIVE: a class-2 message arrives (R45, R628). -/
def execPeerEventReceive (sd : SideId) (s : State) : Host.Outcome State Fault Refusal :=
  onMessage sd 2 (fun m x => x.peerEvent m) s

/-- BARNASTAN_FLIT_RECEIVE: a flit arrives after so many failures (R33, R34). -/
def execBarnastanFlitReceive (sd : SideId) (n : Nat) (replays : Nat) (s : State) : Host.Outcome State Fault Refusal :=
  onSide sd (fun x => x.flitReceive n replays) s

/-- BARNASTAN_LINK_DOWN: a link is declared down (R33, R45). -/
def execBarnastanLinkDown (sd : SideId) (n : Nat) (begun : List (Nat × Nat)) (begunBack : List (Nat × Nat))
    (s : State) : Host.Outcome State Fault Refusal :=
  .next (s.linkDown sd n begun begunBack)

/-- BARNASTAN_LINK_UP: a link has trained (R35, R45). -/
def execBarnastanLinkUp (sd : SideId) (n : Nat) (s : State) : Host.Outcome State Fault Refusal :=
  .next (s.linkUp sd n)

/-- STEWARD_EVENT_HANDLE: the Steward handles its next event (R629, R630). -/
def execStewardEventHandle (sd : SideId) (s : State) (errs : List LineErr := []) : Host.Outcome State Fault Refusal :=
  onSide sd (Side.meeting errs (fun x => x.handleEvent)) s

/-- WITHDRAWAL_EFFECT: a decided withdrawal takes effect (R634). -/
def execWithdrawalEffect (sd : SideId) (unit : Nat) (inst : Nat) (s : State) : Host.Outcome State Fault Refusal :=
  onSide sd (fun x => (x.withdrawEffect unit inst).degradeReady unit) s

/-- MONITOR_TRIP: a monitor trips (R620). -/
def execMonitorTrip (sd : SideId) (code : Nat) (s : State) : Host.Outcome State Fault Refusal :=
  onSide sd (fun x => x.monitorTrip code) s

/-- STEWARD_SELF_CHECK_FAIL: the Steward fails its own check (R621). -/
def execStewardSelfCheckFail (sd : SideId) (watchdog : Bool) (s : State) : Host.Outcome State Fault Refusal :=
  onSide sd (fun x => x.selfCheckFail watchdog) s

/-- LEAD_MISS_CHECK: the control period that begins at `c` is judged (R646). -/
def execLeadMissCheck (sd : SideId) (c : Nat) (s : State) : Host.Outcome State Fault Refusal :=
  onSide sd (fun x => x.leadMiss c) s

/-- SW_ARM: a write of SW_CTRL.ARM (R623, R650). -/
def execSwArm (sd : SideId) (level : Nat) (s : State) : Host.Outcome State Fault Refusal :=
  onSide sd (wreg level Reg.SW_CTRL 1) s

/-- SW_SILENCE: a write of SW_CTRL.SILENCE (R625, R650). -/
def execSwSilence (sd : SideId) (level : Nat) (s : State) : Host.Outcome State Fault Refusal :=
  onSide sd (wreg level Reg.SW_CTRL 2) s

/-- SIDE_LEAVE_START: the side leaves START (R623, R647). -/
def execSideLeaveStart (sd : SideId) (s : State) : Host.Outcome State Fault Refusal :=
  onSide sd (fun x => x.leaveStart) s

/-- SW_VERDICT_WRITE: a write of SW_VERDICT (R632, R633). -/
def execSwVerdictWrite (sd : SideId) (level : Nat) (v : Word) (s : State) : Host.Outcome State Fault Refusal :=
  onSide sd (wreg level Reg.SW_VERDICT v) s

/-- SIDE_RESTART: the Steward restarts its side (R627, R689). -/
def execSideRestart (sd : SideId) (split : Nat) (s : State) : Host.Outcome State Fault Refusal :=
  onSide sd (fun x => x.restart split) s

end Sys2Proof.Machine
end

