-- ==== Sys2Proof/Machine/RowsSensor.lean ====
section
/-!
DEFINITION. Machine/RowsSensor.lean: the commands of sensor ingress, Transit and Gait (R208 to R289), one meaning each.
-/
namespace Sys2Proof.Machine

/-- CSI2_PACKET_RECEIVE: a CSI-2 packet arrives (R211, R225 to R233). -/
def execCsi2PacketReceive (sd : SideId) (rx : Nat) (vc : Nat) (dtype : Nat) (hdr : Nat) (crcOk : Bool) (data : List Byte) (s : State) (errs : List LineErr := []) : Host.Outcome State Fault Refusal :=
  onSide sd (Side.meeting errs (fun x => x.csiPacket rx vc dtype hdr crcOk data)) s

/-- ETH_FRAME_RECEIVE: an Ethernet frame arrives (R209, R219, R697). -/
def execEthFrameReceive (sd : SideId) (port : Nat) (bytes : List Byte) (fcsOk : Bool) (sec : SecIn) (jit : Int) (s : State) (errs : List LineErr := []) : Host.Outcome State Fault Refusal :=
  onSide sd (Side.meeting errs (fun x => x.ethReceive port bytes fcsOk sec jit)) s

/-- CAN_FRAME_RECEIVE: a CAN FD frame, or its error, is received (R212, R218). -/
def execCanFrameReceive (sd : SideId) (bus : Nat) (kind : Nat) (ident : Nat) (ide : Bool) (fdf : Bool) (brs : Bool) (esi : Bool) (dlc : Nat) (data : List Byte) (jit : Int) (s : State) (took : Nat := 0) (errs : List LineErr := []) : Host.Outcome State Fault Refusal :=
  onSide sd (Side.meeting errs (fun x => x.canReceive bus kind ident ide fdf brs esi dlc data jit took)) s

/-- SPI_DATA_READY: a data-ready edge (R220). -/
def execSpiDataReady (sd : SideId) (bus : Nat) (jit : Int) (s : State) : Host.Outcome State Fault Refusal :=
  onSide sd (fun x => x.spiReady bus jit) s

/-- SPI_TRANSFER_COMPLETE: an SPI transfer ends (R220). -/
def execSpiTransferComplete (sd : SideId) (bus : Nat) (data : List Byte) (s : State) (errs : List LineErr := []) : Host.Outcome State Fault Refusal :=
  onSide sd (Side.meeting errs (fun x => x.spiDone bus data)) s

/-- RACE_PACKET_READABLE: a whole packet becomes readable (R235, R250). -/
def execRacePacketReadable (sd : SideId) (slot : Nat) (s : State) : Host.Outcome State Fault Refusal :=
  onSide sd (fun x => x.packetReadable slot) s

/-- CAMERA_TRIGGER_PULSE: GPIO 0 rises (R223). -/
def execCameraTriggerPulse (sd : SideId) (rx : Nat) (s : State) : Host.Outcome State Fault Refusal :=
  onSide sd (fun x => x.triggerPulse rx) s

/-- CAMERA_TRIGGER_END: GPIO 0 falls (R223). -/
def execCameraTriggerEnd (sd : SideId) (rx : Nat) (s : State) : Host.Outcome State Fault Refusal :=
  onSide sd (fun x => x.triggerEnd rx) s

/-- INGRESS_STREAM_ENABLE: a write of IN_SCFG with ENABLE 1 (R213 to R216). -/
def execIngressStreamEnable (sd : SideId) (level : Nat) (slot : Nat) (v : Word)
    (s : State) : Host.Outcome State Fault Refusal :=
  onSide sd (wreg level (Reg.IN_SCFG slot) (v.put 0 1 1)) s

/-- INGRESS_STREAM_DISABLE: a write of IN_SCFG with ENABLE 0 (R217). -/
def execIngressStreamDisable (sd : SideId) (level : Nat) (slot : Nat) (v : Word)
    (s : State) : Host.Outcome State Fault Refusal :=
  onSide sd (wreg level (Reg.IN_SCFG slot) (v.put 0 1 0)) s

/-- LANDING_RELEASE_WRITE: a write of IN_LPTR.RELEASE (R234). -/
def execLandingReleaseWrite (sd : SideId) (level : Nat) (slot : Nat) (v : Word)
    (s : State) : Host.Outcome State Fault Refusal :=
  onSide sd (wreg level (Reg.IN_LPTR slot) v) s

/-- APHY_LINK_CHANGE: an A-PHY link trains or is lost (R208). -/
def execAphyLinkChange (sd : SideId) (rx : Nat) (lock : Bool) (gear : Nat)
    (s : State) : Host.Outcome State Fault Refusal :=
  onSide sd (fun x => x.aphyLink rx lock gear) s

/-- TR_POST: TR_POST (R251 to R254). -/
def execTrPost (sd : SideId) (env : Env) (s : State) : Host.Outcome State Fault Refusal :=
  onSide sd (fun x => x.onRunning 0x06 0 1 env trPost) s

/-- TRANSIT_CLOSE: a frame closes (R245 to R249, R262, R263). -/
def execTransitClose (sd : SideId) (s : State) (errs : List LineErr := []) : Host.Outcome State Fault Refusal :=
  onSide sd (Side.meeting errs (fun x => x.transitClose)) s

/-- TRANSIT_REVISION: a revision is written (R265 to R268). -/
def execTransitRevision (sd : SideId) (s : State) (errs : List LineErr := []) : Host.Outcome State Fault Refusal :=
  onSide sd (Side.meeting errs (fun x => x.transitRevision)) s

/-- TRANSIT_ENABLE: a write of TR_CTRL with ENABLE 1 (R249). -/
def execTransitEnable (sd : SideId) (level : Nat) (v : Word) (s : State) : Host.Outcome State Fault Refusal :=
  onSide sd (wreg level Reg.TR_CTRL (v.put 0 1 1)) s

/-- TRANSIT_STREAM_ENABLE: a write of TR_SCFG (R270, R288). -/
def execTransitStreamEnable (sd : SideId) (level : Nat) (slot : Nat) (v : Word)
    (s : State) : Host.Outcome State Fault Refusal :=
  onSide sd (wreg level (Reg.TR_SCFG slot) v) s

/-- GAIT_STEP: a Gait step (R276 to R281). -/
def execGaitStep (sd : SideId) (s : State) (errs : List LineErr := []) : Host.Outcome State Fault Refusal :=
  onSide sd (Side.meeting errs (fun x => x.gaitStep)) s

/-- GT_CORR: GT_CORR (R284, R285). -/
def execGtCorr (sd : SideId) (env : Env) (s : State) : Host.Outcome State Fault Refusal :=
  onSide sd (fun x => x.onRunning 0x07 0 1 env gtCorr) s

/-- GAIT_ENABLE: a write of GT_CTRL with ENABLE 1 (R280). -/
def execGaitEnable (sd : SideId) (level : Nat) (v : Word) (s : State) : Host.Outcome State Fault Refusal :=
  onSide sd (wreg level Reg.GT_CTRL (v.put 0 1 1)) s

end Sys2Proof.Machine
end

