-- ==== Sys2Proof/Machine/RowsTensor.lean ====
section
/-!
DEFINITION. Machine/RowsTensor.lean: the commands of Draft engines, Relays, memory, KV cache and attention (R367 to R535), one meaning each.
-/
namespace Sys2Proof.Machine

/-- DR_STAGE: DR_STAGE (R391, R392). -/
def execDrStage (sd : SideId) (inst : Nat) (env : Env) (mErrs : List (Nat × ErrKind))
    (s : State) : Host.Outcome State Fault Refusal :=
  onSide sd (fun x => x.onRunning 0x0E inst 1 env (drStage mErrs)) s

/-- DR_GEMM: DR_GEMM (R393 to R398, R402 to R407). -/
def execDrGemm (sd : SideId) (inst : Nat) (env : Env) (mErrs : List (Nat × ErrKind)) (faults : List (Nat × Nat × Nat × Nat × Bool))
    (s : State) : Host.Outcome State Fault Refusal :=
  onSide sd (fun x => x.onRunning 0x0E inst 2 env (drGemm mErrs faults)) s

/-- DR_SPCONV: DR_SPCONV (R399 to R401). -/
def execDrSpconv (sd : SideId) (inst : Nat) (env : Env) (mErrs : List (Nat × ErrKind)) (faults : List (Nat × Nat × Nat × Nat × Bool))
    (s : State) : Host.Outcome State Fault Refusal :=
  onSide sd (fun x => x.onRunning 0x0E inst 3 env (drSpconv mErrs faults)) s

/-- RL_COPY: RL_COPY (R423 to R425, R428). -/
def execRlCopy (sd : SideId) (inst : Nat) (env : Env) (s : State) : Host.Outcome State Fault Refusal :=
  onSide sd (fun x => x.onRunning 0x0D inst 1 env rlCopy) s

/-- RL_FILL: RL_FILL (R426, R428). -/
def execRlFill (sd : SideId) (inst : Nat) (env : Env) (s : State) : Host.Outcome State Fault Refusal :=
  onSide sd (fun x => x.onRunning 0x0D inst 2 env rlFill) s

/-- NT_MAP_WRITE: a write of NT_MAP (R435). -/
def execNtMapWrite (sd : SideId) (level : Nat) (v : Word) (s : State) : Host.Outcome State Fault Refusal :=
  onSide sd (wreg level Reg.NT_MAP v) s

/-- FT_SCRUB_READ: the far-tier scrub reads its next line (R448). -/
def execFtScrubRead (sd : SideId) (err : Option ErrKind) (s : State) : Host.Outcome State Fault Refusal :=
  onSide sd (fun x => x.ftScrubRead err) s

/-- STACK_RATE_CHANGE: a stack pauses, or goes on at its new pin rate (R441). -/
def execStackRateChange (sd : SideId) (stack : Nat) (s : State) : Host.Outcome State Fault Refusal :=
  onSide sd (fun x => x.stackRate stack) s

/-- RC_READ: RC_READ (R450 to R454). -/
def execRcRead (sd : SideId) (qp : Nat) (env : Env) (e : RdmaEnd) (data : List Byte)
    (s : State) : Host.Outcome State Fault Refusal :=
  onSide sd (fun x => x.onRunning 0x17 qp 1 env (rcRead e data)) s

/-- RC_WRITE: RC_WRITE (R450 to R454). -/
def execRcWrite (sd : SideId) (qp : Nat) (env : Env) (e : RdmaEnd) (got : Nat)
    (s : State) : Host.Outcome State Fault Refusal :=
  onSide sd (fun x => x.onRunning 0x17 qp 2 env (rcWrite e got)) s

/-- OR_APPEND: OR_APPEND (R475 to R484). -/
def execOrAppend (sd : SideId) (inst : Nat) (env : Env) (s : State) : Host.Outcome State Fault Refusal :=
  onSide sd (fun x => x.onRunning 0x0C inst 1 env orAppend) s

/-- OR_MOVE: OR_MOVE (R485 to R490). -/
def execOrMove (sd : SideId) (inst : Nat) (env : Env) (fail : Option (Nat × RdmaEnd × Nat)) (data : List Byte)
    (s : State) : Host.Outcome State Fault Refusal :=
  onSide sd (fun x => x.onRunning 0x0C inst 2 env (orMove fail data)) s

/-- OR_RELEASE: OR_RELEASE (R491). -/
def execOrRelease (sd : SideId) (inst : Nat) (env : Env) (s : State) : Host.Outcome State Fault Refusal :=
  onSide sd (fun x => x.onRunning 0x0C inst 3 env orRelease) s

/-- OR_FLUSH: OR_FLUSH (R492). -/
def execOrFlush (sd : SideId) (inst : Nat) (env : Env) (s : State) : Host.Outcome State Fault Refusal :=
  onSide sd (fun x => x.onRunning 0x0C inst 4 env orFlush) s

/-- OR_NPUSH: a write of OR_NPUSH (R468, R469). -/
def execOrNpush (sd : SideId) (level : Nat) (inst : Nat) (cls : Nat) (v : Word)
    (s : State) : Host.Outcome State Fault Refusal :=
  onSide sd (wreg level (Reg.OR_NPUSH inst cls) v) s

/-- OR_FPUSH: a write of OR_FPUSH (R468, R469). -/
def execOrFpush (sd : SideId) (level : Nat) (inst : Nat) (cls : Nat) (v : Word)
    (s : State) : Host.Outcome State Fault Refusal :=
  onSide sd (wreg level (Reg.OR_FPUSH inst cls) v) s

/-- OUTRIDER_ENABLE: a write of OR_CTRL (R494). -/
def execOutriderEnable (sd : SideId) (level : Nat) (inst : Nat) (v : Word)
    (s : State) : Host.Outcome State Fault Refusal :=
  onSide sd (wreg level (Reg.OR_CTRL inst) v) s

/-- ST_DECODE: ST_DECODE (R499 to R512). -/
def execStDecode (sd : SideId) (inst : Nat) (env : Env) (faults : List (Nat × Bool × Nat × Nat)) (sram : List (Nat × Bool))
    (s : State) : Host.Outcome State Fault Refusal :=
  onSide sd (fun x => x.onRunning 0x0F inst 1 env (stDecode faults sram)) s

/-- ST_RETRIEVE: ST_RETRIEVE (R513 to R518). -/
def execStRetrieve (sd : SideId) (inst : Nat) (env : Env) (s : State) : Host.Outcome State Fault Refusal :=
  onSide sd (fun x => x.onRunning 0x0F inst 2 env stRetrieve) s

/-- CQ_RAGGED: CQ_RAGGED (R526 to R530). -/
def execCqRagged (sd : SideId) (env : Env) (s : State) : Host.Outcome State Fault Refusal :=
  onSide sd (fun x => x.onRunning 0x12 64 1 env cqRagged) s

end Sys2Proof.Machine
end

