-- ==== Sys2Proof/Machine/RowsTime.lean ====
section
/-!
DEFINITION. Machine/RowsTime.lean: the commands of Datum time and the Launch gate (R167 to R207), one meaning each.
-/
namespace Sys2Proof.Machine

/-- DT_NOW_READ: a read of DT_NOW latches the fraction (R190). -/
def execDtNowRead (sd : SideId) (s : State) : Host.Outcome State Fault Refusal :=
  onSide sd (fun x => (x.busRead Reg.DT_NOW).2) s

/-- GPTP_SYNC_RECEIVE: a Sync with its follow-up arrives (R179 to R183). -/
def execGptpSyncReceive (sd : SideId) (port : Nat) (valid : Bool) (jit : Int) (ref : Nat) (gm : Nat) (s : State) (sec : SecIn := .good) : Host.Outcome State Fault Refusal :=
  onSide sd (fun x => x.gptpHeard port sec (fun x => x.gptpSync port valid jit ref gm)) s

/-- PPS_EDGE: a rising edge of PPS (R179). -/
def execPpsEdge (sd : SideId) (jit : Int) (s : State) : Host.Outcome State Fault Refusal :=
  onSide sd (fun x => x.ppsEdge jit) s

/-- DT_REFERENCE_LOST: the reference is lost (R182). -/
def execDtReferenceLost (sd : SideId) (s : State) : Host.Outcome State Fault Refusal :=
  onSide sd (fun x => x.referenceLost) s

/-- DT_REARM: a write of DT_CTRL.REARM (R61, R178). -/
def execDtRearm (sd : SideId) (level : Nat) (s : State) : Host.Outcome State Fault Refusal :=
  onSide sd (fun x => if level = 0 then x else x.rearm level) s

/-- DT_SOURCE_CHANGE: a changed DT_CFG.SOURCE takes effect (R184). -/
def execDtSourceChange (sd : SideId) (s : State) : Host.Outcome State Fault Refusal :=
  onSide sd (fun x => x.datumSource) s

/-- GPTP_SYNC_SEND: a master port sends a Sync (R185). -/
def execGptpSyncSend (sd : SideId) (port : Nat) (s : State) : Host.Outcome State Fault Refusal :=
  onSide sd (fun x => x.gptpSend port) s

/-- GPTP_PDELAY_EXCHANGE: a peer delay message arrives (R185). -/
def execGptpPdelayExchange (sd : SideId) (port : Nat) (request : Bool) (t1 : Nat) (t2 : Nat) (t3 : Nat) (t4 : Nat) (s : State) (sec : SecIn := .good) : Host.Outcome State Fault Refusal :=
  onSide sd (fun x => x.gptpHeard port sec (fun x => x.gptpPdelay port request t1 t2 t3 t4)) s

/-- LAUNCH: a ready LAUNCH of a queue starts (R195). -/
def execLaunch (sd : SideId) (q : Nat) (s : State) : Host.Outcome State Fault Refusal :=
  onSide sd (fun x => x.launchStart q) s

/-- CANCEL: a ready CANCEL of a queue (R196). -/
def execCancel (sd : SideId) (q : Nat) (s : State) : Host.Outcome State Fault Refusal :=
  onSide sd (fun x => x.cancelStart q) s

/-- SHADOW_MAKE: a DUAL frame becomes a shadow at its T_L (R200, R202). -/
def execShadowMake (sd : SideId) (queue : Nat) (chain : Nat) (s : State) : Host.Outcome State Fault Refusal :=
  onSide sd (fun x => x.shadowMake queue chain) s

/-- LAUNCH_FRAME_BEGIN: a scheduled frame begins (R197 to R201). -/
def execLaunchFrameBegin (sd : SideId) (queue : Nat) (chain : Nat) (jit : Int) (canNs : Nat) (s : State) (lost : Bool := false) (errs : List LineErr := []) : Host.Outcome State Fault Refusal :=
  onSide sd (Side.meeting errs (fun x => x.frameBegin queue chain jit canNs lost)) s

/-- LAUNCH_FRAME_DROP_LATE: a frame that cannot begin by S + TOL is dropped (R197). -/
def execLaunchFrameDropLate (sd : SideId) (queue : Nat) (chain : Nat) (s : State) (errs : List LineErr := []) : Host.Outcome State Fault Refusal :=
  onSide sd (Side.meeting errs (fun x => x.frameDropLate queue chain)) s

/-- WATCH_FRAME_RECEIVE: a frame arrives on a watched port (R201, R202). -/
def execWatchFrameReceive (sd : SideId) (port : Nat) (bytes : List Byte) (good : Bool) (s : State) (errs : List LineErr := []) : Host.Outcome State Fault Refusal :=
  onSide sd (Side.meeting errs (fun x => x.watchReceive port bytes good)) s

/-- LG_DISABLE: a write of LG_CTRL with ENABLE 0 (R205). -/
def execLgDisable (sd : SideId) (level : Nat) (s : State) : Host.Outcome State Fault Refusal :=
  onSide sd (fun x => wreg level Reg.LG_CTRL 0 x) s

/-- LG_RPT_CFG_WRITE: a write of LG_RPT_CFG (R206, R207). -/
def execLgRptCfgWrite (sd : SideId) (level : Nat) (v : Word) (s : State) : Host.Outcome State Fault Refusal :=
  onSide sd (wreg level Reg.LG_RPT_CFG v) s

end Sys2Proof.Machine
end

