-- ==== Sys2Proof/Machine/Dispatch.lean ====
section
/-!
DEFINITION. Machine/Dispatch.lean: one arm per command, each a call of its meaning.
-/
namespace Sys2Proof.Machine

/-- The effect of a command on everything but the queue. -/
def exec (i : Instr) (s : State) : Host.Outcome State Fault Refusal :=
  match i with
  | .registerWrite sd level key v => Sys2Proof.Machine.execRegisterWrite sd level key v s
  | .registerReadClear sd key => Sys2Proof.Machine.execRegisterReadClear sd key s
  | .add sd g env => Sys2Proof.Machine.execAdd sd g env s
  | .sub sd g env => Sys2Proof.Machine.execSub sd g env s
  | .and sd g env => Sys2Proof.Machine.execAnd sd g env s
  | .or sd g env => Sys2Proof.Machine.execOr sd g env s
  | .xor sd g env => Sys2Proof.Machine.execXor sd g env s
  | .sll sd g env => Sys2Proof.Machine.execSll sd g env s
  | .srl sd g env => Sys2Proof.Machine.execSrl sd g env s
  | .sra sd g env => Sys2Proof.Machine.execSra sd g env s
  | .slt sd g env => Sys2Proof.Machine.execSlt sd g env s
  | .sltu sd g env => Sys2Proof.Machine.execSltu sd g env s
  | .mul sd g env => Sys2Proof.Machine.execMul sd g env s
  | .mulh sd g env => Sys2Proof.Machine.execMulh sd g env s
  | .mulhu sd g env => Sys2Proof.Machine.execMulhu sd g env s
  | .div sd g env => Sys2Proof.Machine.execDiv sd g env s
  | .divu sd g env => Sys2Proof.Machine.execDivu sd g env s
  | .rem sd g env => Sys2Proof.Machine.execRem sd g env s
  | .remu sd g env => Sys2Proof.Machine.execRemu sd g env s
  | .amoadd sd g env => Sys2Proof.Machine.execAmoadd sd g env s
  | .amoswp sd g env => Sys2Proof.Machine.execAmoswp sd g env s
  | .amocas sd g env => Sys2Proof.Machine.execAmocas sd g env s
  | .addi sd g env => Sys2Proof.Machine.execAddi sd g env s
  | .andi sd g env => Sys2Proof.Machine.execAndi sd g env s
  | .ori sd g env => Sys2Proof.Machine.execOri sd g env s
  | .xori sd g env => Sys2Proof.Machine.execXori sd g env s
  | .slti sd g env => Sys2Proof.Machine.execSlti sd g env s
  | .slli sd g env => Sys2Proof.Machine.execSlli sd g env s
  | .srli sd g env => Sys2Proof.Machine.execSrli sd g env s
  | .srai sd g env => Sys2Proof.Machine.execSrai sd g env s
  | .lui sd g env => Sys2Proof.Machine.execLui sd g env s
  | .lb sd g env => Sys2Proof.Machine.execLb sd g env s
  | .lh sd g env => Sys2Proof.Machine.execLh sd g env s
  | .lw sd g env => Sys2Proof.Machine.execLw sd g env s
  | .ld sd g env => Sys2Proof.Machine.execLd sd g env s
  | .lbu sd g env => Sys2Proof.Machine.execLbu sd g env s
  | .lhu sd g env => Sys2Proof.Machine.execLhu sd g env s
  | .lwu sd g env => Sys2Proof.Machine.execLwu sd g env s
  | .sb sd g env => Sys2Proof.Machine.execSb sd g env s
  | .sh sd g env => Sys2Proof.Machine.execSh sd g env s
  | .sw sd g env => Sys2Proof.Machine.execSw sd g env s
  | .sd sd g env => Sys2Proof.Machine.execSd sd g env s
  | .beq sd g env => Sys2Proof.Machine.execBeq sd g env s
  | .bne sd g env => Sys2Proof.Machine.execBne sd g env s
  | .blt sd g env => Sys2Proof.Machine.execBlt sd g env s
  | .bge sd g env => Sys2Proof.Machine.execBge sd g env s
  | .bltu sd g env => Sys2Proof.Machine.execBltu sd g env s
  | .bgeu sd g env => Sys2Proof.Machine.execBgeu sd g env s
  | .jal sd g env => Sys2Proof.Machine.execJal sd g env s
  | .jalr sd g env => Sys2Proof.Machine.execJalr sd g env s
  | .vadd sd g env => Sys2Proof.Machine.execVadd sd g env s
  | .vsub sd g env => Sys2Proof.Machine.execVsub sd g env s
  | .vmul sd g env => Sys2Proof.Machine.execVmul sd g env s
  | .vfma sd g env => Sys2Proof.Machine.execVfma sd g env s
  | .vmin sd g env => Sys2Proof.Machine.execVmin sd g env s
  | .vmax sd g env => Sys2Proof.Machine.execVmax sd g env s
  | .vand sd g env => Sys2Proof.Machine.execVand sd g env s
  | .vor sd g env => Sys2Proof.Machine.execVor sd g env s
  | .vxor sd g env => Sys2Proof.Machine.execVxor sd g env s
  | .vsll sd g env => Sys2Proof.Machine.execVsll sd g env s
  | .vsra sd g env => Sys2Proof.Machine.execVsra sd g env s
  | .vbcast sd g env => Sys2Proof.Machine.execVbcast sd g env s
  | .vsel sd g env => Sys2Proof.Machine.execVsel sd g env s
  | .vperm sd g env => Sys2Proof.Machine.execVperm sd g env s
  | .vredsum sd g env => Sys2Proof.Machine.execVredsum sd g env s
  | .vcvt sd g env => Sys2Proof.Machine.execVcvt sd g env s
  | .vld sd g env => Sys2Proof.Machine.execVld sd g env s
  | .vst sd g env => Sys2Proof.Machine.execVst sd g env s
  | .vcmpeq sd g env => Sys2Proof.Machine.execVcmpeq sd g env s
  | .vcmplt sd g env => Sys2Proof.Machine.execVcmplt sd g env s
  | .vcmpltu sd g env => Sys2Proof.Machine.execVcmpltu sd g env s
  | .pand sd g env => Sys2Proof.Machine.execPand sd g env s
  | .por sd g env => Sys2Proof.Machine.execPor sd g env s
  | .pnot sd g env => Sys2Proof.Machine.execPnot sd g env s
  | .ctlr sd g env => Sys2Proof.Machine.execCtlr sd g env s
  | .ctlw sd g env => Sys2Proof.Machine.execCtlw sd g env s
  | .ctlRoleWrite sd g env => Sys2Proof.Machine.execCtlRoleWrite sd g env s
  | .enq sd g env => Sys2Proof.Machine.execEnq sd g env s
  | .enqm sd g env => Sys2Proof.Machine.execEnqm sd g env s
  | .qspace sd g env => Sys2Proof.Machine.execQspace sd g env s
  | .tsig sd g env => Sys2Proof.Machine.execTsig sd g env s
  | .twait sd g env => Sys2Proof.Machine.execTwait sd g env s
  | .twaitComplete sd g => Sys2Proof.Machine.execTwaitComplete sd g s
  | .tread sd g env => Sys2Proof.Machine.execTread sd g env s
  | .msend sd g env => Sys2Proof.Machine.execMsend sd g env s
  | .messageDeliver sd sender dest => Sys2Proof.Machine.execMessageDeliver sd sender dest s
  | .messageReturn sd g => Sys2Proof.Machine.execMessageReturn sd g s
  | .mrecv sd g env => Sys2Proof.Machine.execMrecv sd g env s
  | .merr sd g env => Sys2Proof.Machine.execMerr sd g env s
  | .mcount sd g env => Sys2Proof.Machine.execMcount sd g env s
  | .rpop sd g env => Sys2Proof.Machine.execRpop sd g env s
  | .rmark sd g env => Sys2Proof.Machine.execRmark sd g env s
  | .rrewind sd g env => Sys2Proof.Machine.execRrewind sd g env s
  | .rrelease sd g env => Sys2Proof.Machine.execRrelease sd g env s
  | .rcount sd g env => Sys2Proof.Machine.execRcount sd g env s
  | .dtime sd g env => Sys2Proof.Machine.execDtime sd g env s
  | .pcrd sd g env => Sys2Proof.Machine.execPcrd sd g env s
  | .ecall sd g env => Sys2Proof.Machine.execEcall sd g env s
  | .eret sd g env => Sys2Proof.Machine.execEret sd g env s
  | .fence sd g env => Sys2Proof.Machine.execFence sd g env s
  | .fenceI sd g env => Sys2Proof.Machine.execFenceI sd g env s
  | .wfe sd g env => Sys2Proof.Machine.execWfe sd g env s
  | .wfeWake sd g => Sys2Proof.Machine.execWfeWake sd g s
  | .ebreak sd g env => Sys2Proof.Machine.execEbreak sd g env s
  | .interruptEntry sd g src => Sys2Proof.Machine.execInterruptEntry sd g src s
  | .grCtrlHalt sd level g => Sys2Proof.Machine.execGrCtrlHalt sd level g s
  | .grCtrlStart sd level g => Sys2Proof.Machine.execGrCtrlStart sd level g s
  | .cqTailWrite sd level q v => Sys2Proof.Machine.execCqTailWrite sd level q v s
  | .cqEnable sd level q v => Sys2Proof.Machine.execCqEnable sd level q v s
  | .cqDisable sd level q v => Sys2Proof.Machine.execCqDisable sd level q v s
  | .cqBaseWrite sd level q cpl v => Sys2Proof.Machine.execCqBaseWrite sd level q cpl v s
  | .commandFetch sd q env => Sys2Proof.Machine.execCommandFetch sd q env s
  | .commandDispatch sd unit inst errs => Sys2Proof.Machine.execCommandDispatch sd unit inst s errs
  | .commandCeilingStop sd unit inst held errs mErrs => Sys2Proof.Machine.execCommandCeilingStop sd unit inst held errs mErrs s
  | .commandDeadlineMissed sd q => Sys2Proof.Machine.execCommandDeadlineMissed sd q s
  | .teValueWrite sd level t v => Sys2Proof.Machine.execTeValueWrite sd level t v s
  | .teAddWrite sd level t v => Sys2Proof.Machine.execTeAddWrite sd level t v s
  | .dtNowRead sd => Sys2Proof.Machine.execDtNowRead sd s
  | .gptpSyncReceive sd port valid jit ref gm sec => Sys2Proof.Machine.execGptpSyncReceive sd port valid jit ref gm s sec
  | .ppsEdge sd jit => Sys2Proof.Machine.execPpsEdge sd jit s
  | .dtReferenceLost sd => Sys2Proof.Machine.execDtReferenceLost sd s
  | .dtRearm sd level => Sys2Proof.Machine.execDtRearm sd level s
  | .dtSourceChange sd => Sys2Proof.Machine.execDtSourceChange sd s
  | .gptpSyncSend sd port => Sys2Proof.Machine.execGptpSyncSend sd port s
  | .gptpPdelayExchange sd port request t1 t2 t3 t4 sec => Sys2Proof.Machine.execGptpPdelayExchange sd port request t1 t2 t3 t4 s sec
  | .launch sd q => Sys2Proof.Machine.execLaunch sd q s
  | .cancel sd q => Sys2Proof.Machine.execCancel sd q s
  | .shadowMake sd queue chain => Sys2Proof.Machine.execShadowMake sd queue chain s
  | .launchFrameBegin sd queue chain jit canNs lost errs => Sys2Proof.Machine.execLaunchFrameBegin sd queue chain jit canNs s lost errs
  | .launchFrameDropLate sd queue chain errs => Sys2Proof.Machine.execLaunchFrameDropLate sd queue chain s errs
  | .watchFrameReceive sd port bytes good errs => Sys2Proof.Machine.execWatchFrameReceive sd port bytes good s errs
  | .lgDisable sd level => Sys2Proof.Machine.execLgDisable sd level s
  | .lgRptCfgWrite sd level v => Sys2Proof.Machine.execLgRptCfgWrite sd level v s
  | .csi2PacketReceive sd rx vc dtype hdr crcOk data errs => Sys2Proof.Machine.execCsi2PacketReceive sd rx vc dtype hdr crcOk data s errs
  | .ethFrameReceive sd port bytes fcsOk sec jit errs => Sys2Proof.Machine.execEthFrameReceive sd port bytes fcsOk sec jit s errs
  | .canFrameReceive sd bus kind ident ide fdf brs esi dlc data jit took errs => Sys2Proof.Machine.execCanFrameReceive sd bus kind ident ide fdf brs esi dlc data jit s took errs
  | .spiDataReady sd bus jit => Sys2Proof.Machine.execSpiDataReady sd bus jit s
  | .spiTransferComplete sd bus data errs => Sys2Proof.Machine.execSpiTransferComplete sd bus data s errs
  | .racePacketReadable sd slot => Sys2Proof.Machine.execRacePacketReadable sd slot s
  | .cameraTriggerPulse sd rx => Sys2Proof.Machine.execCameraTriggerPulse sd rx s
  | .cameraTriggerEnd sd rx => Sys2Proof.Machine.execCameraTriggerEnd sd rx s
  | .ingressStreamEnable sd level slot v => Sys2Proof.Machine.execIngressStreamEnable sd level slot v s
  | .ingressStreamDisable sd level slot v => Sys2Proof.Machine.execIngressStreamDisable sd level slot v s
  | .landingReleaseWrite sd level slot v => Sys2Proof.Machine.execLandingReleaseWrite sd level slot v s
  | .aphyLinkChange sd rx lock gear => Sys2Proof.Machine.execAphyLinkChange sd rx lock gear s
  | .trPost sd env => Sys2Proof.Machine.execTrPost sd env s
  | .transitClose sd errs => Sys2Proof.Machine.execTransitClose sd s errs
  | .transitRevision sd errs => Sys2Proof.Machine.execTransitRevision sd s errs
  | .transitEnable sd level v => Sys2Proof.Machine.execTransitEnable sd level v s
  | .transitStreamEnable sd level slot v => Sys2Proof.Machine.execTransitStreamEnable sd level slot v s
  | .gaitStep sd errs => Sys2Proof.Machine.execGaitStep sd s errs
  | .gtCorr sd env => Sys2Proof.Machine.execGtCorr sd env s
  | .gaitEnable sd level v => Sys2Proof.Machine.execGaitEnable sd level v s
  | .plOpen sd env => Sys2Proof.Machine.execPlOpen sd env s
  | .plIngest sd env tabErrs => Sys2Proof.Machine.execPlIngest sd env tabErrs s
  | .plClose sd env => Sys2Proof.Machine.execPlClose sd env s
  | .plSort sd env => Sys2Proof.Machine.execPlSort sd env s
  | .plMerge sd env => Sys2Proof.Machine.execPlMerge sd env s
  | .plPillar sd env => Sys2Proof.Machine.execPlPillar sd env s
  | .plRules sd env => Sys2Proof.Machine.execPlRules sd env s
  | .pillarEnable sd level v => Sys2Proof.Machine.execPillarEnable sd level v s
  | .ptPaint sd env => Sys2Proof.Machine.execPtPaint sd env s
  | .ptBlank sd env => Sys2Proof.Machine.execPtBlank sd env s
  | .ptSeal sd env => Sys2Proof.Machine.execPtSeal sd env s
  | .halfGridReceive sd got errs => Sys2Proof.Machine.execHalfGridReceive sd got s errs
  | .trackListReceive sd got errs => Sys2Proof.Machine.execTrackListReceive sd got s errs
  | .platMerge sd took errs => Sys2Proof.Machine.execPlatMerge sd took s errs
  | .platPublish sd errs => Sys2Proof.Machine.execPlatPublish sd s errs
  | .platEnable sd level v => Sys2Proof.Machine.execPlatEnable sd level v s
  | .drStage sd inst env mErrs => Sys2Proof.Machine.execDrStage sd inst env mErrs s
  | .drGemm sd inst env mErrs faults => Sys2Proof.Machine.execDrGemm sd inst env mErrs faults s
  | .drSpconv sd inst env mErrs faults => Sys2Proof.Machine.execDrSpconv sd inst env mErrs faults s
  | .rlCopy sd inst env => Sys2Proof.Machine.execRlCopy sd inst env s
  | .rlFill sd inst env => Sys2Proof.Machine.execRlFill sd inst env s
  | .ntMapWrite sd level v => Sys2Proof.Machine.execNtMapWrite sd level v s
  | .ftScrubRead sd err => Sys2Proof.Machine.execFtScrubRead sd err s
  | .stackRateChange sd stack => Sys2Proof.Machine.execStackRateChange sd stack s
  | .rcRead sd qp env e data => Sys2Proof.Machine.execRcRead sd qp env e data s
  | .rcWrite sd qp env e got => Sys2Proof.Machine.execRcWrite sd qp env e got s
  | .orAppend sd inst env => Sys2Proof.Machine.execOrAppend sd inst env s
  | .orMove sd inst env fail data => Sys2Proof.Machine.execOrMove sd inst env fail data s
  | .orRelease sd inst env => Sys2Proof.Machine.execOrRelease sd inst env s
  | .orFlush sd inst env => Sys2Proof.Machine.execOrFlush sd inst env s
  | .orNpush sd level inst cls v => Sys2Proof.Machine.execOrNpush sd level inst cls v s
  | .orFpush sd level inst cls v => Sys2Proof.Machine.execOrFpush sd level inst cls v s
  | .outriderEnable sd level inst v => Sys2Proof.Machine.execOutriderEnable sd level inst v s
  | .stDecode sd inst env faults sram => Sys2Proof.Machine.execStDecode sd inst env faults sram s
  | .stRetrieve sd inst env => Sys2Proof.Machine.execStRetrieve sd inst env s
  | .cqRagged sd env => Sys2Proof.Machine.execCqRagged sd env s
  | .tvOpen sd env => Sys2Proof.Machine.execTvOpen sd env s
  | .tvMap sd env => Sys2Proof.Machine.execTvMap sd env s
  | .tvGrow sd env => Sys2Proof.Machine.execTvGrow sd env s
  | .tvSearch sd env durs more => Sys2Proof.Machine.execTvSearch sd env durs more s
  | .tvPace sd env => Sys2Proof.Machine.execTvPace sd env s
  | .tvStopUpdate sd errs => Sys2Proof.Machine.execTvStopUpdate sd s errs
  | .traverseEnable sd level v => Sys2Proof.Machine.execTraverseEnable sd level v s
  | .brBind sd env => Sys2Proof.Machine.execBrBind sd env s
  | .brSolve sd env setup pieces => Sys2Proof.Machine.execBrSolve sd env setup pieces s
  | .brSolveDeadline sd errs => Sys2Proof.Machine.execBrSolveDeadline sd s errs
  | .brSlotPoison sd slot => Sys2Proof.Machine.execBrSlotPoison sd slot s
  | .bridleEnable sd level v => Sys2Proof.Machine.execBridleEnable sd level v s
  | .frameBoundary sd => Sys2Proof.Machine.execFrameBoundary sd s
  | .enginePowerOff sd unit inst => Sys2Proof.Machine.execEnginePowerOff sd unit inst s
  | .enginePowerOn sd unit inst => Sys2Proof.Machine.execEnginePowerOn sd unit inst s
  | .groomClockChange sd => Sys2Proof.Machine.execGroomClockChange sd s
  | .trotPackFetch sd unit inst errs => Sys2Proof.Machine.execTrotPackFetch sd unit inst s errs
  | .trotUpStart sd unit inst => Sys2Proof.Machine.execTrotUpStart sd unit inst s
  | .trotUpResult sd unit inst diff bad => Sys2Proof.Machine.execTrotUpResult sd unit inst diff bad s
  | .trotUpUndecided sd unit inst => Sys2Proof.Machine.execTrotUpUndecided sd unit inst s
  | .controlPeriodBoundary sd => Sys2Proof.Machine.execControlPeriodBoundary sd s
  | .timeCompareReceive sd poison => Sys2Proof.Machine.execTimeCompareReceive sd poison s
  | .heartbeatSend sd => Sys2Proof.Machine.execHeartbeatSend sd s
  | .heartbeatReceive sd => Sys2Proof.Machine.execHeartbeatReceive sd s
  | .peerLostTimeout sd => Sys2Proof.Machine.execPeerLostTimeout sd s
  | .peerEventReceive sd => Sys2Proof.Machine.execPeerEventReceive sd s
  | .barnastanFlitReceive sd n replays => Sys2Proof.Machine.execBarnastanFlitReceive sd n replays s
  | .barnastanLinkDown sd n begun begunBack => Sys2Proof.Machine.execBarnastanLinkDown sd n begun begunBack s
  | .barnastanLinkUp sd n => Sys2Proof.Machine.execBarnastanLinkUp sd n s
  | .stewardEventHandle sd errs => Sys2Proof.Machine.execStewardEventHandle sd s errs
  | .withdrawalEffect sd unit inst => Sys2Proof.Machine.execWithdrawalEffect sd unit inst s
  | .monitorTrip sd code => Sys2Proof.Machine.execMonitorTrip sd code s
  | .stewardSelfCheckFail sd watchdog => Sys2Proof.Machine.execStewardSelfCheckFail sd watchdog s
  | .leadMissCheck sd c => Sys2Proof.Machine.execLeadMissCheck sd c s
  | .swArm sd level => Sys2Proof.Machine.execSwArm sd level s
  | .swSilence sd level => Sys2Proof.Machine.execSwSilence sd level s
  | .sideLeaveStart sd => Sys2Proof.Machine.execSideLeaveStart sd s
  | .swVerdictWrite sd level v => Sys2Proof.Machine.execSwVerdictWrite sd level v s
  | .sideRestart sd split => Sys2Proof.Machine.execSideRestart sd split s
  | .fsRecordWrite sd die stack far v48 core io errs => Sys2Proof.Machine.execFsRecordWrite sd die stack far v48 core io s errs
  | .tpBaseWrite sd level a v => Sys2Proof.Machine.execTpBaseWrite sd level a v s
  | .pmTagRecord sd m cycles errs => Sys2Proof.Machine.execPmTagRecord sd m cycles s errs
  | .pmDumpLatch sd => Sys2Proof.Machine.execPmDumpLatch sd s
  | .pmDumpWrite sd errs => Sys2Proof.Machine.execPmDumpWrite sd s errs
  | .kpVreq sd level v => Sys2Proof.Machine.execKpVreq sd level v s
  | .kpVerifyEnd sd errs => Sys2Proof.Machine.execKpVerifyEnd sd s errs
  | .kpRoll sd level v => Sys2Proof.Machine.execKpRoll sd level v s
  | .kpQreq sd level v => Sys2Proof.Machine.execKpQreq sd level v s
  | .kpQuoteWrite sd errs => Sys2Proof.Machine.execKpQuoteWrite sd s errs
  | .kpOwnerCheck sd level v => Sys2Proof.Machine.execKpOwnerCheck sd level v s
  | .kpDebugToken sd level v => Sys2Proof.Machine.execKpDebugToken sd level v s
  | .kpHobble sd level v => Sys2Proof.Machine.execKpHobble sd level v s
  | .mkaSakInstall sd port sak => Sys2Proof.Machine.execMkaSakInstall sd port sak s
  | .debugAgentDatagram sd d => Sys2Proof.Machine.execDebugAgentDatagram sd d s
  | .pwReqWrite sd level v => Sys2Proof.Machine.execPwReqWrite sd level v s
  | .thermalSample sd dies stackTemps far inlet => Sys2Proof.Machine.execThermalSample sd dies stackTemps far inlet s
  | .regRead sd d => Sys2Proof.Machine.execRegRead sd d s
  | .regWrite sd d => Sys2Proof.Machine.execRegWrite sd d s
  | .memRead sd d errs => Sys2Proof.Machine.execMemRead sd d s errs
  | .memWrite sd d errs => Sys2Proof.Machine.execMemWrite sd d s errs
  | .mrOpen sd d => Sys2Proof.Machine.execMrOpen sd d s
  | .mrClose sd d => Sys2Proof.Machine.execMrClose sd d s
  | .qpSetup sd d => Sys2Proof.Machine.execQpSetup sd d s
  | .qpReset sd d got data => Sys2Proof.Machine.execQpReset sd d got data s
  | .subscribe sd d => Sys2Proof.Machine.execSubscribe sd d s
  | .unsubscribe sd d => Sys2Proof.Machine.execUnsubscribe sd d s
  | .deliver sd sub ok errs => Sys2Proof.Machine.execDeliver sd sub ok s errs
  | .flashWrite sd d => Sys2Proof.Machine.execFlashWrite sd d s
  | .certRead sd d => Sys2Proof.Machine.execCertRead sd d s
  | .cakSet sd d => Sys2Proof.Machine.execCakSet sd d s
  | .recoverDone sd d => Sys2Proof.Machine.execRecoverDone sd d s
  | .rdmaInboundRead sd qp port rkey va len sec errs => Sys2Proof.Machine.execRdmaInboundRead sd qp port rkey va len s sec errs
  | .rdmaInboundWrite sd qp port rkey va data sec errs => Sys2Proof.Machine.execRdmaInboundWrite sd qp port rkey va data s sec errs
  | .rdmaAckTimeout sd qp => Sys2Proof.Machine.execRdmaAckTimeout sd qp s
  | .icmpv6Receive sd port toGlobal sec src msg => Sys2Proof.Machine.execIcmpv6Receive sd port toGlobal sec src msg s
  | .sideResetAssert sd lowNs cut => Sys2Proof.Machine.execSideResetAssert sd lowNs s cut
  | .sideResetRelease sd images split => Sys2Proof.Machine.execSideResetRelease sd images split s
  | .powerUp sd => Sys2Proof.Machine.execPowerUp sd s
  | .powerOff sd cut => Sys2Proof.Machine.execPowerOff sd s cut
  | .railFaultReset sd cut => Sys2Proof.Machine.execRailFaultReset sd s cut
  | .phyLinkChange sd port up => Sys2Proof.Machine.execPhyLinkChange sd port up s
  | .canBusOffRecovery sd bus => Sys2Proof.Machine.execCanBusOffRecovery sd bus s
  | .tapAccess sd tms tdi trst => Sys2Proof.Machine.execTapAccess sd tms tdi trst s
  | .railRecovery sd => Sys2Proof.Machine.execRailRecovery sd s
  | .bestMasterClockAlgorithm sd port vector sec => Sys2Proof.Machine.execBestMasterClockAlgorithm sd port vector s sec
  | .errorCheckAndScrub sd stack fixed => Sys2Proof.Machine.execErrorCheckAndScrub sd stack fixed s

end Sys2Proof.Machine
end

