-- ==== Sys2Proof/Safety.lean ====
section
/-!
DEFINITION. Safety.lean: what claims are made of: a sound state, what a command leaves as it was, and
how a command of one side ends.
-/
namespace Sys2Proof.Machine

/-- The two sides are side 0 and side 1 of one part (R1, R23), and no agent's effect is under way (the model's own field `acts`, R33). -/
def State.sound (s : State) : Bool :=
  s.near.id == 0 && s.off.id == 1 && s.near.part == s.off.part && s.near.acts == Agent.hub && s.off.acts == Agent.hub

/-- A side works and no agent's effect is under way, as between commands. -/
def Side.atRest (x : Side) : Prop := x.live = true ∧ x.acts = Agent.hub

/-- A command in flight without what is latched while it waits (R130, R156). -/
def Op.plain (o : Op) : Op := { o with waitMet := false, readyAt := none }

/-- A Groom without the latch of its blocked TWAIT (R82). -/
def Groom.plain (r : Groom) : Groom :=
  match r.wait with
  | .twait rd t v d _ => { r with wait := .twait rd t v d false }
  | _ => r

/-- Position, velocity and rate are vectors of three, attitude one of four (R276). -/
def Gait.shaped (g : Gait) : Prop := g.p.length = 3 ∧ g.v.length = 3 ∧ g.q.length = 4 ∧ g.w.length = 3

/-- The pieces a side is made of, its registers apart. -/
inductive Piece where
  | phase | cells | poison | guards | grooms | returns | ops | rr | datum | lg | ing | tr | gt | pl | pt | tv | br | mangers
  | outriders | scrub | xout | egress | events | unver | sw | kp | pm | power | host | fresh
  deriving DecidableEq, Repr

/-- A piece is as it was; what only latches while commands and Grooms wait is left aside. -/
def Side.keeps (x y : Side) (p : Piece) : Prop :=
  match p with
  | .phase => y.phase = x.phase
  | .cells => y.mem.cells = x.mem.cells
  | .poison => y.mem.bad = x.mem.bad
  | .guards => y.guards = x.guards
  | .grooms => y.grooms.map Groom.plain = x.grooms.map Groom.plain
  | .returns => y.returns = x.returns
  | .ops => y.ops.map Op.plain = x.ops.map Op.plain
  | .rr => y.rr = x.rr
  | .datum => y.datum = x.datum
  | .lg => y.lg = x.lg
  | .ing => y.ing = x.ing
  | .tr => y.tr = x.tr
  | .gt => y.gt = x.gt
  | .pl => y.pl = x.pl
  | .pt => y.pt = x.pt
  | .tv => y.tv = x.tv
  | .br => y.br = x.br
  | .mangers => y.mangers = x.mangers
  | .outriders => y.outriders = x.outriders
  | .scrub => y.scrubLine = x.scrubLine
  | .xout => y.xout = x.xout
  | .egress => y.egress = x.egress
  | .events => y.events = x.events
  | .unver => y.unver = x.unver
  | .sw => y.sw = x.sw
  | .kp => y.kp = x.kp
  | .pm => y.pm = x.pm
  | .power => y.power = x.power
  | .host => y.host = x.host
  | .fresh => y.fresh = x.fresh

/-- Every piece but those listed, and every register but those described, is as it was. -/
def Side.keptBut (x y : Side) (pieces : List Piece) (regs : Nat → Prop) : Prop :=
  y.id = x.id ∧ y.part = x.part ∧ (∀ p, p ∉ pieces → x.keeps y p) ∧ ∀ k, ¬ regs k → y.rd k = x.rd k

/-- The command `i` answers a next state: nothing but side `sd` has changed, and that side has become as `P` says of it
before and after. -/
def State.does (s : State) (i : Instr) (sd : SideId) (P : Side → Side → Prop) : Prop :=
  ∃ t, exec i s = .next t ∧ t.pending = s.pending ∧ t.side sd.other = s.side sd.other ∧ P (s.side sd) (t.side sd)

/-- A write of `v` at a privilege level to the register with key `k` is performed: the side works, the level is above 0, the unit and the
offset exist on it, the unit is not the capability block, and `v` sets no reserved bit (R6, R12, R18, R61). -/
def Side.takes (x : Side) (level k : Nat) (v : Word) : Prop :=
  x.live = true ∧ 1 ≤ level ∧ x.writable k = true ∧
    ∃ r, specOf k = some r ∧ v.toNat &&& (2 ^ 64 - 1 - r.known) = 0

/-- The rows that are a write of a register by a writer at a level, with key `k`, instance `i` and value `v` where they take them. -/
def writers (sd : SideId) (level k i : Nat) (v : Word) : List Instr :=
  [.registerWrite sd level k v, .grCtrlHalt sd level i, .grCtrlStart sd level i, .cqTailWrite sd level i v, .cqEnable sd level i v,
   .cqDisable sd level i v, .cqBaseWrite sd level i true v, .cqBaseWrite sd level i false v, .teValueWrite sd level k v,
   .teAddWrite sd level k v, .dtRearm sd level, .lgDisable sd level, .lgRptCfgWrite sd level v, .ingressStreamEnable sd level i v,
   .ingressStreamDisable sd level i v, .landingReleaseWrite sd level i v, .transitEnable sd level v, .transitStreamEnable sd level i v,
   .gaitEnable sd level v, .pillarEnable sd level v, .platEnable sd level v, .ntMapWrite sd level v, .orNpush sd level i k v,
   .orFpush sd level i k v, .outriderEnable sd level i v, .traverseEnable sd level v, .bridleEnable sd level v, .swArm sd level,
   .swSilence sd level, .swVerdictWrite sd level v, .tpBaseWrite sd level i v, .kpVreq sd level v, .kpRoll sd level v,
   .kpQreq sd level v, .kpOwnerCheck sd level v, .kpDebugToken sd level v, .kpHobble sd level v, .pwReqWrite sd level v]

/-- Nothing of a side changes but one register. -/
def Side.onlyReg (x y : Side) (k : Nat) (v : Word) : Prop := y.rd k = v ∧ x.keptBut y [] (fun j => j = k)

/-- Nothing of a side changes. -/
def Side.unchanged (x y : Side) : Prop := x.keptBut y [] (fun _ => False)

/-- Groom `g` of a side runs, is not blocked, and fetches the word `w`, which spells the Valzel instruction `i` (R58, R92,
R97), and the stack that its access needs is not paused (R441). -/
def Side.fetches (x : Side) (g : Nat) (env : Env) (w : Nat) (i : GInstr) : Prop :=
  let z := (x.asGroom g).lineErrors none env.errs false
  x.live = true ∧ g < x.part.grooms ∧ g < x.grooms.length ∧ (x.groom g).runs = true ∧ (x.groom g).wait = .none ∧
    (∃ x', z.fetch g env = .ok (w, x')) ∧ decodeValzel w = some i ∧ z.heldUp g i = false

/-- The side as the instruction that a Groom has fetched meets it: the memory errors of its reads have happened, and the choice of a stale
word is made (R58, R444). -/
def Side.met (x : Side) (g : Nat) (env : Env) : Side := (x.asGroom g).fetched g env

/-- What a Groom's instruction leaves beside the Grooms and the pieces named: the monitors of R665 may count it, and the
memory errors its accesses meet (none where `env` has none) are counted, poison lines and raise events (R444). -/
def Side.keptByGroom (x y : Side) (env : Env) (pieces : List Piece) (regs : Nat → Prop) : Prop :=
  x.keptBut y ([.grooms, .pm, .fresh] ++ pieces ++ (if env.errs = [] then [] else [.poison, .events]))
    (fun k => regs k ∨ k / 0x1000000 = 0x13 ∨
      (env.errs ≠ [] ∧ (k / 0x1000000 = 0x02 ∨ k / 0x1000000 = 0x15 ∨ k / 0x1000000 = 0x16)))

/-- Groom `g` becomes `r`; every other one is as it was. -/
def Side.onlyGroom (x y : Side) (g : Nat) (r : Groom) : Prop :=
  (y.groom g).plain = r.plain ∧ ∀ h, h ≠ g → (y.groom h).plain = (x.groom h).plain

/-- Datum time as a Groom may read it, in 2^-16 ns: within 4 ns of its side's counter and never less than it was (R171). -/
def Side.groomTime (x : Side) (g t : Nat) : Prop :=
  let exact' := x.datum.ns * 65536 + x.datum.acc / 2 ^ 32
  max (exact' - 4 * 65536) (x.groom g).lastDt ≤ t ∧ t ≤ max (exact' + 4 * 65536) (x.groom g).lastDt

/-- The Groom whose next instruction follows. -/
def Groom.next (r : Groom) : Groom := { r with pc := (r.pc + 4) % 2 ^ 64 }

/-- A Groom's instruction retires: its Groom becomes `r`, and of the rest of the module only the pieces and registers named, and
what every instruction may touch, change. -/
def State.retires (s : State) (c : Instr) (sd : SideId) (g : Nat) (env : Env) (r : Groom) (pieces : List Piece := [])
    (regs : Nat → Prop := fun _ => False) : Prop :=
  s.does c sd (fun x y => x.onlyGroom y g r ∧ x.keptByGroom y env pieces regs)

/-- A Groom has entered its handler at a level (R95, R97): the pc to return to, cause and value are saved, PPL and PIE take the old level and
enable, IE is 0, and the pc is the handler's. -/
def Side.enteredAt (x y : Side) (g level : Nat) (cause : Word) (tval : Nat) (pc : Nat := (x.groom g).pc) : Prop :=
  let r := x.groom g
  let q := y.groom g
  q.ctlGet (ctlBase level) = BitVec.ofNat 64 pc ∧ q.ctlGet (ctlBase level + 1) = cause ∧
  q.ctlGet (ctlBase level + 2) = BitVec.ofNat 64 tval ∧ q.pl = level ∧ q.ie = false ∧
  (q.ctlGet 0).fld 4 2 = r.pl ∧ (q.ctlGet 0).flag 3 = r.ie ∧ q.pc = (r.ctlGet (ctlBase level + 3)).toNat ∧
  q.halted = false ∧ q.wait = .none ∧ q.x = r.x ∧ q.v = r.v ∧ q.p = r.p ∧ q.lmem = r.lmem ∧
  ∀ h, h ≠ g → (y.groom h).plain = (x.groom h).plain

/-- A Groom's instruction raises an exception without a status (R92 to R96): entry at level 1 from level 0 and at level 2 otherwise, but at
level 2 with IE 0 the Groom halts and the Steward is told. -/
def Side.trapped (x y : Side) (g : Nat) (env : Env) (cause tval : Nat) : Prop :=
  let r := x.groom g
  (¬(r.pl = 2 ∧ r.ie = false) →
    x.enteredAt y g (if r.pl = 0 then 1 else 2) (BitVec.ofNat 64 cause) tval ∧ x.keptByGroom y env [] (fun _ => False)) ∧
  (r.pl = 2 ∧ r.ie = false →
    (y.groom g).halted = true ∧ (y.groom g).cause = cause ∧ (y.groom g).pc = r.pc ∧ (y.groom g).x = r.x ∧ (y.groom g).v = r.v ∧
    (y.groom g).p = r.p ∧ (y.groom g).lmem = r.lmem ∧
    (∃ e ∈ y.events, e.code = 0x07 ∧ e.unit = 0x10 ∧ e.inst = g ∧ e.detail = cause) ∧
    (∀ h, h ≠ g → (y.groom h).plain = (x.groom h).plain) ∧ x.keptByGroom y env [.events] (fun _ => False))

/-- Where the completion record of a command stands: its slot, if the queue's ring may be written there (R147, R148, R761). -/
def Side.recordAt (x : Side) (q chain slots : Nat) : Option Nat :=
  let a := x.fld (Reg.CQ_CPL q) 5 59 * 32 + chain % slots * 32
  if a < 2 ^ 47 ∧ x.part.populated (a % 2 ^ 46) 32 = true ∧ x.writeGuarded 0x12 (a % 2 ^ 46) 32 = false then some (a % 2 ^ 46) else none

/-- A command of one of the 64 queues runs on an instance of its unit that a monitor watches, no memory error is met, and no agent's
effect is under way, as between commands (R119, R131, R444, R664). -/
def Side.runs (x : Side) (unit inst opcode : Nat) (env : Env) (o : Op) : Prop :=
  x.live = true ∧ env.errs = [] ∧ x.running unit inst opcode = some o ∧ o.parent = none ∧ monitorOf unit inst < 256 ∧ o.queue < 64 ∧
    x.acts = Agent.hub

/-- The side as the instance that runs command `o` meets it: from its own die, by links that have been up since the command's start or
not (R33). It differs from the side in nothing else. -/
def Side.asRun (x : Side) (o : Op) : Side := x.agent o.unit o.inst (o.run.map (fun r => r.2))

/-- The counters that a Relay or a Stall keeps of the commands of its own that complete (R430, R534). -/
def Side.tallies (x : Side) (o : Op) (k : Nat) : Prop :=
  let i := if o.run.isSome then o.inst else o.f 4 0 16
  x.part.hasInst o.unit i = true ∧
    ((o.unit = 0x0D ∧ (k = Reg.RL_CNT i ∨ k = Reg.RL_LAST i)) ∨ (o.unit = 0x0F ∧ k = Reg.ST_CNT i))

/-- A command of a queue ends (R147, R150, R151): it has left flight, its completion record stands in its slot, and its tether is
signalled where it asks for it; a Relay or a Stall counts it. `stored` are the bytes its effect wrote before; beside them, the record, the pieces and the registers
named, and what every command's end may touch, nothing has changed. -/
def Side.ends (x y : Side) (o : Op) (st result : Nat) (pieces : List Piece := []) (regs : Nat → Prop := fun _ => False)
    (stored : Nat → Prop := fun _ => False) : Prop :=
  let slot := x.recordAt o.queue o.chain o.slots
  y.ops.map Op.plain = (x.ops.filter (fun p => !(p.same o))).map Op.plain ∧
  (∀ a, slot = some a → y.bytes a 32 =
    completionBytes o.chain (x.verifiedStatus o.unit o.inst st) o.unit o.slots false 0 result x.now) ∧
  (o.f 6 15 1 = 1 →
    y.rd (Reg.TE_VALUE (o.f 6 0 13)) = x.rd (Reg.TE_VALUE (o.f 6 0 13)) + BitVec.ofNat 64 (o.f 12 0 32)) ∧
  (∀ a, ¬ stored a → (∀ l, slot = some l → a < l ∨ l + 32 ≤ a) → y.mem.get a = x.mem.get a) ∧
  x.keptBut y ([.ops, .cells, .poison, .pm, .outriders] ++ pieces)
    (fun k => regs k ∨ k / 0x1000000 = 0x13 ∨ k = Reg.CQ_STAT o.queue ∨ (o.f 6 15 1 = 1 ∧ k = Reg.TE_VALUE (o.f 6 0 13)) ∨ x.tallies o k)

/-- A command of a queue ends after its byte writes `ws`, made in their order; every other byte but its record's is as it was. -/
def Side.endsWriting (x y : Side) (o : Op) (st result : Nat) (ws : List (Nat × Byte × Bool)) (pieces : List Piece := [])
    (regs : Nat → Prop := fun _ => False) : Prop :=
  x.ends y o st result pieces regs (fun a => ∃ w ∈ ws, w.1 = a) ∧
  ∀ a, (∀ l, x.recordAt o.queue o.chain o.slots = some l → a < l ∨ l + 32 ≤ a) → y.mem.get a = (x.mem.scatter ws).get a

/-- A kept reply answers a datagram: it has its port, its sender and its sequence number (R729). -/
def KeptReply.answers (r : KeptReply) (d : Datagram) : Bool :=
  r.port == d.port && r.src == d.src && r.sport == d.sport && r.seq == sfld (fromBytes d.bytes) 4 0 32

/-- A working side accepts a datagram as a request (R724 to R726): its port is enabled and takes it unprotected, its address is one of
the side's, its source is allowed and its header is well formed. -/
def Side.admits (x : Side) (d : Datagram) : Prop :=
  d.port ≤ 1 ∧ x.flag (Reg.ET_PORT d.port) 0 = true ∧ (d.toGlobal = true → x.flag Reg.HP_CFG 0 = true) ∧
  x.flag (Reg.ET_SEC d.port) 0 = false ∧ requestHeader d.bytes = true ∧ x.sourceOk d.src = true ∧ x.flag Reg.HP_CFG 1 = false

end Sys2Proof.Machine

namespace Sys2Proof
open Machine

/-- A datagram is a request of type `t` that R728 finds nothing wrong with: its length field is its payload's length, no reserved bit
is set, and the payload holds what R732 lists. -/
def Datagram.asks (d : Datagram) (t : Nat) : Prop :=
  let v := fromBytes d.bytes
  let shape := requestShape t (v / 2 ^ 128)
  sfld v 1 0 8 = t ∧ sfld v 8 0 16 = d.bytes.length - 16 ∧ sfld v 2 1 7 = 0 ∧ sfld v 3 0 8 = 0 ∧ sfld v 10 0 48 = 0 ∧
  anySet (v / 2 ^ 128) shape.2 = false ∧ v / 2 ^ 128 / 2 ^ (8 * shape.1) = 0 ∧ shape.1 ≤ d.bytes.length - 16

/-- The reply to a datagram (R727). -/
def Datagram.reply (d : Datagram) (status index : Nat) (payload : List Byte) : List Byte :=
  hostMessage (sfld (fromBytes d.bytes) 1 0 8) (sfld (fromBytes d.bytes) 4 0 32) status index payload

end Sys2Proof

namespace Sys2Proof.Machine

/-- A host port sends a reply to the sender of a datagram (R724, R727). -/
def Side.sendsBack (x y : Side) (d : Datagram) (bs : List Byte) : Prop :=
  ∃ e, y.egress = x.egress ++ [e] ∧ e.port = d.port ∧ e.time = x.clearAt d.port (18 + bs.length) ∧
    e.bytes = toBytesBE 16 d.src ++ toBytesBE 2 d.sport ++ bs

/-- A request is answered once, `z` being the side after its effect (R727, R729, R730): the reply goes out where its port is not
protected, it is kept, and one that failed is counted. -/
def Side.replied (z y : Side) (d : Datagram) (status index : Nat) (payload : List Byte) : Prop :=
  let bs := d.reply status index payload
  (z.flag (Reg.ET_SEC d.port) 0 = false → z.sendsBack y d bs) ∧
  (∃ k ∈ y.host.replies, k.answers d = true ∧ k.reply = bs) ∧
  y.host = { z.host with replies := y.host.replies } ∧
  (status ≠ stDone → y.fld Reg.HP_CNT 0 16 = min 65535 (z.fld Reg.HP_CNT 0 16 + 1)) ∧
  z.keptBut y [.host, .egress] (fun k => status ≠ stDone ∧ k = Reg.HP_CNT)

/-- A request whose reply is kept is not performed again: its reply goes out once more and the repeat is counted (R729). -/
def Side.resends (x y : Side) (d : Datagram) (bs : List Byte) : Prop :=
  x.sendsBack y d bs ∧ y.fld Reg.HP_CNT 32 16 = min 65535 (x.fld Reg.HP_CNT 32 16 + 1) ∧
  x.keptBut y [.egress] (fun k => k = Reg.HP_CNT)

end Sys2Proof.Machine
end

