-- ==== Sys2Proof/Certificates/Slice0/Obligations.lean ====
section
/-!
DEFINITION. Certificates/Slice0/Obligations.lean: what is claimed of the machine, one proposition each.
-/
open Sys2Proof Sys2Proof.Machine


/-! ### The machine as a whole -/

/-- A step performs the command at the front of the queue on the state with the rest of the queue; on an empty queue time passes
(DESIGN CHOICE, log entry 10). -/
def Obligations.StepTakesTheFront : Prop :=
  ∀ (s : State) (c : Instr),
    step { s with pending := c :: s.pending } = exec c s ∧ (s.pending = [] → step s = .next s.idle)

/-- No command stops the machine: what the manual calls a fault is an effect on the state. -/
def Obligations.NoCommandStops : Prop := ∀ (c : Instr) (s : State), ∃ t, exec c s = .next t ∧ t.pending = s.pending

/-- R102, R117, R153, R167, R174, R622, R720: what both sides hold after reset. -/
def Obligations.AfterReset : Prop :=
  ∀ (sd : SideId),
    let x := State.reset.side sd
    State.reset.sound = true ∧ State.reset.pending = [] ∧ x.now = 0 ∧ x.fld Reg.DT_STATE 0 2 = 0 ∧ x.fld Reg.SW_STATE 0 2 = 0 ∧ x.mode = 0 ∧
    x.ops = [] ∧ x.events = [] ∧ x.mem.cells = [] ∧ x.mem.bad = [] ∧ x.guards = [] ∧
    x.gt.shaped ∧ (∀ t, t ≤ 8191 → x.rd (Reg.TE_VALUE t) = 0) ∧
    (∀ g, g < x.part.grooms → (x.groom g).halted = true ∧ (x.groom g).ctlGet 0x010 = 0 ∧ (x.groom g).recvQ = [] ∧
      x.rd (Reg.GR_BOOT g) = 0x8000_0000_0000_0000)

/-- R1, R23, R26: whatever is commanded and however time passes, the module stays made of side 0 and side 1 of one part, and between
commands no agent's effect is under way. -/
def Obligations.SoundKept : Prop := ∀ (s t : State), s.sound = true → step s = .next t → t.sound = true

/-- R752: a side without power stays so, whatever is commanded and however time passes, until its input has been restored
(POWER_UP). -/
def Obligations.OnlyPowerUpLeavesOff : Prop :=
  ∀ (s t : State) (sd : SideId),
    (s.side sd).phase = .off → s.pending.head? ≠ some (.powerUp sd) → step s = .next t → (t.side sd).phase = .off

/-- R64 to R67: every Valzel instruction whose fields its word can hold is what its word decodes to. -/
def Obligations.ValzelRoundTrip : Prop := ∀ i : GInstr, i.wf = true → decodeValzel (encodeValzel i) = some i

/-- R64 to R91: a word that decodes is the word of what it decodes to, so no two words spell one instruction; the words below, written
out from the formats' tables, are what those tables say. -/
def Obligations.ValzelWordsAreExact : Prop :=
  (∀ (w : Nat) (i : GInstr), w < 2 ^ 32 → decodeValzel w = some i → i.wf = true ∧ encodeValzel i = w) ∧
  decodeValzel 0x0422_1800 = some (.alu .add 1 2 3) ∧
  decodeValzel 0x0422_1822 = some (.amo .cas 1 2 3) ∧
  decodeValzel 0x0BFF_FFFF = some (.imm .addi 31 31 0xFFFF) ∧
  decodeValzel 0x1C22_00BF = some (.imm .srai 1 2 63) ∧
  decodeValzel 0x30A2_0008 = some (.load .ld 5 2 8) ∧
  decodeValzel 0x4CA2_0008 = some (.store .sd 5 2 8) ∧
  decodeValzel 0x5022_FFFF = some (.br .beq 1 2 0xFFFF) ∧
  decodeValzel 0x6800_0001 = some (.jal 1) ∧
  decodeValzel 0x8022_19C3 = some (.vec .fma 1 2 3 1 6) ∧
  decodeValzel 0xC8AA_5840 = some (.twait 5 10 11) ∧
  decodeValzel 0xC000_0060 = some (.sys .fence) ∧
  decodeValzel 0 = none ∧ decodeValzel 0xFFFF_FFFF = none

/-- R102: at reset every Groom holds role ID 0 and role epoch 0; a Groom whose epoch is 0 accepts no message. -/
def Obligations.EpochZeroAcceptsNoMessage : Prop :=
  (∀ sd g, ((State.reset.side sd).groom g).ctlGet 0x010 = 0) ∧
  ∀ (s : State) (sd : SideId) (a b : Nat),
    (((s.side sd).groom b).ctlGet 0x010).fld 16 16 = 0 →
    ∃ t, exec (.messageDeliver sd a b) s = .next t ∧ ((t.side sd).groom b).recvQ = ((s.side sd).groom b).recvQ

/-! ### Register accesses -/

/-- R12, R18, R19, R61, R190: a write at level 0, to an absent unit or offset, or one that sets a reserved bit, changes nothing, whichever
row makes it; one that its unit gives no meaning of its own sets RW bits, clears W1C bits by 1, sets W1S bits by 1 and leaves the rest; a read
clears the RC bits of the register, and one of DT_NOW latches the fraction of the same instant in DT_FRAC. -/
def Obligations.RegisterAccess : Prop :=
  ∀ (s : State) (sd : SideId) (level k : Nat) (v : Word),
    let x := s.side sd
    let i := k / 0x10000 % 0x100
    x.live = true →
    (∀ c ∈ writers sd 0 k i v, s.does c sd Side.unchanged) ∧
    (x.writable k = false → s.does (.registerWrite sd level k v) sd Side.unchanged) ∧
    (specOf k = none → s.does (.registerWrite sd level k v) sd Side.unchanged) ∧
    (∀ r, specOf k = some r → v.toNat &&& (2 ^ 64 - 1 - r.known) ≠ 0 →
      s.does (.registerWrite sd level k v) sd Side.unchanged) ∧
    (∀ r, x.takes level k v → specOf k = some r → x.regWrite level k r v = x.plainWrite k r v →
      s.does (.registerWrite sd level k v) sd (fun x y =>
        (∀ n, n < 64 → (y.rd k).flag n =
          if bitAt r.w1s n ∧ v.flag n then true else if bitAt r.w1c n ∧ v.flag n then false
          else if bitAt r.rw n then v.flag n else (x.rd k).flag n) ∧
        x.keptBut y [] (fun j => j = k))) ∧
    (x.takes level Reg.DT_TOD v → s.does (.registerWrite sd level Reg.DT_TOD v) sd (fun x y => x.onlyReg y Reg.DT_TOD v)) ∧
    (∀ r, x.part.hasInst (k / 0x1000000) i = true → x.part.lacksReg k = false → specOf k = some r → k ≠ Reg.DT_NOW → k ≠ Reg.PW_IN →
      s.does (.registerReadClear sd k) sd (fun x y =>
        (∀ n, n < 64 → (y.rd k).flag n = ((x.rd k).flag n && !(bitAt r.rc n))) ∧ x.keptBut y [] (fun j => j = k))) ∧
    s.does (.dtNowRead sd) sd (fun x y => x.onlyReg y Reg.DT_FRAC (BitVec.ofNat 64 (x.datum.acc / 2 ^ 32)))

/-- R153, R154, R158, R163 to R166: CQ_TAIL takes a value no more than N beyond CQ_HEAD, and otherwise CFG_ERR is set; setting ENABLE, with both rings in
populated memory, takes SIZE and CLASS and zeroes CQ_HEAD, CQ_TAIL and CQ_CPLREAD, and otherwise leaves ENABLE 0 and sets CFG_ERR; while
ENABLE is 1 a write changes only ENABLE; a base may be written while the ring it names is populated or ENABLE is 0. A write of TE_VALUE
sets a tether, one of TE_ADD adds to it modulo 2^64, and no other tether changes. -/
def Obligations.QueueRegisters : Prop :=
  ∀ (s : State) (sd : SideId) (level q t : Nat) (v : Word),
    let x := s.side sd
    let cfg := Reg.CQ_CFG q
    let slots (w : Word) : Nat := 16 * 2 ^ w.fld 8 4
    let err (y : Side) : Prop := y.flag (Reg.CQ_STAT q) 1 = true ∧ x.keptBut y [] (fun k => k = Reg.CQ_STAT q)
    q < 64 →
    (x.takes level (Reg.CQ_TAIL q) v →
      let ok := (v.toNat + 2 ^ 32 - x.fld (Reg.CQ_HEAD q) 0 32) % 2 ^ 32 ≤ slots (x.rd cfg)
      (ok → s.does (.cqTailWrite sd level q v) sd (fun x y =>
        y.fld (Reg.CQ_TAIL q) 0 32 = v.toNat ∧ x.keptBut y [] (fun k => k = Reg.CQ_TAIL q))) ∧
      (¬ok → s.does (.cqTailWrite sd level q v) sd (fun _ y => err y))) ∧
    (x.takes level cfg (v.put 3 1 1) → x.flag cfg 3 = false → v.fld 8 4 ≤ 8 →
      let n := slots v
      let ok := x.queueRingOk (x.rd (Reg.CQ_RING q)).toNat (64 * n) = true ∧ x.queueRingOk (x.rd (Reg.CQ_CPL q)).toNat (32 * n) = true
      (ok → s.does (.cqEnable sd level q v) sd (fun x y =>
        y.flag cfg 3 = true ∧ y.fld cfg 8 4 = v.fld 8 4 ∧ y.fld cfg 0 3 = v.fld 0 3 ∧
        y.rd (Reg.CQ_HEAD q) = 0 ∧ y.rd (Reg.CQ_TAIL q) = 0 ∧ y.rd (Reg.CQ_CPLREAD q) = 0 ∧
        x.keptBut y [] (fun k => k = cfg ∨ k = Reg.CQ_HEAD q ∨ k = Reg.CQ_TAIL q ∨ k = Reg.CQ_CPLREAD q))) ∧
      (¬ok → s.does (.cqEnable sd level q v) sd (fun x y =>
        y.flag cfg 3 = false ∧ y.flag (Reg.CQ_STAT q) 1 = true ∧ x.keptBut y [] (fun k => k = cfg ∨ k = Reg.CQ_STAT q)))) ∧
    (x.takes level cfg (v.put 3 1 1) → x.flag cfg 3 = true → s.does (.cqEnable sd level q v) sd Side.unchanged) ∧
    (x.takes level cfg (v.put 3 1 0) → x.flag cfg 3 = true →
      s.does (.cqDisable sd level q v) sd (fun x y => x.onlyReg y cfg ((x.rd cfg).put 3 1 0))) ∧
    (∀ cpl, let k := if cpl then Reg.CQ_CPL q else Reg.CQ_RING q
      x.takes level k v →
      let ok := x.flag cfg 3 = false ∨ x.queueRingOk v.toNat (slots (x.rd cfg) * (if cpl then 32 else 64)) = true
      (ok → s.does (.cqBaseWrite sd level q cpl v) sd (fun x y =>
        (if cpl then y.fld k 5 59 * 32 else y.fld k 6 58 * 64) = v.toNat ∧ x.keptBut y [] (fun j => j = k))) ∧
      (¬ok → s.does (.cqBaseWrite sd level q cpl v) sd (fun _ y => err y))) ∧
    (x.live = true → 1 ≤ level → t ≤ 8191 →
      s.does (.teValueWrite sd level t v) sd (fun x y => x.onlyReg y (Reg.TE_VALUE t) v) ∧
      s.does (.teAddWrite sd level t v) sd (fun x y => x.onlyReg y (Reg.TE_VALUE t) (x.rd (Reg.TE_VALUE t) + v)))

/-- R117, R118: HALT stops a Groom, its registers, memory and pc kept; START lets a halted Groom go on at GR_BOOT, at level 2, and leaves
one that runs as it is. -/
def Obligations.GroomControl : Prop :=
  ∀ (s : State) (sd : SideId) (level g : Nat),
    let x := s.side sd
    let r := x.groom g
    x.live = true → 1 ≤ level → g < x.part.grooms → g < x.grooms.length →
    s.does (.grCtrlHalt sd level g) sd (fun x y =>
      x.onlyGroom y g { r with halted := true, wait := .none } ∧ x.keptBut y [.grooms] (fun _ => False)) ∧
    (r.halted = true → s.does (.grCtrlStart sd level g) sd (fun x y =>
      let q := y.groom g
      q.halted = false ∧ q.wait = .none ∧ q.pc = (x.rd (Reg.GR_BOOT g)).toNat ∧ q.pl = 2 ∧ q.x = r.x ∧ q.v = r.v ∧ q.p = r.p ∧
      q.lmem = r.lmem ∧ (∀ n, n ≠ 0 → q.ctlGet n = r.ctlGet n) ∧ q.sendQ = r.sendQ ∧ q.recvQ = r.recvQ ∧ q.errQ = r.errQ ∧
      (∀ h, h ≠ g → (y.groom h).plain = (x.groom h).plain) ∧ x.keptBut y [.grooms] (fun _ => False))) ∧
    (r.halted = false → s.does (.grCtrlStart sd level g) sd (fun x y => x.keptBut y [] (fun _ => False)))

/-- R178, R205 to R207: REARM at level 2 frees Datum time to step again, below it sets CFG_ERR; clearing LG_CTRL.ENABLE lets every
started frame end with outcome 5; a write of LG_RPT_CFG with SIZE up to 8 zeroes the report count, another sets CFG_ERR. -/
def Obligations.TimeRegisters : Prop :=
  ∀ (s : State) (sd : SideId) (level : Nat) (v : Word),
    let x := s.side sd
    x.live = true → 1 ≤ level →
    (2 ≤ level → s.does (.dtRearm sd level) sd (fun x y =>
      y.fld Reg.DT_STATE 0 2 = 0 ∧ y.rd Reg.DT_HOLD = 0 ∧ y.datum = { x.datum with run := 0, pendStep := none } ∧
      x.keptBut y [.datum] (fun k => k = Reg.DT_STATE ∨ k = Reg.DT_HOLD))) ∧
    (level < 2 → s.does (.dtRearm sd level) sd (fun x y =>
      y.flag Reg.DT_STATE 3 = true ∧ x.keptBut y [] (fun k => k = Reg.DT_STATE))) ∧
    (x.flag Reg.LG_CTRL 0 = true → s.does (.lgDisable sd level) sd (fun x y =>
      y.flag Reg.LG_CTRL 0 = false ∧ (∀ f ∈ y.lg.frames, f.started = false) ∧
      x.keptBut y [.lg, .cells, .poison] (fun k => k / 0x1000000 = 0x04 ∨ k / 0x1000000 = 0x11))) ∧
    (x.takes level Reg.LG_RPT_CFG v → v.fld 0 4 ≤ 8 → s.does (.lgRptCfgWrite sd level v) sd (fun x y =>
      y.rd Reg.LG_RPT_CFG = v ∧ y.rd Reg.LG_RPT_HEAD = 0 ∧ x.keptBut y [] (fun k => k = Reg.LG_RPT_CFG ∨ k = Reg.LG_RPT_HEAD))) ∧
    (x.takes level Reg.LG_RPT_CFG v → 8 < v.fld 0 4 → s.does (.lgRptCfgWrite sd level v) sd (fun x y =>
      y.flag Reg.LG_CTRL 3 = true ∧ x.keptBut y [] (fun k => k = Reg.LG_CTRL)))

/-- R216, R217, R234, R249, R270, R280: a write that enables an ingress slot, a Transit stream, Transit or Gait makes it start with
nothing left of before, where its configuration is accepted; disabling an ingress slot
withdraws the sample in progress (a camera frame of which bytes have landed is closed or withdrawn freely, log entry 104); RELEASE moves forward to WRITE at most. -/
def Obligations.SensorRegisters : Prop :=
  ∀ (s : State) (sd : SideId) (level i : Nat) (v : Word),
    let x := s.side sd
    let rel := (v.fld 32 32 + 2 ^ 32 - x.fld (Reg.IN_LPTR i) 32 32) % 2 ^ 32
    let gap := (x.fld (Reg.IN_LPTR i) 0 32 + 2 ^ 32 - x.fld (Reg.IN_LPTR i) 32 32) % 2 ^ 32
    i < 32 → i < x.ing.slots.length →
    (x.takes level (Reg.IN_SCFG i) (v.put 0 1 1) → x.slotOn i = false → x.slotCfgOk i (v.put 0 1 1) = true →
      s.does (.ingressStreamEnable sd level i v) sd (fun x y =>
        y.rd (Reg.IN_SCFG i) = v.put 0 1 1 ∧ (y.slot i).words = [] ∧ (y.slot i).prog = none ∧ y.rd (Reg.IN_SCHAIN i) = 0 ∧
        y.rd (Reg.IN_LPTR i) = 0 ∧
        x.keptBut y [.ing] (fun k => k = Reg.IN_SCFG i ∨ k = Reg.IN_SCHAIN i ∨ k = Reg.IN_LPTR i))) ∧
    (x.takes level (Reg.IN_SCFG i) (v.put 0 1 0) → x.slotOn i = true →
      s.does (.ingressStreamDisable sd level i v) sd (fun x y =>
        y.rd (Reg.IN_SCFG i) = (x.rd (Reg.IN_SCFG i)).put 0 1 0 ∧ (y.slot i).prog = none ∧
        x.keptBut y [.ing, .fresh] (fun k => k = Reg.IN_SCFG i ∨ k = Reg.IN_SSTAT i) ∧
        ((∀ m, (x.slot i).prog = some m → x.kind i ≠ 0 ∨ m.bytes = []) →
          (y.slot i).words = (x.slot i).words ∧ (y.slot i).pend = (x.slot i).pend ∧
          x.keptBut y [.ing] (fun k => k = Reg.IN_SCFG i)))) ∧
    (x.takes level (Reg.IN_LPTR i) v → rel ≤ gap → s.does (.landingReleaseWrite sd level i v) sd (fun x y =>
      y.fld (Reg.IN_LPTR i) 32 32 = v.fld 32 32 ∧ y.fld (Reg.IN_LPTR i) 0 32 = x.fld (Reg.IN_LPTR i) 0 32 ∧
      x.keptBut y [] (fun k => k = Reg.IN_LPTR i))) ∧
    (x.takes level (Reg.IN_LPTR i) v → gap < rel → s.does (.landingReleaseWrite sd level i v) sd (fun x y =>
      y.flag Reg.IN_STATUS 0 = true ∧ x.keptBut y [] (fun k => k = Reg.IN_STATUS))) ∧
    (x.takes level Reg.TR_CTRL (v.put 0 1 1) → x.flag Reg.TR_CTRL 0 = false → s.does (.transitEnable sd level v) sd (fun x y =>
      y.flag Reg.TR_CTRL 0 = true ∧ y.tr = { x.tr with next := x.boundaryFrom x.now, closed := [] } ∧
      x.keptBut y [.tr] (fun k => k = Reg.TR_CTRL))) ∧
    (x.takes level (Reg.TR_SCFG i) v → i < x.tr.streams.length → x.streamOn i = false → v.flag 0 = true → x.streamCfgOk i v = true →
      s.does (.transitStreamEnable sd level i v) sd (fun x y =>
        y.rd (Reg.TR_SCFG i) = v ∧ x.keptBut y [.tr, .gt] (fun k => k = Reg.TR_SCFG i ∨ k = Reg.TR_SSTAT i) ∧ (y.stream i).kept = [] ∧
        (y.stream i).posted = [] ∧ ∀ j, j ≠ i → y.stream j = x.stream j)) ∧
    (x.takes level Reg.GT_CTRL (v.put 0 1 1) → x.flag Reg.GT_CTRL 0 = false → x.gaitEnable.flag Reg.GT_CTRL 0 = true →
      s.does (.gaitEnable sd level v) sd (fun x y =>
        y.flag Reg.GT_CTRL 0 = true ∧ x.keptBut y [.gt] (fun k => k = Reg.GT_CTRL ∨ k = Reg.GT_SEQ) ∧ y.gt.p = [0, 0, 0] ∧ y.gt.v = [0, 0, 0] ∧ y.gt.q = [0x3FF0_0000_0000_0000, 0, 0, 0]))

/-- R291, R292, R333, R366, R580, R581, R614: enabling the Pillar protects its voxel table from others' reads and writes; enabling the Plat
starts with no half and no record, from the next frame boundary; enabling Traverse forgets the query and clears the dynamic
area; a Bridle slot is empty once the Bridle has been disabled. -/
def Obligations.CloudAndPlanRegisters : Prop :=
  ∀ (s : State) (sd : SideId) (level : Nat) (v : Word),
    let x := s.side sd
    (x.takes level Reg.PL_CTRL v → v.flag 0 = true → x.flag Reg.PL_CTRL 0 = false →
      let l := local46 x.plTable
      (x.loc x.plTable = some l → 0x3000_0000_0000 ≤ l → l + 33 * 2 ^ 20 ≤ 0x3000_0400_0000 →
        s.does (.pillarEnable sd level v) sd (fun x y =>
          y.flag Reg.PL_CTRL 0 = true ∧
          (∀ o a n, o ≠ 0x08 → 0 < n → l ≤ a → a < l + 33 * 2 ^ 20 → y.readGuarded o a n = true ∧ y.writeGuarded o a n = true) ∧
          x.keptBut y [.guards] (fun k => k = Reg.PL_CTRL))) ∧
      (x.loc x.plTable ≠ some l → s.does (.pillarEnable sd level v) sd (fun x y =>
          y.flag Reg.PL_CTRL 0 = false ∧ y.flag Reg.PL_CTRL 1 = true ∧ x.keptBut y [] (fun k => k = Reg.PL_CTRL)))) ∧
    (x.takes level Reg.PT_CTRL v → v.flag 0 = true → x.ptOn = false → x.ptCfgOk = true →
      s.does (.platEnable sd level v) sd (fun x y =>
        y.ptOn = true ∧ y.pt = { x.pt with next := x.boundaryFrom x.now, seals := [], halves := [], tracks := [], record := none, merged := none, late := none } ∧
        x.keptBut y [.pt, .guards] (fun k => k = Reg.PT_CTRL))) ∧
    (x.takes level Reg.PT_CTRL v → v.flag 0 = true → x.ptOn = false → x.ptCfgOk = false →
      s.does (.platEnable sd level v) sd (fun x y =>
        y.ptOn = false ∧ y.flag Reg.PT_CTRL 3 = true ∧ x.keptBut y [] (fun k => k = Reg.PT_CTRL))) ∧
    (x.takes level Reg.TV_CTRL v → v.flag 0 = true → x.tvOn = false → x.tvCfgOk = true →
      s.does (.traverseEnable sd level v) sd (fun _ y =>
        y.tvOn = true ∧ y.tv.query = none ∧ y.rd Reg.TV_DUSE = 0 ∧ y.rd Reg.TV_PIN = 0 ∧
        x.keptBut y [.tv, .pt, .cells, .poison, .fresh] (fun k => k / 0x1000000 = 0x0A ∨ k / 0x1000000 = 0x11))) ∧
    (x.takes level Reg.TV_CTRL v → v.flag 0 = true → x.tvOn = false → x.tvCfgOk = false →
      s.does (.traverseEnable sd level v) sd (fun x y =>
        y.tvOn = false ∧ y.flag Reg.TV_CTRL 3 = true ∧ x.keptBut y [] (fun k => k = Reg.TV_CTRL))) ∧
    (x.takes level Reg.BR_CTRL v → v.flag 0 = true → x.flag Reg.BR_CTRL 0 = false →
      s.does (.bridleEnable sd level v) sd (fun x y =>
        y.flag Reg.BR_CTRL 0 = true ∧ x.keptBut y [] (fun k => k = Reg.BR_CTRL))) ∧
    (x.takes level Reg.BR_CTRL v → v.flag 0 = false → x.flag Reg.BR_CTRL 0 = true → x.br.slots.length = 4 →
      s.does (.bridleEnable sd level v) sd (fun x y =>
        y.flag Reg.BR_CTRL 0 = false ∧ (∀ i, i < 4 → y.br.slots.getD i none = none) ∧ y.rd Reg.BR_WORK = 0 ∧
        x.keptBut y [.br] (fun k => k / 0x1000000 = 0x0B)))

/-- R435, R468, R469, R494: an Outrider that may be enabled starts with empty page rings; a page pushed is the last of its ring, where it is
aligned, placed in its tier and its ring has room, and its entry is written to the ring's storage; otherwise CFG_ERR is set; NT_MAP takes a multiple of
the stacks up to NEAR_GB at level 2 while LOCK is 0, and the near tier is then read through the new map. -/
def Obligations.MemoryRegisters : Prop :=
  ∀ (s : State) (sd : SideId) (level i c : Nat) (v : Word),
    let x := s.side sd
    let size := x.classBytes i c
    let near := x.orRings i c
    let split := v.fld 0 8
    let pushed (y : Side) (base log k : Nat) : Prop :=
      let at' := local46 base + 8 * (k % (16 * 2 ^ log))
      (∀ m, (m < at' ∨ at' + 8 ≤ m) → y.mem.get m = x.mem.get m) ∧
      ((∀ j, j < 8 → x.writeGuarded 0x0C ((at' + j) / 64 * 64) 64 = false) → y.bytes at' 8 = toBytes 8 v.toNat)
    (x.takes level Reg.NT_MAP v → 2 ≤ level → x.flag Reg.NT_MAP 16 = false → split % x.part.stacks = 0 → split ≤ x.part.nearGB →
      v.flag 17 = false → s.does (.ntMapWrite sd level v) sd (fun x y =>
        y.fld Reg.NT_MAP 0 8 = split ∧ y.flag Reg.NT_MAP 16 = v.flag 16 ∧
        y.mem = (if split = x.fld Reg.NT_MAP 0 8 then x.mem else x.mem.remap x.part x.split (split * 2 ^ 30)) ∧
        x.keptBut y [.cells, .poison] (fun k => k = Reg.NT_MAP))) ∧
    (x.takes level Reg.NT_MAP v → (level < 2 ∨ (if x.flag Reg.NT_MAP 16 then split ≠ x.fld Reg.NT_MAP 0 8
        else split % x.part.stacks ≠ 0 ∨ x.part.nearGB < split)) →
      s.does (.ntMapWrite sd level v) sd (fun x y =>
        y.fld Reg.NT_MAP 0 8 = x.fld Reg.NT_MAP 0 8 ∧ y.flag Reg.NT_MAP 17 = true ∧ x.keptBut y [] (fun k => k = Reg.NT_MAP))) ∧
    (i < x.part.dies → i < x.outriders.length → c < 4 →
      (x.takes level (Reg.OR_CTRL i) v → v.flag 0 = true → x.flag (Reg.OR_CTRL i) 0 = false →
        (∀ c, c < 4 → x.fld (Reg.OR_CLS i c) 16 16 = 0) → s.does (.outriderEnable sd level i v) sd (fun x y =>
          y.flag (Reg.OR_CTRL i) 0 = true ∧ (∀ c, (y.orRings i c).near = [] ∧ (y.orRings i c).far = []) ∧
          (y.outrider i).tally = [] ∧ x.keptBut y [.outriders] (fun k => k = Reg.OR_CTRL i))) ∧
      (x.takes level (Reg.OR_NPUSH i c) v → c < (x.outrider i).rings.length → x.flag (Reg.OR_CTRL i) 0 = true → v.toNat % 4096 = 0 →
        (∃ l, x.loc v.toNat = some l ∧ x.part.inNear l size = true) → near.near.length < 16 * 2 ^ x.fld (Reg.OR_CLS i c) 0 4 →
        s.does (.orNpush sd level i c v) sd (fun x y =>
          y.orRings i c = { near with near := near.near ++ [v.toNat], nearAt := near.nearAt + 1 } ∧
          pushed y (x.rd (Reg.OR_NBASE i c)).toNat (x.fld (Reg.OR_CLS i c) 0 4) near.nearAt ∧
          (∀ j, j ≠ i → y.outrider j = x.outrider j) ∧ (∀ d, d ≠ c → y.orRings i d = x.orRings i d) ∧
          x.keptBut y [.outriders, .cells, .poison] (fun _ => False))) ∧
      (x.takes level (Reg.OR_NPUSH i c) v → v.toNat % 4096 ≠ 0 → s.does (.orNpush sd level i c v) sd (fun x y =>
          y.flag (Reg.OR_CTRL i) 1 = true ∧ x.keptBut y [] (fun k => k = Reg.OR_CTRL i))) ∧
      (x.takes level (Reg.OR_FPUSH i c) v → x.part.farGB ≠ 0 → c < (x.outrider i).rings.length → x.flag (Reg.OR_CTRL i) 0 = true →
        v.toNat % 4096 = 0 →
        (∃ l, x.loc v.toNat = some l ∧ 0x2000_0000_0000 ≤ l ∧ l + size ≤ 0x2000_0000_0000 + x.part.farGB * 2 ^ 30) →
        near.far.length < 16 * 2 ^ x.fld (Reg.OR_CLS i c) 4 4 →
        s.does (.orFpush sd level i c v) sd (fun x y =>
          y.orRings i c = { near with far := near.far ++ [v.toNat], farAt := near.farAt + 1 } ∧
          pushed y (x.rd (Reg.OR_FBASE i c)).toNat (x.fld (Reg.OR_CLS i c) 4 4) near.farAt ∧
          (∀ j, j ≠ i → y.outrider j = x.outrider j) ∧ (∀ d, d ≠ c → y.orRings i d = x.orRings i d) ∧
          x.keptBut y [.outriders, .cells, .poison] (fun _ => False))))

/-- R623, R625, R632, R650, R651, R663, R664, R713: ARM at level 2 in START arms the side; SILENCE sends event 0x17; below level 2 either
sets CFG_ERR; a verdict that is waited for, within the day's number, ends the wait and sends event 0x16; TP_BASE of a slot not in use takes
the base and its VERIFIED bit clears; PW_REQ takes the mode asked for, and the target follows. -/
def Obligations.StewardAndPowerRegisters : Prop :=
  ∀ (s : State) (sd : SideId) (level a : Nat) (v : Word),
    let x := s.side sd
    let unit := v.fld 32 8
    let inst := v.fld 0 16
    let err (y : Side) (k bit : Nat) : Prop := y.flag k bit = true ∧ x.keptBut y [] (fun j => j = k)
    x.live = true → 1 ≤ level →
    (2 ≤ level → x.swState = 0 → x.sw.armed = false → s.does (.swArm sd level) sd (fun x y =>
      y.sw.armed = true ∧ y.sw.nextPack = x.newestPack ∧ x.keptBut y [.sw] (fun _ => False))) ∧
    (level < 2 → s.does (.swArm sd level) sd (fun _ y => err y Reg.SW_STATE 5)) ∧
    (2 ≤ level → s.does (.swSilence sd level) sd (fun x y =>
      (∃ e, y.events = x.events ++ [e] ∧ e.code = 0x17 ∧ e.unit = 0x02 ∧ e.inst = 0xFFFF ∧ e.time = x.now) ∧
      x.keptBut y [.events] (fun _ => False))) ∧
    (level < 2 → s.does (.swSilence sd level) sd (fun _ y => err y Reg.SW_STATE 5)) ∧
    (x.takes level Reg.SW_VERDICT v → (unit = 0x0E ∨ unit = 0x0F) →
      (∃ c ∈ x.sw.counted, c.unit = unit ∧ c.inst = inst ∧ c.waiting = true) →
      x.fld Reg.SW_STATE 8 8 < x.fld Reg.SW_CFG 16 8 → s.does (.swVerdictWrite sd level v) sd (fun x y =>
        (∀ c ∈ y.sw.counted, c.unit = unit → c.inst = inst → c.waiting = false) ∧
        y.fld Reg.SW_STATE 8 8 = x.fld Reg.SW_STATE 8 8 + 1 ∧
        (∃ e, y.events = x.events ++ [e] ∧ e.code = 0x16 ∧ e.unit = unit ∧ e.inst = inst ∧
          e.detail = (if v.flag 40 then 1 else 0)) ∧
        x.keptBut y [.sw, .events] (fun k => k = Reg.SW_STATE ∨ k = Reg.SW_CNT))) ∧
    (x.takes level Reg.SW_VERDICT v → ¬(unit = 0x0E ∨ unit = 0x0F) → s.does (.swVerdictWrite sd level v) sd (fun _ y =>
      err y Reg.SW_STATE 5)) ∧
    (a < 2 → x.takes level (Reg.TP_BASE a) v → 2 ≤ level → x.packUsed a = false → s.does (.tpBaseWrite sd level a v) sd (fun x y =>
      y.fld (Reg.TP_BASE a) 12 52 = v.fld 12 52 ∧ y.flag (Reg.TP_BASE a) 0 = false ∧
      x.keptBut y [.sw, .guards, .kp] (fun k => k = Reg.TP_BASE a ∨ k / 0x1000000 = 0x14 ∨ k / 0x1000000 = 0x11))) ∧
    (a < 2 → x.takes level (Reg.TP_BASE a) v → (level < 2 ∨ x.packUsed a = true) → s.does (.tpBaseWrite sd level a v) sd (fun _ y =>
      err y Reg.TP_CNT 0)) ∧
    (x.takes level Reg.PW_REQ v → x.flag Reg.PW_STATE 4 = false → s.does (.pwReqWrite sd level v) sd (fun x y =>
      y.fld Reg.PW_REQ 0 2 = v.fld 0 2 ∧ y.fld Reg.PW_STATE 2 2 = min (v.fld 0 2) (x.fld Reg.PW_STATE 5 2) ∧
      y.mode = x.mode ∧ (y.fld Reg.PW_STATE 2 2 ≠ x.mode → y.flag Reg.PW_STATE 4 = true) ∧
      x.keptBut y [] (fun k => k = Reg.PW_REQ ∨ k = Reg.PW_STATE ∨ k = Reg.PW_EFFECT)))

/-- R680, R690, R691, R694, R695, R701, R704, R705: the Keeper's registers at level 2: KP_VREQ starts a verification, KP_ROLL steps a counter
forward up to the SVNs in use, KP_QREQ orders a quote over the nonce, KP_OWNER_7 programs or checks the hash of the owner key, KP_DTOK_14
adds the scopes of a token that checks or counts one that does not, and renews the challenge, KP_HOBBLE locks both scopes for good; below level 2 each sets CFG_ERR. -/
def Obligations.KeeperRegisters : Prop :=
  ∀ (s : State) (sd : SideId) (level : Nat) (v : Word),
    let x := s.side sd
    let t := v.fld 0 8
    let kind := v.fld 0 8
    let val := v.fld 8 8
    x.live = true →
    (x.takes level Reg.KP_VREQ v → 2 ≤ level → 0x10 ≤ t → t ≤ 0x1F → x.kp.verify = none → s.does (.kpVreq sd level v) sd (fun x y =>
      y.kp.verify = some ⟨t, x.fld (Reg.KP_GRAPH (t - 0x10)) 12 52 * 4096, x.now⟩ ∧ y.flag Reg.KP_VSTAT 0 = true ∧
      y.flag (Reg.KP_GRAPH (t - 0x10)) 0 = false ∧
      x.keptBut y [.kp, .guards] (fun k => k = Reg.KP_VSTAT ∨ k = Reg.KP_GRAPH (t - 0x10)))) ∧
    (x.takes level Reg.KP_ROLL v → 2 ≤ level → 1 ≤ kind → kind ≤ 7 → x.kp.roll.length = 7 → x.kp.roll.getD (kind - 1) 0 < val → val ≤ 63 →
      (∀ i ∈ x.kp.images ++ x.kp.fw, i.kind = kind → val ≤ i.svn) → s.does (.kpRoll sd level v) sd (fun x y =>
        y.kp.roll.getD (kind - 1) 0 = val ∧ (∀ j, j ≠ kind - 1 → y.kp.roll.getD j 0 = x.kp.roll.getD j 0) ∧
        y.fld Reg.KP_ROLLCNT (6 * (kind - 1)) 6 = val ∧ x.keptBut y [.kp] (fun k => k = Reg.KP_ROLLCNT))) ∧
    (x.takes level Reg.KP_QREQ v → 2 ≤ level → x.kp.quote = none → s.does (.kpQreq sd level v) sd (fun x y =>
      (∃ nonce, y.kp.quote = some (v.fld 6 58 * 64, nonce, x.now)) ∧ y.flag Reg.KP_QSTAT 0 = true ∧
      x.keptBut y [.kp] (fun k => k = Reg.KP_QSTAT))) ∧
    (2 ≤ level →
      let key := setAt x.kp.ownerKey 7 v.toNat
      let h := fromBytes (shake256 (toBytes 57 (fromBytes ((key.map (toBytes 8)).flatten.take 57))) 32)
      (x.kp.ownerHash = none ∨ x.kp.ownerHash = some h → s.does (.kpOwnerCheck sd level v) sd (fun x y =>
        y.kp.ownerHash = some h ∧ y.flag Reg.KP_STATE 6 = true ∧ x.keptBut y [.kp] (fun k => k = Reg.KP_STATE))) ∧
      (x.kp.ownerHash ≠ none → x.kp.ownerHash ≠ some h → s.does (.kpOwnerCheck sd level v) sd (fun x y =>
        y.kp.ownerHash = x.kp.ownerHash ∧ y.flag Reg.KP_STATE 5 = true ∧ x.keptBut y [.kp] (fun k => k = Reg.KP_STATE)))) ∧
    (2 ≤ level → x.kp.hobble = true ∨ x.swState = 0 → s.does (.kpDebugToken sd level v) sd (fun x y =>
      let words := setAt x.kp.token 14 v.toNat
      let token := fromBytes (words.map (toBytes 8)).flatten
      let scope := sfld token 114 0 8
      let challenge := ((upTo 4).map (fun w => toBytes 8 (x.rd (Reg.KP_DCHAL w)).toNat)).flatten
      let digest := fromBytes (shake256 (x.deviceId ++ toBytes 1 x.id ++ challenge ++ toBytes 1 scope) 64)
      let good := x.kp.hobble = false ∧ scope < 4 ∧ anySet token [byteRange 115 119] = false ∧
        Config.tokenOk x.ownerKey digest (sfld token 0 0 912) = true
      y.kp = { x.kp with token := words } ∧
      (good → y.fld Reg.KP_STATE 8 2 = Nat.lor (x.fld Reg.KP_STATE 8 2) scope ∧ y.rd Reg.KP_CNT = x.rd Reg.KP_CNT) ∧
      (¬good → y.rd Reg.KP_STATE = x.rd Reg.KP_STATE ∧ y.fld Reg.KP_CNT 32 16 = min 65535 (x.fld Reg.KP_CNT 32 16 + 1)) ∧
      x.keptBut y [.kp, .fresh] (fun k => k = Reg.KP_STATE ∨ k = Reg.KP_CNT ∨ ∃ w, w < 4 ∧ k = Reg.KP_DCHAL w))) ∧
    (x.takes level Reg.KP_HOBBLE v → 2 ≤ level → v.fld 0 16 = 0x4842 → s.does (.kpHobble sd level v) sd (fun x y =>
      y.kp.hobble = true ∧ y.flag Reg.KP_STATE 7 = true ∧ y.fld Reg.KP_STATE 8 2 = 0 ∧ y.kp.tap.st = .testLogicReset ∧
      x.keptBut y [.kp] (fun k => k = Reg.KP_STATE))) ∧
    (level < 2 → ∀ i ∈ [(Instr.kpVreq sd level v, Reg.KP_VREQ), (.kpRoll sd level v, Reg.KP_ROLL), (.kpQreq sd level v, Reg.KP_QREQ),
        (.kpOwnerCheck sd level v, Reg.KP_OWNER 7), (.kpDebugToken sd level v, Reg.KP_DTOK 14), (.kpHobble sd level v, Reg.KP_HOBBLE)],
      x.takes level i.2 v → s.does i.1 sd (fun x y => x.onlyReg y Reg.KP_STATE ((x.rd Reg.KP_STATE).put 5 1 1)))
/-! ### Groom instructions -/

/-- R68: the register to register instructions write their result into rd (x0 discards it) and go on with the next
instruction; nothing else changes. -/
def Obligations.RegisterArithmetic : Prop :=
  ∀ (s : State) (sd : SideId) (g : Nat) (env : Env) (w d b c : Nat),
    let x := s.side sd
    let p := (x.groom g).rx b
    let q := (x.groom g).rx c
    let gives (i : Instr) (o : AluOp) (v : Word) : Prop :=
      x.fetches g env w (.alu o d b c) → s.retires i sd g env ((x.groom g).wx d v).next
    gives (.add sd g env) .add (p + q) ∧
    gives (.sub sd g env) .sub (p - q) ∧
    gives (.and sd g env) .and (p &&& q) ∧
    gives (.or sd g env) .or (p ||| q) ∧
    gives (.xor sd g env) .xor (p ^^^ q) ∧
    gives (.sll sd g env) .sll (p <<< (q.toNat % 64)) ∧
    gives (.srl sd g env) .srl (p >>> (q.toNat % 64)) ∧
    gives (.sra sd g env) .sra (p.sshiftRight (q.toNat % 64)) ∧
    gives (.slt sd g env) .slt (if p.toInt < q.toInt then 1 else 0) ∧
    gives (.sltu sd g env) .sltu (if p.toNat < q.toNat then 1 else 0) ∧
    gives (.mul sd g env) .mul (p * q) ∧
    gives (.mulh sd g env) .mulh (BitVec.ofInt 64 ((p.toInt * q.toInt) / (2 ^ 64 : Int))) ∧
    gives (.mulhu sd g env) .mulhu (BitVec.ofNat 64 (p.toNat * q.toNat / 2 ^ 64)) ∧
    gives (.div sd g env) .div (if q = 0 then 0xFFFF_FFFF_FFFF_FFFF else BitVec.ofInt 64 (p.toInt.tdiv q.toInt)) ∧
    gives (.divu sd g env) .divu (if q = 0 then 0xFFFF_FFFF_FFFF_FFFF else BitVec.ofNat 64 (p.toNat / q.toNat)) ∧
    gives (.rem sd g env) .rem (if q = 0 then p else BitVec.ofInt 64 (p.toInt.tmod q.toInt)) ∧
    gives (.remu sd g env) .remu (if q = 0 then p else BitVec.ofNat 64 (p.toNat % q.toNat))

/-- R65, R68: the immediate instructions combine rs1 with the sign-extended imm16, or shift it by imm[5:0]; LUI writes imm16 << 16,
sign-extended. -/
def Obligations.ImmediateArithmetic : Prop :=
  ∀ (s : State) (sd : SideId) (g : Nat) (env : Env) (w d b i : Nat),
    let x := s.side sd
    let p := (x.groom g).rx b
    let e := BitVec.ofInt 64 (signed 16 i)
    let gives (c : Instr) (o : ImmOp) (v : Word) : Prop :=
      x.fetches g env w (.imm o d b i) → s.retires c sd g env ((x.groom g).wx d v).next
    gives (.addi sd g env) .addi (p + e) ∧
    gives (.andi sd g env) .andi (p &&& e) ∧
    gives (.ori sd g env) .ori (p ||| e) ∧
    gives (.xori sd g env) .xori (p ^^^ e) ∧
    gives (.slti sd g env) .slti (if p.toInt < e.toInt then 1 else 0) ∧
    gives (.slli sd g env) .slli (p <<< (i % 64)) ∧
    gives (.srli sd g env) .srli (p >>> (i % 64)) ∧
    gives (.srai sd g env) .srai (p.sshiftRight (i % 64)) ∧
    (x.fetches g env w (.lui d i) → s.retires (.lui sd g env) sd g env ((x.groom g).wx d (e <<< 16)).next)

/-- R57: x0 reads zero and discards writes; a write of another general register is read back and leaves the rest. -/
def Obligations.GeneralRegisters : Prop :=
  ∀ (r : Groom) (i j : Nat) (v : Word),
    r.rx 0 = 0 ∧ r.wx 0 v = r ∧
    (i ≠ 0 → i < r.x.length → (r.wx i v).rx i = v) ∧ (j ≠ i → (r.wx i v).rx j = r.rx j) ∧
    r.rp 0 = BitVec.allOnes 64 ∧ r.wp 0 v = r

/-- R12, R65, R68, R69: an aligned load of device memory or of local memory writes the value there into rd, sign- or zero-extended,
and LD above level 0 the value of a register; nothing else changes but what a register's read clears or latches. Where a memory is protected
from reading (R291), poisoned, cut off (R33) or in error the load does not complete so. -/
def Obligations.Loads : Prop :=
  ∀ (s : State) (sd : SideId) (g : Nat) (env : Env) (w d b i : Nat),
    let x := s.side sd
    let r := x.groom g
    let a := (r.rx b + BitVec.ofInt 64 (signed 16 i)).toNat
    let gives (c : Instr) (o : LoadOp) (n : Nat) (ext : Nat → Word) : Prop :=
      x.fetches g env w (.load o d b i) → a % n = 0 →
        (∀ l, x.place a n = .mem l → x.readGuarded 0x10 l n = false → (x.met g env).poisoned l n = false →
          s.retires c sd g env (r.wx d (ext (x.num l n))).next) ∧
        (∀ l, x.place a n = .loc l → env.eccData = false →
          s.retires c sd g env (r.wx d (ext (fromBytes ((Store.mk r.lmem []).bytes l n)))).next)
    gives (.lb sd g env) .lb 1 (fun v => BitVec.ofInt 64 (signed 8 v)) ∧
    gives (.lh sd g env) .lh 2 (fun v => BitVec.ofInt 64 (signed 16 v)) ∧
    gives (.lw sd g env) .lw 4 (fun v => BitVec.ofInt 64 (signed 32 v)) ∧
    gives (.ld sd g env) .ld 8 (fun v => BitVec.ofNat 64 v) ∧
    gives (.lbu sd g env) .lbu 1 (fun v => BitVec.ofNat 64 v) ∧
    gives (.lhu sd g env) .lhu 2 (fun v => BitVec.ofNat 64 v) ∧
    gives (.lwu sd g env) .lwu 4 (fun v => BitVec.ofNat 64 v) ∧
    (x.fetches g env w (.vld d b i) →
      let a := (r.rx b + BitVec.ofInt 64 (signed 16 i) * 64).toNat
      a % 64 = 0 →
        (∀ l, x.place a 64 = .mem l → x.readGuarded 0x10 l 64 = false → (x.met g env).poisoned l 64 = false →
          s.retires (.vld sd g env) sd g env (r.wv d (BitVec.ofNat 512 (x.num l 64))).next) ∧
        (∀ l, x.place a 64 = .loc l → env.eccData = false →
          s.retires (.vld sd g env) sd g env (r.wv d (BitVec.ofNat 512 (fromBytes ((Store.mk r.lmem []).bytes l 64)))).next)) ∧
    (x.fetches g env w (.load .ld d b i) → a % 8 = 0 → ∀ k, x.place a 8 = .reg k → r.pl ≠ 0 →
      s.retires (.ld sd g env) sd g env (r.wx d ((x.met g env).busRead k).1).next []
        (fun j => j = k ∨ (k = Reg.DT_NOW ∧ j = Reg.DT_FRAC)))

/-- R65, R68, R69: an aligned store to device memory that is not protected writes the low bytes of rs2, least significant first, at
rs1 + imm16 and no other byte; one to local memory writes there and nothing else. SD above level 0 to a register is a write of that
register at the Groom's level (R12, R19). -/
def Obligations.Stores : Prop :=
  ∀ (s : State) (sd : SideId) (g : Nat) (env : Env) (w d b i : Nat),
    let x := s.side sd
    let r := x.groom g
    let gives (c : Instr) (k : GInstr) (a n v : Nat) : Prop :=
      x.fetches g env w k → a % n = 0 →
        (∀ l, x.place a n = .mem l → x.writeGuarded 0x10 l n = false →
          s.does c sd (fun x y =>
            (∀ m, y.mem.get m = if l ≤ m ∧ m < l + n then (toBytes n v).getD (m - l) 0 else x.mem.get m) ∧
            (y.groom g).x = r.x ∧ (y.groom g).v = r.v ∧ (y.groom g).p = r.p ∧ (y.groom g).ctl = r.ctl ∧
            (y.groom g).lmem = r.lmem ∧ (y.groom g).pc = (r.pc + 4) % 2 ^ 64 ∧
            (∀ h, h ≠ g → (y.groom h).plain = (x.groom h).plain) ∧
            x.keptByGroom y env [.cells, .poison] (fun _ => False))) ∧
        (∀ l, x.place a n = .loc l →
          s.does c sd (fun x y =>
            (∀ m, (Store.mk (y.groom g).lmem []).get m =
              if l ≤ m ∧ m < l + n then (toBytes n v).getD (m - l) 0 else (Store.mk r.lmem []).get m) ∧
            (y.groom g).x = r.x ∧ (y.groom g).v = r.v ∧ (y.groom g).p = r.p ∧ (y.groom g).ctl = r.ctl ∧
            (y.groom g).pc = (r.pc + 4) % 2 ^ 64 ∧
            (∀ h, h ≠ g → (y.groom h).plain = (x.groom h).plain) ∧ x.keptByGroom y env [] (fun _ => False)))
    let a := (r.rx b + BitVec.ofInt 64 (signed 16 i)).toNat
    gives (.sb sd g env) (.store .sb d b i) a 1 ((r.rx d).toNat % 2 ^ 8) ∧
    gives (.sh sd g env) (.store .sh d b i) a 2 ((r.rx d).toNat % 2 ^ 16) ∧
    gives (.sw sd g env) (.store .sw d b i) a 4 ((r.rx d).toNat % 2 ^ 32) ∧
    gives (.sd sd g env) (.store .sd d b i) a 8 (r.rx d).toNat ∧
    gives (.vst sd g env) (.vst d b i) (r.rx b + BitVec.ofInt 64 (signed 16 i) * 64).toNat 64 (r.rv d).toNat ∧
    (x.fetches g env w (.store .sd d b i) → a % 8 = 0 → ∀ k x', x.place a 8 = .reg k → r.pl ≠ 0 →
      ((x.met g env).advance g).busWrite r.pl k (r.rx d) = (true, x') →
      exec (.sd sd g env) s = .next (s.setSide sd
        (x.after (fun _ => (x'.lineErrors none env.errs true).leftFlight g r.pc w r.pl true))))

/-- R68 to R70: an atomic at 8-byte aligned, unprotected, unpoisoned device memory gives the old value in rd and leaves old + rs2, rs2, or,
where the old value equals rd, rs2; no other byte changes. -/
def Obligations.Atomics : Prop :=
  ∀ (s : State) (sd : SideId) (g : Nat) (env : Env) (w d b c l : Nat),
    let x := s.side sd
    let r := x.groom g
    let a := (r.rx b).toNat
    let old := BitVec.ofNat 64 (x.num l 8)
    let gives (i : Instr) (o : AmoOp) (new : Word) : Prop :=
      x.fetches g env w (.amo o d b c) → a % 8 = 0 → x.place a 8 = .mem l → x.readGuarded 0x10 l 8 = false →
        x.writeGuarded 0x10 l 8 = false → (x.met g env).poisoned l 8 = false →
        s.does i sd (fun x y =>
          (∀ m, y.mem.get m = if l ≤ m ∧ m < l + 8 then (toBytes 8 new.toNat).getD (m - l) 0 else x.mem.get m) ∧
          (y.groom g).x = (r.wx d old).x ∧ (y.groom g).v = r.v ∧ (y.groom g).p = r.p ∧ (y.groom g).ctl = r.ctl ∧
          (y.groom g).lmem = r.lmem ∧ (y.groom g).pc = (r.pc + 4) % 2 ^ 64 ∧
          (∀ h, h ≠ g → (y.groom h).plain = (x.groom h).plain) ∧ x.keptByGroom y env [.cells, .poison] (fun _ => False))
    gives (.amoadd sd g env) .add (old + r.rx c) ∧
    gives (.amoswp sd g env) .swap (r.rx c) ∧
    gives (.amocas sd g env) .cas (if old = r.rx d then r.rx c else old)

/-- R65, R68: a branch goes to pc + 4 × off16 where its relation holds and to the next instruction otherwise; JAL links x31 and
goes to pc + 4 × off26; JALR links rd and goes to rs1 + imm16 with bits [1:0] cleared. -/
def Obligations.BranchesAndJumps : Prop :=
  ∀ (s : State) (sd : SideId) (g : Nat) (env : Env) (w b c f : Nat),
    let x := s.side sd
    let r := x.groom g
    let p := r.rx b
    let q := r.rx c
    let gives (i : Instr) (o : BrOp) (taken : Prop) : Prop :=
      x.fetches g env w (.br o b c f) →
        (taken → s.retires i sd g env { r with pc := (((r.pc : Int) + 4 * signed 16 f) % (2 ^ 64 : Int)).toNat }) ∧
        (¬taken → s.retires i sd g env r.next)
    gives (.beq sd g env) .beq (p = q) ∧
    gives (.bne sd g env) .bne (p ≠ q) ∧
    gives (.blt sd g env) .blt (p.toInt < q.toInt) ∧
    gives (.bge sd g env) .bge (q.toInt ≤ p.toInt) ∧
    gives (.bltu sd g env) .bltu (p.toNat < q.toNat) ∧
    gives (.bgeu sd g env) .bgeu (q.toNat ≤ p.toNat) ∧
    (x.fetches g env w (.jal f) → s.retires (.jal sd g env) sd g env
      { r.wx 31 (BitVec.ofNat 64 (r.pc + 4)) with pc := (((r.pc : Int) + 4 * signed 26 f) % (2 ^ 64 : Int)).toNat }) ∧
    (x.fetches g env w (.jalr b c f) → s.retires (.jalr sd g env) sd g env
      { r.wx b (BitVec.ofNat 64 (r.pc + 4)) with
        pc := (r.rx c + BitVec.ofInt 64 (signed 16 f)).toNat / 4 * 4 })

/-- R65, R71 to R73: in every active lane of vd a vector instruction leaves the value of its operation on the same lanes of its sources, rounded
once for floating point, and every inactive lane keeps its value; of two zeros of different sign, or one NaN, VMIN and VMAX leave one of the
two or the canonical NaN (log entry 48); VREDSUM writes lane 0 alone and VCVT the lanes its source has (log entry 98). A predicate
instruction writes pd (p0 discards it). Nothing else changes. -/
def Obligations.VectorsAndPredicates : Prop :=
  ∀ (s : State) (sd : SideId) (g : Nat) (env : Env) (w d a b pg t : Nat),
    let x := s.side sd
    let r := x.groom g
    let n := elemBytes t
    let width := 8 * n
    let fl := elemFlt t
    let la (k : Nat) : Nat := lane (r.rv a) width k
    let lb (k : Nat) : Nat := lane (r.rv b) width k
    let ld (k : Nat) : Nat := lane (r.rv d) width k
    let va (k : Nat) : FVal := fl.ieee (la k)
    let vb (k : Nat) : FVal := fl.ieee (lb k)
    let active (k : Nat) : Bool := (r.rp pg).getLsbD (n * k)
    let only (y : Side) : Prop :=
      (∀ e, e ≠ d → (y.groom g).rv e = r.rv e) ∧ (y.groom g).x = r.x ∧ (y.groom g).p = r.p ∧ (y.groom g).ctl = r.ctl ∧
      (y.groom g).lmem = r.lmem ∧ (y.groom g).pc = (r.pc + 4) % 2 ^ 64 ∧
      (∀ h, h ≠ g → (y.groom h).plain = (x.groom h).plain) ∧ x.keptByGroom y env [] (fun _ => False)
    let lanes (i : Instr) (o : VOp) (val : Nat → Nat → Prop) : Prop :=
      x.fetches g env w (.vec o d a b pg t) → d < r.v.length → s.does i sd (fun _ y => only y ∧
        ∀ k, k < 64 / n → if active k then val k (lane ((y.groom g).rv d) width k) else lane ((y.groom g).rv d) width k = ld k)
    let arith (i : Instr) (o : VOp) (whole : Nat → Nat → Nat) (real : FVal → FVal → FVal) : Prop :=
      lanes i o (fun k z => z = (if t < 4 then whole (la k) (lb k) else fl.enc (real (va k) (vb k))) % 2 ^ width)
    let extreme (i : Instr) (o : VOp) (less : Nat → Bool) (lt : Nat → Bool) (gt : Nat → Bool) : Prop :=
      lanes i o (fun k z =>
        (t < 4 → z = (if less k then la k else lb k)) ∧
        (4 ≤ t → (z = la k ∨ z = lb k ∨ z = fl.enc .nan % 2 ^ width) ∧ (lt k = true → z = la k) ∧ (gt k = true → z = lb k) ∧
          ((va k).isNan = true → (vb k).isNan = true → z = fl.enc .nan % 2 ^ width)))
    let bits (i : Instr) (o : VOp) (f : Nat → Nat → Nat) : Prop := t < 4 → lanes i o (fun k z => z = f (la k) (lb k) % 2 ^ width)
    let sum : Nat :=
      let ks := (upTo (64 / n)).filter active
      if t < 4 then ks.foldl (fun z k => z + la k) 0
      else match ks with
        | [] => 0
        | k :: ks => ks.foldl (fun z k => fl.enc ((fl.ieee z).add (va k))) (if (va k).isNan then fl.enc .nan else la k)
    let src := elemFlt (b % 8)
    let wide := 8 * elemBytes (b % 8)
    let from' (k : Nat) : Nat := lane (r.rv a) wide k
    let cmp (i : Instr) (o : POp) (f : Nat → Nat → Bool) : Prop :=
      x.fetches g env w (.pred o d a b pg) → s.does i sd (fun x y =>
        (∀ k, k < 64 → d ≠ 0 → d < r.p.length → ((y.groom g).rp d).getLsbD k = f (lane (r.rv a) 8 k) (lane (r.rv b) 8 k)) ∧
        (∀ e, e ≠ d → (y.groom g).rp e = r.rp e) ∧ (y.groom g).x = r.x ∧ (y.groom g).v = r.v ∧
        (y.groom g).ctl = r.ctl ∧ (y.groom g).lmem = r.lmem ∧ (y.groom g).pc = (r.pc + 4) % 2 ^ 64 ∧
        (∀ h, h ≠ g → (y.groom h).plain = (x.groom h).plain) ∧ x.keptByGroom y env [] (fun _ => False))
    let bitwise (i : Instr) (o : POp) (v : Word) : Prop :=
      x.fetches g env w (.pred o d a b pg) → s.retires i sd g env (r.wp d v).next
    arith (.vadd sd g env) .add (fun u v => u + v) FVal.add ∧
    arith (.vsub sd g env) .sub (fun u v => u + 2 ^ width - v) FVal.sub ∧
    arith (.vmul sd g env) .mul (fun u v => u * v) FVal.mul ∧
    (4 ≤ t → lanes (.vfma sd g env) .fma (fun k z => z = fl.enc ((fl.ieee (ld k)).add ((va k).mul (vb k))) % 2 ^ width)) ∧
    extreme (.vmin sd g env) .min (fun k => decide (signed width (la k) < signed width (lb k))) (fun k => (va k).lt (vb k)) (fun k => (vb k).lt (va k)) ∧
    extreme (.vmax sd g env) .max (fun k => decide (signed width (lb k) ≤ signed width (la k))) (fun k => (vb k).lt (va k)) (fun k => (va k).lt (vb k)) ∧
    bits (.vand sd g env) .and (fun u v => u &&& v) ∧
    bits (.vor sd g env) .or (fun u v => u ||| v) ∧
    bits (.vxor sd g env) .xor (fun u v => u ^^^ v) ∧
    bits (.vsll sd g env) .sll (fun u v => u * 2 ^ (v % width)) ∧
    bits (.vsra sd g env) .sra (fun u v => unsigned width ((signed width u).fdiv ((2 ^ (v % width) : Nat) : Int))) ∧
    lanes (.vbcast sd g env) .bcast (fun _ z => z = (if t < 4 then (r.rx a).toNat else fl.enc (FVal.ofInt (r.rx a).toInt)) % 2 ^ width) ∧
    lanes (.vsel sd g env) .sel (fun k z => z = if (r.rp (b % 8)).getLsbD (n * k) then la k else ld k) ∧
    (t = 0 → lanes (.vperm sd g env) .perm (fun k z => z = la (lb k % 64))) ∧
    (x.fetches g env w (.vec .redsum d a b pg t) → d < r.v.length → s.does (.vredsum sd g env) sd (fun _ y => only y ∧
      lane ((y.groom g).rv d) width 0 = sum % 2 ^ width ∧
      ∀ k, 0 < k → k < 64 / n → lane ((y.groom g).rv d) width k = ld k)) ∧
    lanes (.vcvt sd g env) .cvt (fun k z => if 64 / elemBytes (b % 8) ≤ k then z = ld k
      else z = (if 4 ≤ t then fl.enc (if 4 ≤ b % 8 then src.ieee (from' k) else FVal.ofInt (signed wide (from' k)))
        else if 4 ≤ b % 8 then satInt width (src.ieee (from' k)) else unsigned width (signed wide (from' k))) % 2 ^ width) ∧
    cmp (.vcmpeq sd g env) .cmpeq (fun u v => u == v) ∧
    cmp (.vcmplt sd g env) .cmplt (fun u v => decide (signed 8 u < signed 8 v)) ∧
    cmp (.vcmpltu sd g env) .cmpltu (fun u v => decide (u < v)) ∧
    bitwise (.pand sd g env) .and (r.rp (a % 8) &&& r.rp (b % 8)) ∧
    bitwise (.por sd g env) .or (r.rp (a % 8) ||| r.rp (b % 8)) ∧
    bitwise (.pnot sd g env) .not (~~~(r.rp (a % 8)))

/-- R74, R75, R99 to R101: CTLR copies a listed ctl register that its level may read into rd; CTLW sets the RW bits of one that its
level may write, with no reserved bit set, ctl.sreq.PENDING only towards 0; a CTLW of ctl.role that need not wait takes the new role,
advances the epoch past 0, clears the grants and sends every waiting message back. -/
def Obligations.ControlRegisters : Prop :=
  ∀ (s : State) (sd : SideId) (g : Nat) (env : Env) (w d b n : Nat) (c : CtlSpec),
    let x := s.side sd
    let r := x.groom g
    let v := r.rx b
    let may := (∃ l, c.writeLvl = some l ∧ l ≤ r.pl) ∧ v.toNat &&& (2 ^ 64 - 1 - (c.rw ||| c.ro)) = 0
    ctlSpec n = some c →
    (x.fetches g env w (.ctlr d n) → c.readLvl ≤ r.pl →
      s.retires (.ctlr sd g env) sd g env
        (r.wx d (if n = 0x022 then BitVec.ofNat 64 (g + 256 * x.id) else r.ctlGet n)).next) ∧
    (x.fetches g env w (.ctlw b n) → may → n ≠ 0x010 → n ≠ 0x018 →
      s.retires (.ctlw sd g env) sd g env
        (r.ctlSet n (BitVec.ofNat 64 (((r.ctlGet n).toNat &&& c.ro) ||| (v.toNat &&& c.rw)))).next) ∧
    (x.fetches g env w (.ctlw b n) → may → n = 0x018 →
      s.retires (.ctlw sd g env) sd g env (if v.flag 0 then r else r.ctlSet n ((r.ctlGet n).put 0 1 0)).next) ∧
    (x.fetches g env w (.ctlw b n) → may → n = 0x010 → x.roleStalls g = false →
      s.does (.ctlRoleWrite sd g env) sd (fun x y =>
        let q := y.groom g
        let e := (r.ctlGet 0x010).fld 16 16
        q.ctlGet 0x010 = BitVec.ofNat 64 (v.fld 0 16 + 65536 * (if e = 0xFFFF then 1 else e + 1)) ∧
        q.ctlGet 0x011 = 0 ∧ q.ctlGet 0x012 = 0 ∧ q.ctlGet 0x013 = 0 ∧ q.ctlGet 0x015 = 0 ∧
        q.recvQ = [] ∧ y.returns = x.returns ++ r.recvQ ∧
        y.fld (Reg.GR_MSGCNT g) 48 16 = min 65535 (x.fld (Reg.GR_MSGCNT g) 48 16 + r.recvQ.length) ∧
        q.x = r.x ∧ q.v = r.v ∧ q.p = r.p ∧ q.lmem = r.lmem ∧ q.pc = (r.pc + 4) % 2 ^ 64 ∧
        (∀ h, h ≠ g → (y.groom h).plain = (x.groom h).plain) ∧
        x.keptByGroom y env [.returns] (fun k => k = Reg.GR_MSGCNT g)))

/-- R77 to R79, R122: ENQ and ENQM, of a queue that the Groom's level may use and that is not full, write 64 bytes into the slot at CQ_TAIL
mod N, advance CQ_TAIL and give 0 in rd; a full ring gives 1 and nothing is written; QSPACE gives N − (CQ_TAIL − CQ_HEAD). -/
def Obligations.EngineIssue : Prop :=
  ∀ (s : State) (sd : SideId) (g : Nat) (env : Env) (w d b c : Nat),
    let x := s.side sd
    let r := x.groom g
    let q := (r.rx b).toNat
    let n := 16 * 2 ^ x.fld (Reg.CQ_CFG q) 8 4
    let tail := x.fld (Reg.CQ_TAIL q) 0 32
    let used := (tail + 2 ^ 32 - x.fld (Reg.CQ_HEAD q) 0 32) % 2 ^ 32
    let slot := (x.fld (Reg.CQ_RING q) 6 58 * 64 + tail % n * 64) % 2 ^ 46
    let takes (i : Instr) (bs : List Byte) : Prop :=
      s.does i sd (fun x y =>
        (∀ m, y.mem.get m = if slot ≤ m ∧ m < slot + 64 then bs.getD (m - slot) 0 else x.mem.get m) ∧
        y.fld (Reg.CQ_TAIL q) 0 32 = (tail + 1) % 2 ^ 32 ∧ x.onlyGroom y g (r.wx d 0).next ∧
        x.keptByGroom y env [.cells, .poison] (fun k => k = Reg.CQ_TAIL q))
    q ≤ 63 → (r.pl ≠ 0 ∨ (r.ctlGet 0x012).flag q = true) →
    (x.fetches g env w (.enq d b c) → used ≠ n → x.part.populated slot 64 = true → x.writeGuarded 0x10 slot 64 = false →
      takes (.enq sd g env) (toBytes 64 (r.rv c).toNat)) ∧
    (x.fetches g env w (.enqm d b c) → used ≠ n → x.part.populated slot 64 = true → x.writeGuarded 0x10 slot 64 = false →
      ∀ l, (r.rx c).toNat % 64 = 0 → x.place (r.rx c).toNat 64 = .loc l → env.eccData = false →
      takes (.enqm sd g env) ((Store.mk r.lmem []).bytes l 64)) ∧
    (x.fetches g env w (.enq d b c) → used = n → s.retires (.enq sd g env) sd g env (r.wx d 1).next) ∧
    (x.fetches g env w (.qspace d b) → s.retires (.qspace sd g env) sd g env (r.wx d (BitVec.ofNat 64 (n - used))).next)

/-- R76, R80 to R82, R154: TSIG adds rs2 to a tether modulo 2^64; TREAD gives its value; TWAIT gives DONE at once where it is at the target,
and otherwise the Groom waits where it is. The tether is below 8192 and, at level 0, in the Groom's window. -/
def Obligations.TetherInstructions : Prop :=
  ∀ (s : State) (sd : SideId) (g : Nat) (env : Env) (w d b c : Nat),
    let x := s.side sd
    let r := x.groom g
    let t := (r.rx b).toNat
    let first := (r.ctlGet 0x014).fld 0 13
    t ≤ 8191 → (r.pl ≠ 0 ∨ (first ≤ t ∧ t < first + (r.ctlGet 0x015).fld 0 14)) →
    (x.fetches g env w (.tsig b c) → s.does (.tsig sd g env) sd (fun x y =>
      y.rd (Reg.TE_VALUE t) = x.rd (Reg.TE_VALUE t) + r.rx c ∧ x.onlyGroom y g r.next ∧
      x.keptByGroom y env [] (fun k => k = Reg.TE_VALUE t))) ∧
    (x.fetches g env w (.tread d b) → s.retires (.tread sd g env) sd g env (r.wx d (x.rd (Reg.TE_VALUE t))).next) ∧
    (x.fetches g env w (.twait d b c) → (r.rx c).toNat ≤ (x.rd (Reg.TE_VALUE t)).toNat →
      s.retires (.twait sd g env) sd g env (r.wx d 0).next) ∧
    (x.fetches g env w (.twait d b c) → (x.rd (Reg.TE_VALUE t)).toNat < (r.rx c).toNat →
      s.retires (.twait sd g env) sd g env
        { r with wait := .twait d t (r.rx c).toNat (r.ctlGet 0x020).toNat false })

/-- R84, R85, R103 to R105: MSEND, where it may send, puts the message with its own instance as SENDER into the send buffer and gives 0, or
gives 1 where the buffer is full and 2 where the destination does not exist; MRECV and MERR pop the oldest entry of their queue; MCOUNT
counts it. -/
def Obligations.MessageInstructions : Prop :=
  ∀ (s : State) (sd : SideId) (g : Nat) (env : Env) (w d b c : Nat),
    let x := s.side sd
    let r := x.groom g
    let m : BitVec 512 := BitVec.ofNat 512 (putBits (r.rv b).toNat 48 16 g)
    let goal := bits m.toNat 0 16
    (x.fetches g env w (.msend d b) → (r.pl ≠ 0 ∨ (r.ctlGet 0x011).flag 0 = true) →
      s.retires (.msend sd g env) sd g env
        (if x.part.grooms ≤ goal then r.wx d 2 else if 8 ≤ r.sendQ.length then r.wx d 1
         else ({ r with sendQ := r.sendQ ++ [m] }).wx d 0).next) ∧
    (x.fetches g env w (.mrecv d c) → s.retires (.mrecv sd g env) sd g env
      (match r.recvQ with
        | [] => r.wx c 1
        | a :: q => (({ r with recvQ := q }).wv d a).wx c 0).next) ∧
    (x.fetches g env w (.merr d c) → s.retires (.merr sd g env) sd g env
      (match r.errQ with
        | [] => r.wx c 0
        | a :: q => (({ r with errQ := q }).wv d a).wx c 0x0503).next) ∧
    (x.fetches g env w (.mcount d b) → s.retires (.mcount sd g env) sd g env
      (r.wx d (BitVec.ofNat 64 (if (r.rx b).toNat = 0 then r.recvQ.length
        else if (r.rx b).toNat = 1 then r.errQ.length else 0))).next)

/-- R102, R105 to R108: the oldest message to a destination with room is placed in its receive queue where role and epoch match and the
epoch is not 0, and counted; otherwise it goes back and is counted; a returned message is placed in its sender's error queue, or lost and
counted where that is full. -/
def Obligations.MessageTransfer : Prop :=
  ∀ (s : State) (sd : SideId) (a b : Nat) (m : BitVec 512),
    let x := s.side sd
    let role := (x.groom b).ctlGet 0x010
    let fits := bits m.toNat 16 16 = role.fld 0 16 ∧ bits m.toNat 32 16 = role.fld 16 16 ∧ role.fld 16 16 ≠ 0
    x.live = true → a < x.part.grooms → b < x.part.grooms → a < x.grooms.length → b < x.grooms.length →
    ((x.groom a).sendQ.find? (fun m => bits m.toNat 0 16 == b) = some m → (x.groom b).recvQ.length < 32 → fits →
      s.does (.messageDeliver sd a b) sd (fun x y =>
        (y.groom a).sendQ = (x.groom a).sendQ.erase m ∧ (y.groom b).recvQ = (x.groom b).recvQ ++ [m] ∧
        y.fld (Reg.GR_MSGCNT b) 0 16 = min 65535 (x.fld (Reg.GR_MSGCNT b) 0 16 + 1) ∧
        (∀ h, (y.groom h).x = (x.groom h).x ∧ (y.groom h).v = (x.groom h).v ∧ (y.groom h).pc = (x.groom h).pc ∧
          (y.groom h).ctl = (x.groom h).ctl ∧ (y.groom h).errQ = (x.groom h).errQ) ∧
        x.keptBut y [.grooms] (fun k => k = Reg.GR_MSGCNT b))) ∧
    ((x.groom a).sendQ.find? (fun m => bits m.toNat 0 16 == b) = some m → (x.groom b).recvQ.length < 32 → ¬fits →
      s.does (.messageDeliver sd a b) sd (fun x y =>
        (y.groom a).sendQ = (x.groom a).sendQ.erase m ∧ (y.groom b).recvQ = (x.groom b).recvQ ∧ y.returns = x.returns ++ [m] ∧
        y.fld (Reg.GR_MSGCNT b) 48 16 = min 65535 (x.fld (Reg.GR_MSGCNT b) 48 16 + 1) ∧
        x.keptBut y [.grooms, .returns] (fun k => k = Reg.GR_MSGCNT b))) ∧
    (x.returns.find? (fun m => bits m.toNat 48 16 == a) = some m → (x.groom a).errQ.length < 16 →
      s.does (.messageReturn sd a) sd (fun x y =>
        y.returns = x.returns.erase m ∧ (y.groom a).errQ = (x.groom a).errQ ++ [m] ∧
        y.fld (Reg.GR_MSGCNT a) 32 16 = min 65535 (x.fld (Reg.GR_MSGCNT a) 32 16 + 1) ∧
        x.keptBut y [.grooms, .returns, .pm] (fun k => k = Reg.GR_MSGCNT a ∨ k / 0x1000000 = 0x13))) ∧
    (x.returns.find? (fun m => bits m.toNat 48 16 == a) = some m → 16 ≤ (x.groom a).errQ.length →
      s.does (.messageReturn sd a) sd (fun x y =>
        y.returns = x.returns.erase m ∧ (y.groom a).errQ = (x.groom a).errQ ∧
        y.fld (Reg.GR_MSGCNT a) 16 16 = min 65535 (x.fld (Reg.GR_MSGCNT a) 16 16 + 1) ∧
        x.keptBut y [.returns, .pm] (fun k => k = Reg.GR_MSGCNT a ∨ k / 0x1000000 = 0x13)))

/-- R63, R86 to R88, R242: on a Race slot that the Groom may use, RPOP gives the next readable word with its tag (valid bytes, end mark, and
whether it fails: its parity, or a byte that was poisoned), whether or not it has been upset in its queue, and moves the read pointer, or bit 63 of the tag where there is none; RMARK, RREWIND and RRELEASE move the mark and the pointer; RCOUNT counts
whole packets waiting. -/
def Obligations.RaceInstructions : Prop :=
  ∀ (s : State) (sd : SideId) (g : Nat) (env : Env) (w d b c : Nat),
    let x := s.side sd
    let r := x.groom g
    let t := (r.rx b).toNat
    let q := x.ing.slots.getD t Slot.reset
    let slotBecomes (i : Instr) (q' : Slot) (r' : Groom) : Prop :=
      s.does i sd (fun x y => y.ing = { x.ing with slots := x.ing.slots.set t q' } ∧ x.onlyGroom y g r' ∧
        x.keptByGroom y env [.ing] (fun _ => False))
    g < 16 → t ≤ 31 → (r.pl ≠ 0 ∨ (r.ctlGet 0x013).flag t = true) →
    (∀ a, x.fetches g env w (.rpop d b c) → env.eccData = false → q.pos < q.readable → q.words[q.pos]? = some a →
      s.does (.rpop sd g env) sd (fun x y =>
        y.ing = { x.ing with slots := x.ing.slots.set t { q with pos := q.pos + 1 } } ∧
        x.onlyGroom y g ((r.wv d (BitVec.ofNat 512 a.data)).wx c
          (BitVec.ofNat 64 (a.tag + (if a.fails then 512 else 0)))).next ∧
        y.fld (Reg.IN_SSTAT t) 16 16 =
          (if a.fails then min 65535 (x.fld (Reg.IN_SSTAT t) 16 16 + 1) else x.fld (Reg.IN_SSTAT t) 16 16) ∧
        x.keptByGroom y env [.ing] (fun k => k = Reg.IN_SSTAT t))) ∧
    (∀ a, x.fetches g env w (.rpop d b c) → env.eccData = true → q.pos < q.readable → q.words[q.pos]? = some a → t < x.ing.slots.length →
      s.does (.rpop sd g env) sd (fun x y => (y.slot t).pos = q.pos + 1 ∧ (∀ i, i ≠ t → y.slot i = x.slot i) ∧
        (∀ h, h ≠ g → (y.groom h).plain = (x.groom h).plain) ∧ x.keptByGroom y env [.ing] (fun k => k = Reg.IN_SSTAT t))) ∧
    (x.fetches g env w (.rpop d b c) → q.readable ≤ q.pos → env.eccData = false →
      s.retires (.rpop sd g env) sd g env (r.wx c (BitVec.ofNat 64 (2 ^ 63))).next) ∧
    (x.fetches g env w (.rmark b) → slotBecomes (.rmark sd g env) { q with mark := some q.pos } r.next) ∧
    (x.fetches g env w (.rrewind b) → slotBecomes (.rrewind sd g env) { q with pos := q.mark.getD 0 } r.next) ∧
    (x.fetches g env w (.rrelease b) → slotBecomes (.rrelease sd g env)
      { q with words := q.words.drop q.pos, readable := q.readable - q.pos, pos := 0, mark := none } r.next) ∧
    (x.fetches g env w (.rcount d b) → s.retires (.rcount sd g env) sd g env
      (r.wx d (BitVec.ofNat 64 (((q.words.take q.readable).drop q.pos).filter (fun a => a.last)).length)).next)

/-- R89, R90, R171: DTIME gives the nanoseconds of a Datum time within 4 ns of the side's counter that never goes back on the Groom, and
latches its fraction; PCRD, where it may, gives a counter of the Groom's monitor, and 0 for a number above 8. -/
def Obligations.TimeAndCounters : Prop :=
  ∀ (s : State) (sd : SideId) (g : Nat) (env : Env) (w d b : Nat),
    let x := s.side sd
    let r := x.groom g
    let i := (r.rx b).toNat
    (x.fetches g env w (.dtime d) → s.does (.dtime sd g env) sd (fun x y => ∃ t, x.groomTime g t ∧
      x.onlyGroom y g ((({ r.ctlSet 0x021 (BitVec.ofNat 64 (t % 65536)) with lastDt := t }).wx d
        (BitVec.ofNat 64 (t / 65536))).next) ∧
      x.keptByGroom y env [] (fun _ => False))) ∧
    (x.fetches g env w (.pcrd d b) → (r.pl ≠ 0 ∨ (r.ctlGet 0x011).flag 1 = true) →
      s.retires (.pcrd sd g env) sd g env
        (r.wx d (if i = 0 then x.rd (Reg.PM_CYCLES (1 + g)) else if i ≤ 8 then x.rd (Reg.PM_COUNT (1 + g) i) else 0)).next)

/-- R82, R83, R91: ERET above level 0 takes the pc, the level and the enable from the level's saved state; FENCE only goes on, as does
FENCE.I, after which later fetches see every earlier store; WFE goes on where an enabled interrupt is pending at the Groom's
Datum time (R171) or a message waits, and otherwise waits until then; a blocked TWAIT whose tether reached its target in time ends with DONE, one whose deadline has passed with
TIMEOUT. -/
def Obligations.SystemInstructionsAndWaits : Prop :=
  ∀ (s : State) (sd : SideId) (g : Nat) (env : Env) (w d t v dl : Nat) (met : Bool),
    let x := s.side sd
    let r := x.groom g
    let epc := (r.ctlGet (ctlBase r.pl)).toNat
    let waiting := x.live = true ∧ g < x.grooms.length ∧ r.halted = false
    let ends (i : Instr) (r' : Groom) : Prop :=
      s.does i sd (fun x y => x.onlyGroom y g r' ∧ x.keptBut y [.grooms] (fun _ => False))
    let goes (t : Nat) : Prop := (∃ i, i < 4 ∧ (r.ctlGet 0x016).flag i = true ∧ r.pends i t = true) ∨ r.recvQ ≠ []
    (x.fetches g env w (.sys .eret) → r.pl ≠ 0 → epc % 4 = 0 → s.does (.eret sd g env) sd (fun x y =>
      let q := y.groom g
      q.pc = epc ∧ q.pl = min 2 ((r.ctlGet 0).fld 4 2) ∧ q.ie = (r.ctlGet 0).flag 3 ∧
      (∀ n, n ≠ 0 → q.ctlGet n = r.ctlGet n) ∧ q.x = r.x ∧ q.v = r.v ∧ q.p = r.p ∧ q.lmem = r.lmem ∧
      (∀ h, h ≠ g → (y.groom h).plain = (x.groom h).plain) ∧ x.keptByGroom y env [] (fun _ => False))) ∧
    (x.fetches g env w (.sys .fence) → s.retires (.fence sd g env) sd g env r.next) ∧
    (x.fetches g env w (.sys .fencei) → s.retires (.fenceI sd g env) sd g env ({ r with stale := [] }).next) ∧
    (x.fetches g env w (.sys .wfe) → s.does (.wfe sd g env) sd (fun x y => ∃ t, x.groomTime g t ∧
      (goes t → x.onlyGroom y g ({ r with lastDt := t }).next) ∧ (¬goes t → x.onlyGroom y g { r with lastDt := t, wait := .wfe }) ∧
      x.keptByGroom y env [] (fun _ => False))) ∧
    (waiting → r.wait = .twait d t v dl met → met = true →
      ends (.twaitComplete sd g) (({ r with wait := .none }).wx d 0).next) ∧
    (waiting → r.wait = .twait d t v dl met → met = false → dl ≠ 0 → dl < x.now →
      ends (.twaitComplete sd g) (({ r with wait := .none }).wx d 0x0303).next) ∧
    (waiting → r.wait = .wfe → s.does (.wfeWake sd g) sd (fun x y => ∃ t, x.groomTime g t ∧
      (goes t → x.onlyGroom y g ({ r with lastDt := t, wait := .none }).next) ∧ (¬goes t → x.onlyGroom y g { r with lastDt := t }) ∧
      x.keptBut y [.grooms, .fresh] (fun _ => False)))

/-- R92, R95 to R97: ECALL and EBREAK raise their exception, taken at level 1 from level 0 and at level 2 otherwise, but at level 2 with IE 0
the Groom halts and the Steward is told; an enabled interrupt that is pending at the Groom's Datum time (R171) is taken at its level where IE
is 1, with a WFE in progress ended and a TWAIT left to be executed again (R83, R91). Entry at a level saves the pc,
the cause and the value, moves PL and IE into PPL and PIE, clears IE, and goes to the level's handler. -/
def Obligations.ExceptionsAndInterrupts : Prop :=
  ∀ (s : State) (sd : SideId) (g : Nat) (env : Env) (w src : Nat),
    let x := s.side sd
    let r := x.groom g
    (x.fetches g env w (.sys .ecall) → s.does (.ecall sd g env) sd (fun x y => x.trapped y g env 6 0)) ∧
    (x.fetches g env w (.sys .ebreak) → s.does (.ebreak sd g env) sd (fun x y => x.trapped y g env 7 0)) ∧
    (x.live = true → g < x.grooms.length → r.halted = false → r.ie = true → src < 4 → (r.ctlGet 0x016).flag src = true →
      s.does (.interruptEntry sd g src) sd (fun x y => ∃ t, x.groomTime g t ∧ (y.groom g).lastDt = t ∧
        (r.pends src t = true → x.enteredAt y g (if src = 3 then 2 else 1) (BitVec.ofNat 64 (2 ^ 63 + src)) 0
          (if r.wait = .wfe then (r.pc + 4) % 2 ^ 64 else r.pc)) ∧
        (r.pends src t = false → x.onlyGroom y g { r with lastDt := t }) ∧
        x.keptBut y [.grooms, .fresh] (fun _ => False)) ∧
      ((∀ t, x.groomTime g t → r.pends src t = true) → s.does (.interruptEntry sd g src) sd (fun x y =>
        x.enteredAt y g (if src = 3 then 2 else 1) (BitVec.ofNat 64 (2 ^ 63 + src)) 0
          (if r.wait = .wfe then (r.pc + 4) % 2 ^ 64 else r.pc))))

/-- R63, R78, R81, R87: an engine-issue, tether or Race instruction whose queue, tether or slot does not exist, or a Race instruction on a
Groom that is not on the hub die, raises ILLEGAL_INSTRUCTION; one that its Groom at level 0 is not granted raises PRIVILEGE. -/
def Obligations.RangeAndGrantChecks : Prop :=
  ∀ (s : State) (sd : SideId) (g : Nat) (env : Env) (w a b c : Nat),
    let x := s.side sd
    let r := x.groom g
    let n := (r.rx b).toNat
    let first := (r.ctlGet 0x014).fld 0 13
    let illegal (i : Instr) (k : GInstr) : Prop := x.fetches g env w k → s.does i sd (fun x y => x.trapped y g env 1 w)
    let denied (i : Instr) (k : GInstr) : Prop := x.fetches g env w k → r.pl = 0 → s.does i sd (fun x y => x.trapped y g env 2 w)
    (63 < n → illegal (.enq sd g env) (.enq a b c) ∧ illegal (.enqm sd g env) (.enqm a b c) ∧ illegal (.qspace sd g env) (.qspace a b)) ∧
    (n ≤ 63 → (r.ctlGet 0x012).flag n = false →
      denied (.enq sd g env) (.enq a b c) ∧ denied (.enqm sd g env) (.enqm a b c) ∧ denied (.qspace sd g env) (.qspace a b)) ∧
    (8191 < n → illegal (.tsig sd g env) (.tsig b c) ∧ illegal (.twait sd g env) (.twait a b c) ∧ illegal (.tread sd g env) (.tread a b)) ∧
    (n ≤ 8191 → ¬(first ≤ n ∧ n < first + (r.ctlGet 0x015).fld 0 14) →
      denied (.tsig sd g env) (.tsig b c) ∧ denied (.twait sd g env) (.twait a b c) ∧ denied (.tread sd g env) (.tread a b)) ∧
    ((16 ≤ g ∨ 31 < n) → illegal (.rpop sd g env) (.rpop a b c) ∧ illegal (.rmark sd g env) (.rmark b) ∧
      illegal (.rrewind sd g env) (.rrewind b) ∧ illegal (.rrelease sd g env) (.rrelease b) ∧ illegal (.rcount sd g env) (.rcount a b)) ∧
    (g < 16 → n ≤ 31 → (r.ctlGet 0x013).flag n = false → denied (.rpop sd g env) (.rpop a b c) ∧ denied (.rmark sd g env) (.rmark b) ∧
      denied (.rrewind sd g env) (.rrewind b) ∧ denied (.rrelease sd g env) (.rrelease b) ∧ denied (.rcount sd g env) (.rcount a b))

/-! ### Command queues -/

/-- R123, R124, R126, R136, R144, R147: where a queue may fetch, the command in the slot at CQ_HEAD mod N gets the chain number CQ_HEAD, and
CQ_HEAD advances; one that passes the checks of R135 is the last of the operations in flight, one that does not gets its completion record
at once, is counted, and signals no tether. `x₁` is the side with the slot taken. -/
def Obligations.CommandFetch : Prop :=
  ∀ (s : State) (sd : SideId) (q : Nat) (env : Env),
    let x := s.side sd
    let c := x.fld (Reg.CQ_HEAD q) 0 32
    let n := 16 * 2 ^ x.fld (Reg.CQ_CFG q) 8 4
    let a := (x.fld (Reg.CQ_RING q) 6 58 * 64 + c % n * 64) % 2 ^ 46
    let cmd := x.num a 64
    let unit := sfld cmd 1 0 8
    let refused (x y : Side) (r : Refused) (unit : Nat) : Prop :=
      y.ops.map Op.plain = x.ops.map Op.plain ∧
      (∀ l, x.recordAt q c n = some l →
        y.bytes l 32 = completionBytes c r.status unit n r.reqNs r.required 0 x.now) ∧
      y.fld (Reg.CQ_STAT q) 48 16 = min 65535 (x.fld (Reg.CQ_STAT q) 48 16 + 1) ∧
      y.fld (Reg.CQ_HEAD q) 0 32 = (c + 1) % 2 ^ 32 ∧
      (∀ m, (∀ l, x.recordAt q c n = some l → m < l ∨ l + 32 ≤ m) → y.mem.get m = x.mem.get m) ∧
      x.keptBut y [.ops, .cells, .poison, .pm] (fun k => k = Reg.CQ_STAT q ∨ k = Reg.CQ_HEAD q ∨ k / 0x1000000 = 0x13)
    x.atRest → x.mayFetch q = true → env.errs = [] →
    (x.poisoned a 64 = true → s.does (.commandFetch sd q env) sd (fun x y =>
      refused x y ⟨stPoison, false, 0⟩ (if x.poisoned (a + 1) 1 then 0 else unit))) ∧
    (x.poisoned a 64 = false → x.readGuarded 0x12 a 64 = true → s.does (.commandFetch sd q env) sd (fun x y =>
      refused x y ⟨stAddress, false, 0⟩ 0)) ∧
    (x.poisoned a 64 = false → x.readGuarded 0x12 a 64 = false → ∃ x₁ : Side,
      x.keptBut x₁ [.pm] (fun k => k = Reg.CQ_HEAD q ∨ k / 0x1000000 = 0x13) ∧ x₁.fld (Reg.CQ_HEAD q) 0 32 = (c + 1) % 2 ^ 32 ∧
      (∀ r, x₁.admission cmd = some r → s.does (.commandFetch sd q env) sd (fun x y => refused x y r unit)) ∧
      (x₁.admission cmd = none → s.does (.commandFetch sd q env) sd (fun x y =>
        let o := x₁.newOp q c (x.fld (Reg.CQ_CFG q) 0 3) n cmd none
        y.ops.map Op.plain = (x.ops ++ [o]).map Op.plain ∧ o.cmd = cmd ∧ o.run = none ∧
        x.keptBut y [.ops, .pm, .lg] (fun k => k = Reg.CQ_HEAD q ∨ k / 0x1000000 = 0x13))))

/-- R131, R712: a free instance starts, of the ready commands it may run, one of the lowest class that has one, and notes its queue; one that
the Canter cap holds back is only counted. -/
def Obligations.CommandDispatch : Prop :=
  ∀ (s : State) (sd : SideId) (unit inst : Nat) (o : Op),
    let x := s.side sd
    x.live = true → unit ≠ 0x04 → (∀ p ∈ x.ops, p.unit = unit → x.stranded p = false) → x.mayStart unit inst = true →
    x.pick unit (x.startable unit inst) = some o →
    o ∈ x.startable unit inst ∧ (∀ p ∈ x.startable unit inst, o.cls ≤ p.cls) ∧
    ((o.cls = 0 ∨ x.capHolds unit inst = false) → s.does (.commandDispatch sd unit inst []) sd (fun x y =>
      (∃ p ∈ y.ops, p.same o = true ∧ p.cmd = o.cmd ∧ p.run = some (inst, x.now)) ∧
      (∀ p : Op, p.same o = false → (p.plain ∈ y.ops.map Op.plain ↔ p.plain ∈ x.ops.map Op.plain)) ∧
      alGet 63 y.rr (unit * 8 + o.cls) = o.queue ∧
      x.keptBut y [.ops, .rr, .host, .outriders, .fresh] (fun k => k / 0x1000000 = 0x0C))) ∧
    (o.cls ≠ 0 → x.capHolds unit inst = true → o.capped = false → s.does (.commandDispatch sd unit inst []) sd (fun x y =>
      (∃ p ∈ y.ops, p.same o = true ∧ p.run = none ∧ p.capped = true) ∧
      y.fld Reg.PW_CNT 0 32 = min (2 ^ 32 - 1) (x.fld Reg.PW_CNT 0 32 + 1) ∧ x.keptBut y [.ops] (fun k => k = Reg.PW_CNT)))

/-- R134, R157, R441: a command still running 200 µs after its start, the pauses of stacks that held it not counted, ends with TIMEOUT, the
bytes it was due to write poisoned and no other changed (log entry 107), counted and with event 0x02 that names it; one that has not started by its DEADLINE ends with DEADLINE_MISSED, having written nothing but its record. -/
def Obligations.CommandLimits : Prop :=
  ∀ (s : State) (sd : SideId) (unit inst held : Nat) (o : Op) (t : Nat),
    let x := s.side sd
    let due := x.acting unit inst none (fun x => o.effect { x with acts := { x.acts with spoil := true } })
    let result := if unit = 0x0C ∨ unit = 0x0D ∨ unit = 0x0E ∨ unit = 0x0F then inst * 2 ^ 40
      else if unit = 0x0A ∧ x.tvRunning.isSome = true then 2 ^ 32 else 0
    x.atRest → o.parent = none → o.queue < 64 →
    (x.occupant unit inst = some o → o.run = some (inst, t) → held ≤ 10000 * x.part.stacks → t + 200000 + held ≤ x.now →
      (unit ≠ 0x12 ∨ o.resv ≠ 1) → monitorOf unit inst < 256 →
      s.does (.commandCeilingStop sd unit inst held [] []) sd (fun x y =>
        x.ends y o stTimeout result [.events, .mangers, .br] (fun k => k = Reg.CQ_CEILING ∨ ∃ q, k = Reg.QP_STATE q)
          (fun m => due.mem.get m ≠ x.mem.get m) ∧
        y.mangers = due.mangers ∧ y.fld Reg.CQ_CEILING 0 16 = min 65535 (x.fld Reg.CQ_CEILING 0 16 + 1) ∧
        ∃ e, y.events = x.events ++ [e] ∧ e.code = 0x02 ∧ e.unit = unit ∧ e.inst = inst ∧ e.cmd = some (o.chain, o.queue))) ∧
    (x.ops.find? (fun p => p.queue == o.queue && p.run.isNone && past x.now (p.f 24 0 64)) = some o →
      s.does (.commandDeadlineMissed sd o.queue) sd (fun x y => x.ends y o stDeadline 0 [.lg]))

/-- R526 to R530: CQ_RAGGED of a table in which no entry issues anything ends DONE with no command issued; where the side has room, every
entry of non-zero LENGTH is issued as the template with its addresses replaced, in flight beside its parent or refused, and the parent has
then issued all. -/
def Obligations.RaggedCommand : Prop :=
  ∀ (s : State) (sd : SideId) (env : Env) (o : Op),
    let x := s.side sd
    let n := o.f 56 0 16
    x.runs 0x12 64 1 env o → x.unverified 0x12 64 = false → o.resv = 0 → o.pages = [] →
    ((∀ e, e < n → o.entryLen e = 0) → o.f 48 0 64 = 0 → s.does (.cqRagged sd env) sd (fun x y => x.ends y o stDone 0)) ∧
    (∀ x₁ : Side, n = 1 → o.entryLen 0 ≠ 0 → x.ops.length < 8192 →
      x₁ = (x.asRun o).setOp { o with pages := [0] } →
      let x₂ := x₁.put Reg.CQ_RAGGED 32 32 (min (2 ^ 32 - 1) (x.fld Reg.CQ_RAGGED 32 32 + 1))
      x₂.admission (o.subCommand 0) = none → s.does (.cqRagged sd env) sd (fun x y =>
        (∃ p ∈ y.ops, p.same o = true ∧ p.resv = 1 ∧ p.pages = [1]) ∧
        (∃ p ∈ y.ops, p.parent = some (o.queue, o.chain, 0) ∧ p.cmd = o.subCommand 0 ∧ p.run = none) ∧
        y.fld Reg.CQ_RAGGED 0 14 = (x.fld Reg.CQ_RAGGED 0 14 + 1) % 2 ^ 14 ∧
        x.keptBut y [.ops] (fun k => k = Reg.CQ_RAGGED)))

/-! ### Relays and Draft engines -/

/-- R423 to R430: RL_COPY gives destination element (i_d) the bits of source element (j) with j_(PERM_d) = i_d, and ends with POISON_CONSUMED
where one of them is poisoned; RL_FILL gives every element the value; both end with the number of elements in RESULT, count in RL_CNT and note
themselves in RL_LAST. A source that no other agent may read ends RL_COPY with ADDRESS_FAULT. -/
def Obligations.RelayCommands : Prop :=
  ∀ (s : State) (sd : SideId) (inst : Nat) (env : Env) (o : Op),
    let x := s.side sd
    let z := x.asRun o
    let src := descOf (o.block (o.f 32 0 64))
    let dst := descOf (o.block (o.f 40 0 64))
    let p := permOf o.cmd dst.rank
    let val (ix : List Nat) : Nat × Nat :=
      src.elemMask z.view ((upTo src.rank).map (fun k => ix.getD (p.findIdx (fun v => v == k)) 0))
    let bad := (indices dst.size).any (fun ix => (val ix).2 != 0)
    let ws := localWrites (dst.writesMask val)
    let fill := descOf (o.block (o.f 32 0 64))
    let fs := localWrites (fill.writes (fun _ => (o.f 40 0 64, false)))
    let noted (y : Side) : Prop := x.part.hasInst 0x0D inst = true →
      y.rd (Reg.RL_LAST inst) = BitVec.ofNat 64 (o.chain * 2 ^ 32 + o.queue) ∧
      y.fld (Reg.RL_CNT inst) 48 16 = min 65535 (x.fld (Reg.RL_CNT inst) 48 16 + 1)
    (x.runs 0x0D inst 1 env o → src.count = 0 → s.does (.rlCopy sd inst env) sd (fun x y =>
      x.ends y o stDone (inst * 2 ^ 40) ∧ noted y)) ∧
    (x.runs 0x0D inst 1 env o → src.count ≠ 0 → x.readGuarded 0x0D src.place.1 src.place.2 = true → s.does (.rlCopy sd inst env) sd (fun x y =>
      x.ends y o stAddress (inst * 2 ^ 40) ∧ noted y)) ∧
    (x.runs 0x0D inst 1 env o → src.count ≠ 0 → x.readGuarded 0x0D src.place.1 src.place.2 = false → (x.scatter 0x0D ws).2 = false →
      s.does (.rlCopy sd inst env) sd (fun x y =>
        x.endsWriting y o (if bad then stPoison else stDone) (dst.count % 2 ^ 32 + inst * 2 ^ 40) ws ∧ noted y)) ∧
    (x.runs 0x0D inst 2 env o → fill.count = 0 → s.does (.rlFill sd inst env) sd (fun x y =>
      x.ends y o stDone (inst * 2 ^ 40) ∧ noted y)) ∧
    (x.runs 0x0D inst 2 env o → fill.count ≠ 0 → (x.scatter 0x0D fs).2 = false → s.does (.rlFill sd inst env) sd (fun x y =>
      x.endsWriting y o stDone (fill.count % 2 ^ 32 + inst * 2 ^ 40) fs ∧ noted y))

/-- R388 to R407: DR_STAGE copies its bytes into the Manger of its engine or out of it. DR_GEMM writes the elements of its output, and of its
output scales, that its run over the operands gives, to device memory or to the Manger, and counts the tiles the Vet checked; DR_SPCONV writes
what its run over the rules gives, rows of its output only. Each ends with CHECK_MISMATCH where a check failed, else POISON_CONSUMED where it met
poison, else DONE_FLAGGED where a flag is set, else DONE, its flags and count in RESULT; with DONE where there is nothing to do; and with
ADDRESS_FAULT where it reads an extent that no other agent may read. -/
def Obligations.DraftCommands : Prop :=
  ∀ (s : State) (sd : SideId) (e : Nat) (env : Env) (faults : List (Nat × Nat × Nat × Nat × Bool)) (o : Op),
    let x := s.side sd
    let z := x.asRun o
    let a := local46 (o.f 32 0 64)
    let m := o.f 40 0 32
    let n := o.f 44 0 32
    let g := o.gemmRun faults (fun i => if o.gemmManger i then z.mangerView e else z.view)
    let gw := (if o.gemmManger 2 then [] else localWrites g.ws) ++ localWrites g.cws
    let r := z.spRun faults o
    let out := o.spDesc 2
    let mine (k : Nat) : Prop := k = Reg.DR_VET e ∨ k = Reg.DR_VET_WHERE e ∨ k = Reg.DR_VET_POS e ∨ k = Reg.DR_VET_DELTA e
    let status (failed poison : Bool) (f : DrFlags) : Nat :=
      if failed then stCheck else if poison then stPoison else if f.word ≠ 0 then stFlagged else stDone
    let result (f : DrFlags) (count : Nat) : Nat := count % 2 ^ 32 + f.word * 2 ^ 32 + e * 2 ^ 40
    (x.runs 0x0E e 1 env o → n = 0 → s.does (.drStage sd e env []) sd (fun x y => x.ends y o stDone (e * 2 ^ 40))) ∧
    (x.runs 0x0E e 1 env o → n ≠ 0 → o.f 48 0 1 = 0 → x.readGuarded 0x0E a n = false → e < x.mangers.length →
      s.does (.drStage sd e env []) sd (fun x y =>
        x.ends y o (if z.poisoned a n then stPoison else stDone) (n % 2 ^ 32 + e * 2 ^ 40) [.mangers] ∧
        (∀ k, alGet 0 (y.manger e).cells k = if m ≤ k ∧ k < m + n then x.mem.get (a + (k - m)) else alGet 0 (x.manger e).cells k) ∧
        (∀ j, j ≠ e → y.manger j = x.manger j))) ∧
    (x.runs 0x0E e 1 env o → n ≠ 0 → o.f 48 0 1 = 1 →
      let ws := (upTo n).map (fun i => (a + i, alGet 0 (x.manger e).cells (m + i), (x.manger e).poisoned (m + i) 1))
      (x.scatter 0x0E ws).2 = false → s.does (.drStage sd e env []) sd (fun x y =>
        x.endsWriting y o (if (x.manger e).poisoned m n then stPoison else stDone) (n % 2 ^ 32 + e * 2 ^ 40) ws)) ∧
    (x.runs 0x0E e 2 env o → o.gemmEmpty = true → s.does (.drGemm sd e env [] faults) sd (fun x y => x.ends y o stDone (e * 2 ^ 40))) ∧
    (x.runs 0x0E e 2 env o → o.gemmEmpty = false → (∃ r ∈ o.gemmReads, x.readGuarded 0x0E r.1 r.2 = true) →
      s.does (.drGemm sd e env [] faults) sd (fun x y => x.ends y o stAddress (e * 2 ^ 40))) ∧
    (x.runs 0x0E e 2 env o → o.gemmEmpty = false → (∀ r ∈ o.gemmReads, x.readGuarded 0x0E r.1 r.2 = false) → (x.scatter 0x0E gw).2 = false →
      e < x.mangers.length → s.does (.drGemm sd e env [] faults) sd (fun x y =>
        x.endsWriting y o (status (!g.fails.isEmpty) g.poison g.flags) (result g.flags g.tiles.length) gw [.mangers, .events] mine ∧
        (y.manger e).cells = (if o.gemmManger 2 then ((x.manger e).scatter g.ws).cells else (x.manger e).cells) ∧
        (∀ j, j ≠ e → y.manger j = x.manger j) ∧
        y.fld (Reg.DR_VET e) 32 32 = min (2 ^ 32 - 1) (x.fld (Reg.DR_VET e) 32 32 + (g.tiles.filter (fun t => t.checked)).length))) ∧
    (x.runs 0x0E e 3 env o → o.spEmpty = true → s.does (.drSpconv sd e env [] faults) sd (fun x y => x.ends y o stDone (e * 2 ^ 40))) ∧
    (x.runs 0x0E e 3 env o → o.spEmpty = false → (∃ r ∈ o.spReads, x.readGuarded 0x0E r.1 r.2 = true) →
      s.does (.drSpconv sd e env [] faults) sd (fun x y => x.ends y o stAddress (e * 2 ^ 40))) ∧
    (x.runs 0x0E e 3 env o → o.spEmpty = false → (∀ r ∈ o.spReads, x.readGuarded 0x0E r.1 r.2 = false) → r.met = false →
      s.does (.drSpconv sd e env [] faults) sd (fun x y =>
        x.ends y o (status (!r.fails.isEmpty) r.poison r.flags) (result r.flags r.applied) [.events] mine
          (fun k => ∃ j row i, i < 4 ∧ k = local46 ((out.locate [j, row]).1 + 4 * (out.locate [j, row]).2) + i) ∧
        ∀ k, (∀ l, x.recordAt o.queue o.chain o.slots = some l → k < l ∨ l + 32 ≤ k) → y.mem.get k = r.s.mem.get k))

/-! ### Host memory, the KV cache and attention -/

/-- R450 to R454: an RC_READ that ends well by its worst-case run time stores exactly the bytes received, one refused by the host stores those it
got, poisons the rest and puts its queue pair into ERROR, and one that times out from then on ends with TIMEOUT; an RC_WRITE sends the bytes of
its extent. A poisoned extent is not sent. -/
def Obligations.RdmaCommands : Prop :=
  ∀ (s : State) (sd : SideId) (qp : Nat) (env : Env) (o : Op) (data : List Byte) (syn st : Nat),
    let x := s.side sd
    let z := x.asRun o
    let n := o.f 52 0 32
    let a := local46 (o.f 32 0 64)
    let inTime : Prop := o.run = some (qp, st) ∧ x.now ≤ st + o.worst ∧ x.secSends (x.qp o.qp).port = true
    let sent (bs : List Byte) : List Byte := toBytes 8 (o.f 40 0 64) ++ toBytes 4 (o.f 48 0 32) ++ toBytes 4 bs.length ++ bs
    (x.runs 0x17 qp 1 env o → n ≠ 0 → inTime → data.length = n → (x.scatter 0x17 (goodAt a data)).2 = false →
      s.does (.rcRead sd qp env .ok data) sd (fun x y => x.endsWriting y o stDone n (goodAt a data))) ∧
    (x.runs 0x17 qp 1 env o → n ≠ 0 → inTime → data.length < n → syn < 256 → o.qp < 16 →
      let ws := goodAt a data ++ badAt (a + data.length) (n - data.length)
      (x.scatter 0x17 ws).2 = false → s.does (.rcRead sd qp env (.nak syn) data) sd (fun x y =>
        x.endsWriting y o stAddress (data.length + syn * 2 ^ 32) ws [] (fun k => k = Reg.QP_STATE o.qp ∨ k = Reg.QP_CNT o.qp) ∧
        (x.qpReady o.qp = true → y.fld (Reg.QP_STATE o.qp) 0 2 = 2))) ∧
    (x.runs 0x17 qp 1 env o → n ≠ 0 → o.run = some (qp, st) → st + o.worst ≤ x.now → (x.scatter 0x17 (badAt a n)).2 = false → o.qp < 16 →
      s.does (.rcRead sd qp env .timeout []) sd (fun x y =>
        x.endsWriting y o stTimeout 0 (badAt a n) [] (fun k => k = Reg.QP_STATE o.qp) ∧
        (x.qpReady o.qp = true → y.fld (Reg.QP_STATE o.qp) 0 2 = 2))) ∧
    (x.runs 0x17 qp 2 env o → n ≠ 0 → inTime → x.readGuarded 0x17 a n = false → z.poisoned a n = false →
      s.does (.rcWrite sd qp env .ok 0) sd (fun x y =>
        x.ends y o stDone n [.egress] ∧
        ∃ e, y.egress = x.egress ++ [e] ∧ e.port = (x.qp o.qp).port ∧ e.time = x.now ∧ e.bytes = sent (x.bytes a n))) ∧
    (x.runs 0x17 qp 2 env o → n ≠ 0 → inTime → x.readGuarded 0x17 a n = false → z.poisoned a n = true →
      s.does (.rcWrite sd qp env .ok 0) sd (fun x y => x.ends y o stPoison 0)) ∧
    (x.runs 0x17 qp 1 env o → n = 0 → s.does (.rcRead sd qp env .ok data) sd (fun x y => x.ends y o stDone 0)) ∧
    (x.runs 0x17 qp 2 env o → n = 0 → s.does (.rcWrite sd qp env .ok 0) sd (fun x y => x.ends y o stDone 0))

/-- R474 to R492: an OR_APPEND whose pages resolve writes them and their entries as its run over them gives; one whose page does not resolve ends
with the walk's status and that page, one out of order with the flag ORDER; an OR_MOVE within the module moves its pages, and an OR_RELEASE
releases them, as their runs give; each counts in RESULT, and ends with POISON_CONSUMED where it met poison. OR_FLUSH takes from the Tally the
entries of the sequence named, or all, and gives their number. Where nothing is named each ends with DONE. -/
def Obligations.OutriderCommands : Prop :=
  ∀ (s : State) (sd : SideId) (i : Nat) (env : Env) (o : Op) (plans : List PagePlan) (ring : List Nat) (w : Side) (st vpn : Nat),
    let x := s.side sd
    let z := x.asRun o
    let id := o.f 32 0 32
    let keep := (x.outrider i).tally.filter (fun e => id != 0 && e.seq != id)
    let mine (k : Nat) : Prop := k / 0x1000000 = 0x0C
    let result (flags count skipped : Nat) : Nat := count % 2 ^ 32 + flags * 2 ^ 32 + i * 2 ^ 40 + skipped % 2 ^ 16 * 2 ^ 48
    let kd := descOf (o.block (o.f 40 0 64))
    let vd := descOf (o.block (o.f 48 0 64))
    let open' := x.readGuarded 0x0C kd.place.1 kd.place.2 = false ∧ x.readGuarded 0x0C vd.place.1 vd.place.2 = false
    let r := w.appendRun o plans ring
    let m := z.moveRun o none []
    let l := z.releaseRun o
    let ended (y : Side) (st result : Nat) (after : Side) (pieces : List Piece) : Prop :=
      x.ends y o st result pieces mine (fun k => after.mem.get k ≠ x.mem.get k) ∧
      ∀ k, (∀ l, x.recordAt o.queue o.chain o.slots = some l → k < l ∨ l + 32 ≤ k) → y.mem.get k = after.mem.get k
    (x.runs 0x0C i 1 env o → kd.sz 2 = 0 → s.does (.orAppend sd i env) sd (fun x y => x.ends y o stDone (i * 2 ^ 40))) ∧
    (x.runs 0x0C i 1 env o → kd.sz 2 ≠ 0 → open' → z.appendPlan o = (.ok (plans, ring), w) → r.met = false →
      s.does (.orAppend sd i env) sd (fun _ y =>
        ended y (if r.poison then stPoison else if r.flags = 0 then stDone else stFlagged) (result r.flags (kd.sz 2) 0) r.s [.outriders])) ∧
    (x.runs 0x0C i 1 env o → kd.sz 2 ≠ 0 → open' → z.appendPlan o = (.error (.noPage st vpn), w) → st ≠ stDone →
      s.does (.orAppend sd i env) sd (fun x y => x.ends y o st (result 0 vpn 0) [.outriders] mine)) ∧
    (x.runs 0x0C i 1 env o → kd.sz 2 ≠ 0 → open' → z.appendPlan o = (.error .outOfOrder, w) →
      s.does (.orAppend sd i env) sd (fun x y => x.ends y o stFlagged (result 4 0 0) [.outriders] mine)) ∧
    (x.runs 0x0C i 2 env o → o.f 41 0 8 = 0 → s.does (.orMove sd i env none []) sd (fun x y => x.ends y o stDone (i * 2 ^ 40))) ∧
    (x.runs 0x0C i 2 env o → o.f 41 0 8 ≠ 0 → o.f 40 0 2 < 2 → m.met = false → s.does (.orMove sd i env none []) sd (fun _ y =>
      ended y (if m.poison then stPoison else stDone) (result 0 m.moved m.skipped) m.s [.outriders])) ∧
    (x.runs 0x0C i 3 env o → o.f 40 0 16 = 0 → s.does (.orRelease sd i env) sd (fun x y => x.ends y o stDone (i * 2 ^ 40))) ∧
    (x.runs 0x0C i 3 env o → o.f 40 0 16 ≠ 0 → l.2.1 = false → s.does (.orRelease sd i env) sd (fun _ y =>
      ended y (if l.2.2.2 then stPoison else stDone) (result 0 l.2.2.1 (o.f 40 0 16 - l.2.2.1)) l.1 [.outriders])) ∧
    (x.runs 0x0C i 4 env o → i < x.outriders.length → s.does (.orFlush sd i env) sd (fun x y =>
      x.ends y o stDone (((x.outrider i).tally.length - keep.length) % 2 ^ 32 + i * 2 ^ 40) [.outriders] ∧
      (y.outrider i).tally = keep ∧ ∀ j, j ≠ i → (y.outrider j).tally = (x.outrider j).tally))

/-- R499 to R518: ST_DECODE writes the records of its query heads and counts its checks, ST_RETRIEVE its page list, as their runs over the pages
give; both end with CHECK_MISMATCH, POISON_CONSUMED, DONE_FLAGGED or DONE as those say, with the walk's status where a page did not resolve, with
ADDRESS_FAULT where they read what no other agent may, and with DONE where there is nothing to do. -/
def Obligations.StallCommands : Prop :=
  ∀ (s : State) (sd : SideId) (i : Nat) (env : Env) (faults : List (Nat × Bool × Nat × Nat)) (o : Op) (st vpn : Nat),
    let x := s.side sd
    let z := x.asRun o
    let p := decodeParam (o.block (o.f 40 0 64))
    let r := retrieveParam (o.block (o.f 40 0 64))
    let hs := z.decodeHeads o faults []
    let hw := o.decodeWrites hs
    let run := z.retrieveRun o
    let list := goodAt (local46 r.list) (o.retrieveBytes run.1.list)
    let qx := o.retrieveExtent
    let mine (k : Nat) : Prop := k / 0x1000000 = 0x0F ∨ k / 0x1000000 = 0x0C
    let result (flags count skipped : Nat) : Nat := count % 2 ^ 32 + flags * 2 ^ 32 + i * 2 ^ 40 + skipped % 2 ^ 16 * 2 ^ 48
    let some' : Prop := p.nq ≠ 0 ∧ o.decodePages ≠ []
    (x.runs 0x0F i 1 env o → p.nq = 0 ∨ o.decodePages = [] → s.does (.stDecode sd i env faults []) sd (fun x y =>
      x.ends y o stDone (i * 2 ^ 40))) ∧
    (x.runs 0x0F i 1 env o → some' → o.pageFailed = some (st, vpn) → st ≠ stDone → s.does (.stDecode sd i env faults []) sd (fun x y =>
      x.ends y o st (result 0 vpn 0))) ∧
    (x.runs 0x0F i 1 env o → some' → o.pageFailed = none → (∃ r ∈ z.decodeReads o, x.readGuarded 0x0F r.1 r.2 = true) →
      s.does (.stDecode sd i env faults []) sd (fun x y => x.ends y o stAddress (result 0 0 (z.decodeSkipped o)))) ∧
    (x.runs 0x0F i 1 env o → some' → o.pageFailed = none → (∀ r ∈ z.decodeReads o, x.readGuarded 0x0F r.1 r.2 = false) →
      (x.scatter 0x0F hw).2 = false → s.does (.stDecode sd i env faults []) sd (fun x y =>
        x.endsWriting y o
          (if (headFails hs).isEmpty = false then stCheck else if hs.any (fun h => h.poison) then stPoison
            else if headFlags hs = 0 then stDone else stFlagged)
          (result (headFlags hs) ((hs.head?.map (fun h => h.tokens)).getD 0) (z.decodeSkipped o)) hw [.events, .fresh] mine ∧
        y.fld (Reg.ST_CHK i) 16 16 = min 65535 (x.fld (Reg.ST_CHK i) 16 16 + (headFails hs).length))) ∧
    (x.runs 0x0F i 2 env o → r.nq = 0 ∨ r.n = 0 → s.does (.stRetrieve sd i env) sd (fun x y => x.ends y o stDone (i * 2 ^ 40))) ∧
    (x.runs 0x0F i 2 env o → r.nq ≠ 0 → r.n ≠ 0 → x.readGuarded 0x0F qx.1 qx.2 = true → s.does (.stRetrieve sd i env) sd (fun x y =>
      x.ends y o stAddress (i * 2 ^ 40))) ∧
    (x.runs 0x0F i 2 env o → r.nq ≠ 0 → r.n ≠ 0 → x.readGuarded 0x0F qx.1 qx.2 = false → z.poisoned qx.1 qx.2 = true →
      s.does (.stRetrieve sd i env) sd (fun x y => x.ends y o stPoison (i * 2 ^ 40) [.fresh] mine
        (fun a => local46 r.list ≤ a ∧ a < local46 r.list + 16 + 8 * sfld (o.block (o.f 40 0 64)) 34 0 16))) ∧
    (x.runs 0x0F i 2 env o → r.nq ≠ 0 → r.n ≠ 0 → x.readGuarded 0x0F qx.1 qx.2 = false → z.poisoned qx.1 qx.2 = false → run.1.met = false →
      (x.scatter 0x0F list).2 = false → s.does (.stRetrieve sd i env) sd (fun x y =>
        x.endsWriting y o (if run.1.poison then stPoison else if z.retrieveFlags o = 0 then stDone else stFlagged)
          (result (z.retrieveFlags o) run.1.scored run.1.skipped) list [.outriders] mine))

/-! ### The Pillar and the Plat -/

/-- R293 to R317: PL_OPEN opens the frame of T with its table empty and the pose of T, if there is one, or ends DONE_FLAGGED where a frame is
open; PL_CLOSE of the open frame writes its 128 B header, counts and frees the Pillar; PL_INGEST that is barred (no frame of its T open, its slot
not one that ingests, its stream lame) takes no packet, and otherwise writes the points that its run over the packets accepts, and leaves the open
frame as that run does. -/
def Obligations.PillarFrames : Prop :=
  ∀ (s : State) (sd : SideId) (env : Env) (o : Op) (f : PlFrame) (tab : List Nat),
    let x := s.side sd
    let z := x.asRun o
    let b := o.block (o.f 40 0 64)
    let head := goodAt (local46 (o.f 40 0 64)) (f.header x.id)
    let mine (k : Nat) : Prop := k / 0x1000000 = 0x08
    let t := o.f 32 0 64
    let extent (k : Nat) : Nat × Nat := (x.poseAddr k, 128)
    let list := local46 (o.f 40 0 64)
    let n := o.f 56 0 16
    let why := x.ingestBars o
    let r := z.ingestRun tab o f
    (x.runs 0x08 0 1 env o → sfld b 16 0 32 ≠ 0 → x.pl = none →
      (∀ k ∈ x.poseKeys t, x.readGuarded 0x08 (extent k).1 (extent k).2 = false ∧ z.poisoned (extent k).1 (extent k).2 = false) →
      s.does (.plOpen sd env) sd (fun x y =>
        (if (x.poseAt t).isSome then x.ends y o stDone 0 [.pl] mine else x.ends y o stFlagged 1 [.pl] mine) ∧
        (∃ f, y.pl = some f ∧ f.t = t ∧ f.cap = sfld b 16 0 32 ∧ f.table = [] ∧ f.c.accepted = 0 ∧ f.pose = x.poseAt t) ∧
        y.rd Reg.PL_OPENT = BitVec.ofNat 64 t ∧ y.flag Reg.PL_CTRL 2 = true)) ∧
    (x.runs 0x08 0 1 env o → sfld b 16 0 32 ≠ 0 → x.pl = some f → s.does (.plOpen sd env) sd (fun x y => x.ends y o stFlagged 2)) ∧
    (x.runs 0x08 0 3 env o → x.pl = some f → f.t = t → (x.scatter 0x08 head).2 = false → s.does (.plClose sd env) sd (fun x y =>
      x.endsWriting y o (if f.c.thinned + f.c.dropped + f.c.lost = 0 then stDone else stFlagged)
        (f.c.accepted + f.c.voxels % 2 ^ 22 * 2 ^ 32) head [.pl] mine ∧
      y.pl = none ∧ y.rd Reg.PL_OPENT = 0 ∧ y.flag Reg.PL_CTRL 2 = false ∧
      y.fld Reg.PL_CNT 48 16 = min 65535 (x.fld Reg.PL_CNT 48 16 + 1))) ∧
    (x.runs 0x08 0 3 env o → (∀ f, x.pl = some f → f.t ≠ t) → s.does (.plClose sd env) sd (fun x y =>
      x.ends y o stFlagged (2 ^ 63))) ∧
    (x.runs 0x08 0 2 env o → n = 0 → s.does (.plIngest sd env tab) sd (fun x y => x.ends y o stDone 0)) ∧
    (x.runs 0x08 0 2 env o → n ≠ 0 → (∀ f, x.pl = some f → f.t ≠ t) → s.does (.plIngest sd env tab) sd (fun x y =>
      x.ends y o stFlagged (why * 2 ^ 32))) ∧
    (x.runs 0x08 0 2 env o → n ≠ 0 → x.pl = some f → f.t = t → why ≠ 0 → s.does (.plIngest sd env tab) sd (fun x y =>
      x.ends y o stFlagged (why * 2 ^ 32) [.pl] ∧ ∃ g, y.pl = some g ∧ g = { f with lame := g.lame })) ∧
    (x.runs 0x08 0 2 env o → n ≠ 0 → x.pl = some f → f.t = t → why = 0 → x.readGuarded 0x08 list (24 * n) = false →
      z.poisoned list (24 * n) = false → (x.scatter 0x08 r.ws).2 = false → s.does (.plIngest sd env tab) sd (fun x y =>
        x.endsWriting y o (if r.poison || r.tabErr then stPoison else if r.flags = 0 then stDone else stFlagged) (r.took + r.flags * 2 ^ 32) r.ws [.pl] mine ∧
        y.pl = some r.f)) ∧
    (r.f.t = f.t ∧ r.f.cap = f.cap ∧ r.f.pts = f.pts ∧ r.f.vox = f.vox ∧ ∀ w ∈ r.ws, f.pts ≤ w.1 ∨ f.vox ≤ w.1)

/-- R319 to R329: PL_SORT writes the entries of its rows in order of key and row, one of each key where asked; PL_MERGE, PL_PILLAR and PL_RULES
write what their passes over memory give, nothing outside their outputs and the counters of their descriptors. Where what they read is protected
they end with ADDRESS_FAULT, where it is poisoned with POISON_CONSUMED, and with DONE where there is nothing to do. -/
def Obligations.PillarPasses : Prop :=
  ∀ (s : State) (sd : SideId) (env : Env) (o : Op),
    let x := s.side sd
    let z := x.asRun o
    let a := o.f 32 0 64
    let b := o.block a
    let l := local46 a
    let n := o.f 44 0 32
    let first := o.f 40 0 32
    let rows := (upTo n).map (fun i => if sfld b 8 0 64 = 0 then first + i else x.num (local46 (sfld b 8 0 64) + 4 * (first + i)) 4)
    let key (r : Nat) : Nat := mortonKey (sfld b 24 0 2) (sfld b 25 0 8) (sfld b 26 0 8) (x.num (local46 (sfld b 0 0 64) + 32 * r + 16) 8)
    let out := dedup (sfld b 24 2 1 == 1) none ((rows.map (fun r => (key r, r))).mergeSort entryLe)
    let ws := goodAt (local46 (sfld b 16 0 64)) (out.map entryBytes).flatten
    let reads := (if sfld b 8 0 64 = 0 then [] else [(local46 (sfld b 8 0 64) + 4 * first, 4 * n)]) ++
      rows.map (fun r => (local46 (sfld b 0 0 64) + 32 * r + 16, 8))
    let within (a n m : Nat) : Prop := a ≤ m ∧ m < a + n
    let passes (i : Instr) (op count : Nat) (p : PlPass) : Prop := x.runs 0x08 0 op env o →
      (count = 0 → s.does i sd (fun x y => x.ends y o stDone 0)) ∧
      (count ≠ 0 → (∃ r ∈ p.reads, x.readGuarded 0x08 r.1 r.2 = true) → s.does i sd (fun x y => x.ends y o stAddress 0)) ∧
      (count ≠ 0 → (∀ r ∈ p.reads, x.readGuarded 0x08 r.1 r.2 = false) → (∃ r ∈ p.reads, z.poisoned r.1 r.2 = true) →
        (x.scatter 0x08 p.ws).2 = false →
        s.does i sd (fun x y => x.ends y o stPoison 0 [.fresh] (fun _ => False) (fun m => ∃ w ∈ p.ws, w.1 = m))) ∧
      (count ≠ 0 → (∀ r ∈ p.reads, x.readGuarded 0x08 r.1 r.2 = false ∧ z.poisoned r.1 r.2 = false) → (x.scatter 0x08 p.ws).2 = false →
        s.does i sd (fun x y => x.endsWriting y o stDone p.result p.ws))
    passes (.plSort sd env) 4 n ⟨reads, ws, out.length⟩ ∧
    passes (.plMerge sd env) 5 first (z.mergePass o) ∧
    (∀ w ∈ (z.mergePass o).ws, within (local46 (sfld b 0 0 64) + 16 * sfld b 8 0 32) (16 * first) w.1 ∨ within (l + 8) 4 w.1 ∨
      ∃ r, r < sfld b 12 0 7 ∧ within (l + 28 + 16 * r) 4 w.1) ∧
    passes (.plPillar sd env) 6 n (z.pillarPass o) ∧
    (∀ w ∈ (z.pillarPass o).ws, within (local46 (sfld b 32 0 64) + 16 * sfld b 28 0 32) (16 * n) w.1 ∨
      within (local46 (sfld b 40 0 64)) (4 * (sfld b 12 0 16 * sfld b 14 0 16)) w.1 ∨ within (l + 28) 4 w.1) ∧
    passes (.plRules sd env) 7 n (z.rulesPass o) ∧
    (∀ w ∈ (z.rulesPass o).ws, local46 (o.f 48 0 64) ≤ w.1)

/-- R338 to R348: PT_PAINT writes its rows' features and marks as its pass over them gives, and ends with the number of rows painted; PT_BLANK
fills its rows of a half buffer that is not sealed with the cell without data; PT_SEAL started by the cut-off of a frame time, from that time on
and not yet sealed, writes the half header and the tracks kept, seals the half, protects its buffer and sends it with its tracks to the other
side; otherwise it ends with the flag that says why. -/
def Obligations.PlatCommands : Prop :=
  ∀ (s : State) (sd : SideId) (env : Env) (o : Op) (st : Nat),
    let x := s.side sd
    let z := x.asRun o
    let h := o.f 32 0 1
    let n := o.f 38 0 16
    let ws := goodAt (x.ptHalfBuf h + 512 + o.f 36 0 16 * x.ptW * x.cellBytes) (List.replicate (n * x.ptW) x.blankCell).flatten
    let t := o.f 32 0 64
    let buf := x.ptHalfBuf (x.frameOf t % 2)
    let due : Prop := x.isFrameTime t = true ∧ t ≤ st ∧ st ≤ t + x.ptCutoff
    let p := z.paintPass o
    let q := z.sealPass o
    let clean (reads : List (Nat × Nat)) : Prop := ∀ r ∈ reads, x.readGuarded 0x09 r.1 r.2 = false ∧ z.poisoned r.1 r.2 = false
    (x.runs 0x09 0 1 env o → o.f 44 0 32 = 0 → s.does (.ptPaint sd env) sd (fun x y => x.ends y o stDone 0)) ∧
    (x.runs 0x09 0 1 env o → o.f 44 0 32 ≠ 0 → clean p.reads → (x.scatter 0x09 p.ws).2 = false → s.does (.ptPaint sd env) sd (fun x y =>
      x.endsWriting y o (if p.posed then stDone else stFlagged) (p.rows + if p.posed then 0 else 2 ^ 32) p.ws)) ∧
    (x.runs 0x09 0 1 env o → o.f 44 0 32 ≠ 0 → (∃ r ∈ p.reads, x.readGuarded 0x09 r.1 r.2 = true) → s.does (.ptPaint sd env) sd (fun x y =>
      x.ends y o stAddress 0)) ∧
    (x.runs 0x09 0 2 env o → n ≠ 0 → x.ptBufSealed h = false → (x.scatter 0x09 ws).2 = false → s.does (.ptBlank sd env) sd (fun x y =>
      x.endsWriting y o stDone 0 ws)) ∧
    (x.runs 0x09 0 2 env o → n ≠ 0 → x.ptBufSealed h = true → s.does (.ptBlank sd env) sd (fun x y => x.ends y o stFlagged (2 ^ 63))) ∧
    (x.runs 0x09 0 3 env o → o.run = some (0, st) → ¬ due → (∀ e ∈ x.pt.seals, e.t ≠ t) → s.does (.ptSeal sd env) sd (fun x y =>
      x.ends y o stFlagged (2 ^ 32))) ∧
    (x.runs 0x09 0 3 env o → o.run = some (0, st) → due → (∃ e ∈ x.pt.seals, e.t = t) → s.does (.ptSeal sd env) sd (fun x y =>
      x.ends y o stFlagged (2 ^ 33))) ∧
    (x.runs 0x09 0 3 env o → o.run = some (0, st) → due → (∀ e ∈ x.pt.seals, e.t ≠ t) → clean q.reads → (x.scatter 0x09 q.ws).2 = false →
      s.does (.ptSeal sd env) sd (fun x y =>
        x.endsWriting y o (if q.flags = 0 then stDone else stFlagged) (q.bad + q.flags * 2 ^ 32) q.ws [.pt, .guards, .xout] ∧
        (∃ e, y.pt = { x.pt with seals := x.pt.seals ++ [e] } ∧ e.t = t ∧ e.sealedAt = x.now ∧ e.header = fromBytes q.header) ∧
        (x.pt.merged = none → ∀ ow m, ow ≠ 0x09 → buf ≤ m → m < buf + x.bufBytes → y.writeGuarded ow m 1 = true) ∧
        (x.flag Reg.BN_STATE 3 = true → x.fld Reg.SW_STATE 0 2 ≠ 3 →
          ∃ u v, y.xout = x.xout ++ [u, v] ∧ u.cls = 3 ∧ u.time = t ∧ v.cls = 4 ∧ v.time = t)))

/-- R41, R43, R350 to R362: a half grid of the frame being collected, with this side's geometry, is kept with its place in the receive buffer, as
are its tracks; another half is discarded, counted once with its track list; a merge without either half counts an empty frame, and one with a half
prepares the record of the next epoch; a record due is written, its epoch shown, and the outputs signalled. -/
def Obligations.PlatExchange : Prop :=
  ∀ (s : State) (sd : SideId) (m : XMsg) (rest : List XMsg) (got took : Nat) (r : PtRecord),
    let x := s.side sd
    let z := s.side sd.other
    let arrives (c : Instr) (P : Side → Prop) : Prop :=
      ∃ t, exec c s = .next t ∧ (t.side sd.other).xout = rest ∧ P (t.side sd)
    let cut := x.pt.next + x.ptCutoff
    let own := x.pt.seals.any (fun h => h.t == x.pt.next && decide (h.sealedAt ≤ cut))
    x.atRest → z.acts = Agent.hub →
    (firstOf 3 z.xout = some (m, rest) → x.ptOn = true → m.time = x.ptCollect x.now → (m.bytes.drop 64).take 64 = x.ptGeometry →
      512 ≤ m.bytes.length → arrives (.halfGridReceive sd got []) (fun y =>
        (∃ h ∈ y.pt.halves, h.t = m.time ∧ h.at_ = x.now ∧ h.header = fromBytes (m.bytes.take 512) ∧
          h.bad = (!m.bad.isEmpty || decide (got < m.bytes.length))) ∧
        x.keptBut y [.pt, .cells, .poison] (fun k => k = Reg.PT_CNT2))) ∧
    (firstOf 3 z.xout = some (m, rest) → (x.ptOn = false ∨ m.time ≠ x.ptCollect x.now) → arrives (.halfGridReceive sd got []) (fun y =>
      y.fld Reg.PT_CNT 48 16 = min 65535 (x.fld Reg.PT_CNT 48 16 + 1) ∧ y.pt = { x.pt with late := some m.time } ∧
      x.keptBut y [.pt] (fun k => k = Reg.PT_CNT))) ∧
    (firstOf 4 z.xout = some (m, rest) → x.ptOn = true → m.time = x.ptCollect x.now → arrives (.trackListReceive sd got []) (fun y =>
      (∃ h ∈ y.pt.tracks, h.t = m.time ∧ h.at_ = x.now ∧ h.count = m.bytes.length / 128) ∧
      x.keptBut y [.pt, .cells, .poison] (fun k => k = Reg.PT_CNT2))) ∧
    (firstOf 4 z.xout = some (m, rest) → (x.ptOn = false ∨ m.time ≠ x.ptCollect x.now) → arrives (.trackListReceive sd got []) (fun y =>
      y.fld Reg.PT_CNT 48 16 = min 65535 (x.fld Reg.PT_CNT 48 16 + if x.pt.late = some m.time then 0 else 1) ∧
      x.keptBut y [] (fun k => k = Reg.PT_CNT))) ∧
    (x.ptOn = true → cut ≤ x.now → x.pt.record = none → own = false → x.pt.halves = [] → (∀ p ∈ x.pt.pins, p.revoked = false) →
      s.does (.platMerge sd took []) sd (fun x y =>
        y.pt.next = x.pt.next + x.framePeriod ∧ y.pt.record = none ∧
        y.fld Reg.PT_CNT 0 16 = min 65535 (x.fld Reg.PT_CNT 0 16 + 1) ∧
        (∃ e, y.events = x.events ++ [e] ∧ e.code = 0x0B ∧ e.unit = 0x09 ∧ e.detail = x.pt.next))) ∧
    (x.ptOn = true → cut ≤ x.now → x.pt.record = none → own = true → s.does (.platMerge sd took []) sd (fun x y =>
      y.pt.next = x.pt.next + x.framePeriod ∧
      ∃ e, y.pt.record = some e ∧ e.epoch = (x.rd Reg.PT_EPOCH).toNat + 1 ∧ x.pt.next + x.ptPub ≤ e.published)) ∧
    (x.pt.record = some r → r.published ≤ x.now → x.tvOn = false → s.does (.platPublish sd []) sd (fun x y =>
      y.rd Reg.PT_EPOCH = BitVec.ofNat 64 r.epoch ∧ y.pt = { x.pt with record := none } ∧
      x.keptBut y [.pt, .cells, .poison] (fun k => k = Reg.PT_EPOCH ∨ k / 0x1000000 = 0x11)))

/-! ### Traverse and the Bridle -/

/-- R539 to R579: TV_OPEN opens a query on the epoch it pins, or says why not; TV_MAP copies its rows of the pinned buffer into the cost map;
TV_GROW adds to the tree, and TV_SEARCH carries the query on or ends it, as their runs over the query give; TV_SEARCH ends as SEARCH_EXHAUSTED
where nothing is left to take; TV_PACE of an ended query publishes the plan that its run over the path gives in the plan buffer next in turn; a
stop due is published in the stop buffer next in turn, once Traverse may take it up. -/
def Obligations.PathQueries : Prop :=
  ∀ (s : State) (sd : SideId) (env : Env) (durs : List Nat) (o : Op) (q : TvQuery),
    let x := s.side sd
    let z := x.asRun o
    let b := o.block (o.f 32 0 64)
    let e := o.pages.headD 0
    let abandon := bitAt b 902
    let keep := bitAt b 901
    let root := bitAt b 900
    let serial := (x.tv.serial + 1) % 2 ^ 32
    let start := if root then x.tvNN + (if keep then x.tvUN else 0) else sfld b 32 0 32
    let mine (k : Nat) : Prop := k / 0x1000000 = 0x0A
    let within (a n m : Nat) : Prop := a ≤ m ∧ m < a + n
    let result (q : TvQuery) (m : Nat) : Prop := within q.recordAt (128 + 8 * sfld q.block 116 0 16) m
    let opened (m : Nat) : Prop := within (local46 (sfld b 16 0 64) + 32 * start) 32 m ∨
      (root = true ∧ (within (x.tvDyn + 16 * (start - x.tvNN)) 16 m ∨ within (x.tvDyn + 16 * x.tvDN + 8 * (start - x.tvNN)) 8 m)) ∨
      ∃ old, x.tvRunning = some old ∧ result old m
    let free (at_ : Nat → Prop) : Prop := ∀ m, at_ m → x.writeGuarded 0x0A (m / 64 * 64) 64 = false
    let running := if x.tvRunning.isSome then 2 ^ 32 else 0
    let rows := ((upTo (o.f 34 0 16)).map (fun r => z.mapRow q (o.f 32 0 16 + r))).flatten
    let grown := z.growRun o q
    let run := z.searchRun o q durs false
    let paced := z.paceRun o q z.draw.1
    let plan := local46 (x.rd (Reg.TV_PBASE ((x.tv.planSeq + 1) % 2 ^ 64 % 2))).toNat
    let planned := goodAt plan (trajBytes paced.head x.now ((x.tv.planSeq + 1) % 2 ^ 64) paced.out)
    let stop := local46 (x.rd (Reg.TV_MBASE ((x.tv.stopSeq + 1) % 2 ^ 64 % 2))).toNat
    let begun := match o.run with | some (_, t) => t | none => x.now
    let stale : Prop := sfld b 44 0 32 ≠ 0 ∧ q.validity + sfld b 44 0 32 < begun
    let after (y w : Side) : Prop :=
      ∀ k, (∀ l, x.recordAt o.queue o.chain o.slots = some l → k < l ∨ l + 32 ≤ k) → y.mem.get k = w.mem.get k
    let changed (w : Side) (k : Nat) : Prop := w.mem.get k ≠ x.mem.get k
    let flagged (f : Nat) : Nat := if f = 0 then stDone else stFlagged
    (x.runs 0x0A 0 1 env o → x.tvRunning = some q → abandon = false → s.does (.tvOpen sd env) sd (fun x y =>
      x.ends y o stFlagged (q.serial % 2 ^ 32 + 5 * 2 ^ 32) [] mine)) ∧
    (x.runs 0x0A 0 1 env o → x.tvRunning = none → (e = 0 ∨ x.ptOn = false) → s.does (.tvOpen sd env) sd (fun x y =>
      x.ends y o stFlagged (8 * 2 ^ 32) [] mine)) ∧
    (x.runs 0x0A 0 1 env o → (x.tvRunning = none ∨ abandon = true) → e ≠ 0 → x.ptOn = true → (x.rd Reg.PT_EPOCH).toNat < e + 2 →
      (∀ p ∈ x.pt.pins, p.query ≠ serial) → free opened → s.does (.tvOpen sd env) sd (fun x y =>
        x.ends y o stDone (serial + 2 ^ 32) [.tv, .pt] mine opened ∧
        (∃ q', y.tv.query = some q' ∧ q'.serial = serial ∧ q'.running = true ∧ q'.epoch = e ∧ q'.block = b ∧ q'.rows = [] ∧
          (∃ key, q'.paddock = [(key, start)])) ∧
        (⟨serial, e, false⟩ : PtPin) ∈ y.pt.pins ∧ y.rd Reg.TV_PIN = BitVec.ofNat 64 e)) ∧
    (x.runs 0x0A 0 2 env o → o.f 34 0 16 = 0 → s.does (.tvMap sd env) sd (fun x y => x.ends y o stDone running [] mine)) ∧
    (x.runs 0x0A 0 2 env o → o.f 34 0 16 ≠ 0 → x.tvRunning = none → s.does (.tvMap sd env) sd (fun x y => x.ends y o stFlagged (2 * 2 ^ 32) [] mine)) ∧
    (x.runs 0x0A 0 2 env o → o.f 34 0 16 ≠ 0 → x.tvRunning = some q → (x.scatter 0x0A rows).2 = false → s.does (.tvMap sd env) sd (fun x y =>
      x.endsWriting y o stDone (o.f 34 0 16 + 2 ^ 32) rows [.tv] mine ∧
      y.tv.query = some { q with rows := (o.f 32 0 16, o.f 34 0 16) :: q.rows })) ∧
    (x.runs 0x0A 0 3 env o → sfld b 40 0 16 ≠ 0 → x.tvRunning = some q → x.flag Reg.TV_CTRL 2 = false → s.does (.tvGrow sd env) sd (fun x y =>
      x.ends y o stFlagged (17 * 2 ^ 32) [] mine)) ∧
    (x.runs 0x0A 0 3 env o → sfld b 40 0 16 ≠ 0 → x.tvRunning = some q → x.flag Reg.TV_CTRL 2 = true → x.tvUN ≠ 0 → grown.1.met = false →
      s.does (.tvGrow sd env) sd (fun x y =>
        x.ends y o (flagged grown.1.flags) (grown.2 % 2 ^ 32 + (grown.1.flags + 1) * 2 ^ 32) [.tv] mine (changed grown.1.s) ∧
        after y grown.1.s ∧ y.tv.query = some grown.1.q)) ∧
    (x.runs 0x0A 0 4 env o → x.tvRunning = some q → x.flag Reg.TV_CTRL 2 = true → run.1.met = false → run.2.1 = none →
      s.does (.tvSearch sd env durs false) sd (fun x y =>
        x.ends y o (flagged run.1.flags) (run.2.2.2.1 % 2 ^ 32 + (run.1.flags + 1) * 2 ^ 32) [.tv] mine (changed run.1.s) ∧
        after y run.1.s ∧ y.tv.query = some run.1.q ∧ run.1.q.serial = q.serial ∧ run.1.q.block = q.block)) ∧
    (∀ k node t, x.runs 0x0A 0 4 env o → x.tvRunning = some q → x.flag Reg.TV_CTRL 2 = true → run.2.1 = some (k, node, t) →
      let w := (run.1.s.showQuery run.1.q).endQuery run.1.q k t node
      let st := if k = 2 then stExhausted else if k = 3 then stPathTimeout else if k = 4 then stEpoch else if k = 6 then stPoison
        else flagged run.1.flags
      run.1.met = false → w.2 = false → s.does (.tvSearch sd env durs false) sd (fun x y =>
        x.ends y o st (run.2.2.2.1 % 2 ^ 32 + run.1.flags * 2 ^ 32) [.tv, .pt] mine (changed w.1) ∧ after y w.1 ∧
        y.tv.query = some { run.1.q with running := false, outcome := k, paddock := [] } ∧ (∀ p ∈ y.pt.pins, p.query ≠ q.serial))) ∧
    (x.runs 0x0A 0 4 env o → x.tvRunning = some q → x.flag Reg.TV_CTRL 2 = true → q.paddock = [] → o.resv = 0 → o.pages = [] →
      30000 ≤ o.f 32 0 32 → sfld q.block 8 0 64 = 0 → free (result q) → s.does (.tvSearch sd env durs false) sd (fun x y =>
        x.ends y o stExhausted 1 [.tv, .pt] mine (result q) ∧
        (∃ q', y.tv.query = some q' ∧ q'.running = false ∧ q'.outcome = 2) ∧ (∀ p ∈ y.pt.pins, p.query ≠ q.serial) ∧
        y.fld Reg.TV_CNT 32 16 = min 65535 (x.fld Reg.TV_CNT 32 16 + 1) ∧ y.rd Reg.TV_PIN = 0)) ∧
    (x.runs 0x0A 0 5 env o → x.tv.query = some q → q.running = true → s.does (.tvPace sd env) sd (fun x y =>
      x.ends y o stFlagged (2049 * 2 ^ 32) [] mine)) ∧
    (x.runs 0x0A 0 5 env o → x.tv.query = some q → q.running = false → stale → s.does (.tvPace sd env) sd (fun x y =>
      x.ends y o stEpoch 0)) ∧
    (x.runs 0x0A 0 5 env o → x.tv.query = some q → q.running = false → ¬ stale →
      (∃ r ∈ z.paceReads q, z.poisoned r.1 r.2 = true) → s.does (.tvPace sd env) sd (fun x y => x.ends y o stPoison 0)) ∧
    (x.runs 0x0A 0 5 env o → x.tv.query = some q → q.running = false → ¬ stale → (∀ r ∈ z.paceReads q, z.poisoned r.1 r.2 = false) →
      (x.scatter 0x0A planned).2 = false → s.does (.tvPace sd env) sd (fun x y =>
        x.endsWriting y o (flagged paced.flags) (paced.out.length % 2 ^ 32 + paced.flags * 2 ^ 32) planned [.tv, .fresh] mine ∧
        y.fld Reg.TV_SEQ 0 32 = (x.tv.planSeq + 1) % 2 ^ 64 % 2 ^ 32)) ∧
    (∀ epoch published rest, x.atRest → x.mayUpdate = true → x.tv.stops = (epoch, published) :: rest → s.does (.tvStopUpdate sd []) sd (fun x y =>
      y.fld Reg.TV_SEQ 32 32 = (x.tv.stopSeq + 1) % 2 ^ 64 % 2 ^ 32 ∧
      y.tv = { x.tv with stops := rest, stopSeq := (x.tv.stopSeq + 1) % 2 ^ 64 } ∧
      (∀ m, ¬ within stop 32896 m → y.mem.get m = x.mem.get m) ∧ x.keptBut y [.tv, .cells, .poison, .events] mine))

/-- R588 to R613: BR_BIND binds the structure of a verified image to its slot, or says why not; BR_SOLVE refuses a slot without a structure, a
poisoned one, another structure's and a stale trajectory, else sets up its solve with the time D by which it must end, and works through its pieces;
a solve whose outcome is decided writes its record and leaves its iterate in the slot, and ends with the status of that outcome; after D the solve
ends with what it has. An error of a slot poisons it. -/
def Obligations.SolverRuns : Prop :=
  ∀ (s : State) (sd : SideId) (env : Env) (setup : Nat) (pieces : List Nat) (i : Nat) (o : Op) (st : BrSlot) (r w : BrRun) (out : BrOutcome),
    let x := s.side sd
    let z := x.asRun o
    let sl := o.f 33 0 2
    let a := local46 (x.fld (Reg.BR_IMG (o.f 32 0 3)) 12 52 * 4096)
    let len := x.brImageLen (o.f 32 0 3)
    let work := x.num (a + 32) 4
    let others := (upTo 4).foldl (fun acc k => if k = sl then acc else acc + (x.brSlot k).elim 0 (fun b => b.work)) 0
    let p := brParam o
    let tl := local46 (sfld p 32 0 64)
    let begun := match o.run with | some (_, t) => t | none => x.now
    let nu := sfld p 100 0 16
    let fresh := sfld p 32 0 64 = 0 ∨ (z.poisoned tl 128 = false ∧ x.readGuarded 0x0B tl 128 = false ∧ x.num (tl + 64) 8 ≠ 0 ∧
      (sfld p 40 0 64 = 0 ∨ begun ≤ x.num tl 8 + sfld p 40 0 64))
    let bound : Prop := x.brSlot (o.f 40 0 2) = some st ∧ st.poisoned = false ∧ (sfld p 0 0 64 = 0 ∨ sfld p 0 0 64 = st.sig) ∧
      (sfld p 110 0 2 = 2 → x.readGuarded 0x0B (local46 (sfld p 48 0 64)) (128 + 8 * (st.n + 2 * st.m)) = false)
    let due := begun + min setup (12000 + 10 * nu) + sfld p 96 0 32
    let mine (k : Nat) : Prop := k / 0x1000000 = 0x0B
    let verified : Prop := x.flag (Reg.BR_IMG (o.f 32 0 3)) 0 = true ∧ x.readGuarded 0x0B a len = false
    let ws (r : BrRun) (out : BrOutcome) := goodAt (local46 (sfld p 24 0 64)) (x.solution o r out)
    let solved (x y : Side) (r : BrRun) (out : BrOutcome) : Prop :=
      x.endsWriting y o (r.endStatus out) (r.endResult out) (ws r out) [.br] mine ∧ y.br.run = none ∧
      (x.brSlot r.slot ≠ none → r.slot < x.br.slots.length → ∃ b, y.brSlot r.slot = some b ∧ b.x = (r.kept out).x ∧ b.z = (r.kept out).z ∧
        b.y = (r.kept out).y)
    let working (x y : Side) (r : BrRun) : Prop :=
      y.br = { x.br with run := some r } ∧ x.keptBut y [.br, .pm] (fun k => k / 0x1000000 = 0x13)
    (x.runs 0x0B 0 1 env o → x.flag (Reg.BR_IMG (o.f 32 0 3)) 0 = false → s.does (.brBind sd env) sd (fun x y =>
      x.ends y o stFlagged (work + 2 ^ 32) [.br])) ∧
    (x.runs 0x0B 0 1 env o → verified → z.poisoned a len = true → s.does (.brBind sd env) sd (fun x y =>
      x.ends y o stPoison work [.br] mine ∧ y.brSlot sl = none)) ∧
    (x.runs 0x0B 0 1 env o → verified → z.poisoned a len = false → z.readImage a len = none →
      s.does (.brBind sd env) sd (fun x y => x.ends y o stFlagged (work + 2 ^ 33) [.br])) ∧
    (x.runs 0x0B 0 1 env o → verified → z.poisoned a len = false → z.readImage a len = some st →
      16777216 < st.work + others → s.does (.brBind sd env) sd (fun x y => x.ends y o stFlagged (work + 2 ^ 34) [.br])) ∧
    (x.runs 0x0B 0 1 env o → verified → z.poisoned a len = false → z.readImage a len = some st →
      st.work + others ≤ 16777216 → x.br.slots.length = 4 → s.does (.brBind sd env) sd (fun x y =>
        x.ends y o stDone work [.br] mine ∧ y.brSlot sl = some st ∧ (∀ k, k ≠ sl → y.brSlot k = x.brSlot k) ∧
        y.rd (Reg.BR_SSIG sl) = BitVec.ofNat 64 st.sig)) ∧
    (x.runs 0x0B 0 2 env o → x.br.run = none → sfld p 32 0 64 ≠ 0 → x.readGuarded 0x0B tl 128 = false → ¬ fresh →
      s.does (.brSolve sd env setup pieces) sd (fun x y => x.ends y o (if z.poisoned tl 128 then stPoison else stEpoch) 0 [.br] mine)) ∧
    (x.runs 0x0B 0 2 env o → x.br.run = none → fresh → x.brSlot (o.f 40 0 2) = none → s.does (.brSolve sd env setup pieces) sd (fun x y =>
      x.ends y o stFlagged (brFlag 10 true) [.br])) ∧
    (x.runs 0x0B 0 2 env o → x.br.run = none → fresh → x.brSlot (o.f 40 0 2) = some st → st.poisoned = true →
      s.does (.brSolve sd env setup pieces) sd (fun x y => x.ends y o stPoison 0 [.br])) ∧
    (x.runs 0x0B 0 2 env o → x.br.run = none → fresh → x.brSlot (o.f 40 0 2) = some st → st.poisoned = false → sfld p 0 0 64 ≠ 0 →
      sfld p 0 0 64 ≠ st.sig → s.does (.brSolve sd env setup pieces) sd (fun x y => x.ends y o stFlagged (brFlag 11 true) [.br])) ∧
    (x.runs 0x0B 0 2 env o → x.br.run = none → fresh → bound → ∃ r, (z.brSetup o setup).br.run = some r ∧ r.slot = o.f 40 0 2 ∧ r.last.idx = 0 ∧
      r.due = (if sfld p 8 0 64 = 0 then due else min (sfld p 8 0 64) due) ∧
      (brPieces p pieces r = (w, none) → s.does (.brSolve sd env setup pieces) sd (fun x y => working x y w)) ∧
      (brPieces p pieces r = (w, some out) → (x.scatter 0x0B (ws w out)).2 = false →
        s.does (.brSolve sd env setup pieces) sd (fun x y => solved x y w out))) ∧
    (x.runs 0x0B 0 2 env o → x.br.run = some r → brPieces p pieces r = (w, none) → s.does (.brSolve sd env setup pieces) sd (fun x y =>
      working x y w)) ∧
    (x.runs 0x0B 0 2 env o → x.br.run = some r → brPieces p pieces r = (w, some out) → (x.scatter 0x0B (ws w out)).2 = false →
      s.does (.brSolve sd env setup pieces) sd (fun x y => solved x y w out)) ∧
    (x.atRest → x.br.run = some r → o.parent = none → r.due < x.now → (x.scatter 0x0B (ws r (.deadline r.needsFactor))).2 = false →
      monitorOf 0x0B o.inst < 256 → o.queue < 64 →
      x.ops.find? (fun o => o.unit == 0x0B && o.opcode == 2 && o.run.isSome) = some o → s.does (.brSolveDeadline sd []) sd (fun x y =>
        solved x y r (.deadline r.needsFactor))) ∧
    (x.atRest → i < 4 → x.brSlot i = some st → s.does (.brSlotPoison sd i) sd (fun x y =>
      y.brSlot i = some { st with poisoned := true } ∧ (∀ k, k ≠ i → y.brSlot k = x.brSlot k) ∧
      (∃ e, y.events = x.events ++ [e] ∧ e.code = 0x06 ∧ e.unit = 0x0B ∧
        e.cmd = (x.ops.find? (fun o => o.unit == 0x0B && o.opcode == 2 && o.run.isSome && o.f 40 0 2 == i)).map (fun o => (o.chain, o.queue))) ∧
      x.keptBut y [.br, .events] mine))

/-! ### Transit, Gait and Datum time -/

/-- R245 to R254, R263 to R268: TR_POST of a sample known to the stream makes it available, another is flagged with every reason; once T + SETTLE has
passed the record of frame T, decided from the samples available by then, is due, and is written to the outputs that take it and to nothing else; a
decided revision is written likewise, after its frame. R275 to R285: once its lag has passed a Gait step takes its inputs and writes its record in its
slot of the history; GT_CORR between two poses corrects both biases as its run gives, rejects it, or says why not. -/
def Obligations.TransitAndGait : Prop :=
  ∀ (s : State) (sd : SideId) (env : Env) (o : Op) (smp : TrSample) (r : TrRevision) (rest : List TrRevision) (c : Nat) (f : TrFrame)
    (fs : List TrFrame) (cut : GaitCut) (cuts : List GaitCut) (run : CorrRun),
    let x := s.side sd
    let z := x.trCut
    let i := o.f 32 0 5
    let n := o.f 33 0 8
    let chain := o.f 36 0 32
    let vals := (upTo n).map (fun k => bits (o.block (o.f 40 0 64)) (32 * k) 32)
    let found := (x.stream i).recent.find? (fun x => x.chain == chain)
    let reasons := (if found.isNone then 1 else 0) +
      (if x.streamOn i = true ∧ x.streamFrame i = false ∧ n = x.fld (Reg.TR_SCFG i) 8 5 then 0 else 2) +
      (if ∀ v ∈ vals, (of32 v).isFin = true then 0 else 4) + (if chain ∈ (x.stream i).posted then 8 else 0)
    let within (a n m : Nat) : Prop := a ≤ m ∧ m < a + n
    let t := x.tr.next
    let seq := x.fld Reg.TR_SEQ 0 32
    let slot (c : Nat) : Nat := x.fld (Reg.TR_OBASE c) 12 52 * 4096 + seq % (16 * 2 ^ x.fld (Reg.TR_OCFG c) 0 4) * 4096
    let takes (c rev : Nat) : Prop := x.flag (Reg.TR_OCFG c) 4 = true ∧ (rev = 0 ∨ x.flag (Reg.TR_OCFG c) 23 = true)
    let transit (k : Nat) : Prop := k / 0x1000000 = 0x06 ∨ k / 0x1000000 = 0x11
    let close := t + x.settleNs
    let frame : TrFrame := ⟨t, close, 0, (x.recordStreams close).map (fun i => x.trEntry i t close false), x.egoBytes t⟩
    let written (y : Side) (f : TrFrame) (decided : Nat) : Prop :=
      let bs := x.trRecord f decided seq
      y.fld Reg.TR_SEQ 0 32 = (seq + 1) % 2 ^ 32 ∧
      (∀ m, (∀ c, c < 4 → takes c f.rev → ¬ within (slot c % 2 ^ 46) bs.length m) → y.mem.get m = x.mem.get m) ∧
      (c < 4 → takes c f.rev → (∀ d, d < 4 → d ≠ c → ¬ takes d f.rev) → slot c < 2 ^ 47 →
        x.part.populated (slot c % 2 ^ 46) bs.length = true → x.writeGuarded 0x06 (slot c % 2 ^ 46) bs.length = false →
        y.bytes (slot c % 2 ^ 46) bs.length = bs)
    let k := x.gt.nextK
    let g := x.gaitTime k
    let lag := x.fld Reg.GT_PER 0 32
    let reads := x.poseReads (o.f 32 0 64) (o.f 40 0 64)
    let clean : Prop := ∀ r ∈ reads, x.readGuarded 0x07 r.1 r.2 = false ∧ (x.asRun o).poisoned r.1 r.2 = false
    (x.runs 0x06 0 1 env o → n = 0 → s.does (.trPost sd env) sd (fun x y => x.ends y o stDone 0)) ∧
    (x.runs 0x06 0 1 env o → n ≠ 0 → reasons ≠ 0 → s.does (.trPost sd env) sd (fun x y =>
      x.ends y o stFlagged reasons [] (fun k => k = Reg.TR_SCNT2 i))) ∧
    (x.runs 0x06 0 1 env o → n ≠ 0 → reasons = 0 → found = some smp → x.tr.streams.length = 32 → s.does (.trPost sd env) sd (fun x y =>
      x.ends y o stDone 0 [.tr, .gt] (fun k => k = Reg.TR_SCNT i) ∧ chain ∈ (y.stream i).posted ∧
      (y.stream i).kept = keepSample (x.stream i).kept { smp with avail := x.now, vals := vals } ∧
      ∀ j, j ≠ i → y.stream j = x.stream j)) ∧
    (x.flag Reg.TR_CTRL 0 = true → close < x.now → x.now ≤ close + x.framePeriod →
      z.tr = { x.tr with next := t + x.framePeriod, closed := x.tr.closed ++ [frame], due := x.tr.due ++ [frame] }) ∧
    (x.flag Reg.TR_CTRL 0 = true → x.now ≤ close → z.tr = x.tr) ∧
    (x.atRest → z.tr.due = f :: fs → s.does (.transitClose sd []) sd (fun x y =>
      written y f f.close ∧ y.tr = { z.tr with due := fs } ∧ y.gt = z.gt ∧ x.keptBut y [.tr, .gt, .cells, .poison] transit)) ∧
    (x.atRest → x.tr.revs = r :: rest → (∀ f ∈ x.tr.due, f.validity ≠ r.frame.validity) → r.slot < 32 → s.does (.transitRevision sd []) sd (fun x y =>
      written y r.frame r.decided ∧ y.tr = { x.tr with revs := rest } ∧
      y.fld (Reg.TR_SCNT r.slot) 32 16 = min 65535 (x.fld (Reg.TR_SCNT r.slot) 32 16 + 1) ∧
      x.keptBut y [.tr, .cells, .poison] transit)) ∧
    (x.flag Reg.GT_CTRL 0 = true → x.gt.cuts = [] → x.gt.per ≠ 0 → g + lag < x.now → x.now ≤ g + lag + x.gt.per →
      z.gt = { x.gt with cuts := [x.gaitInputs g (g + lag)] }) ∧
    (x.atRest → z.gt.cuts = cut :: cuts → x.gt.shaped → s.does (.gaitStep sd []) sd (fun x y =>
      y.gt.nextK = k + 1 ∧ y.gt.cuts = cuts ∧ y.fld Reg.GT_SEQ 0 32 = (k + 1) % 2 ^ 32 ∧ y.gt.corr = false ∧ y.gt.shaped ∧ y.tr = z.tr ∧
      (∀ m, ¬ within (x.poseAddr k % 2 ^ 46) 128 m → y.mem.get m = x.mem.get m) ∧
      (x.part.populated (x.poseAddr k % 2 ^ 46) 128 = true → x.writeGuarded 0x07 (x.poseAddr k % 2 ^ 46) 128 = false →
        x.poseAddr k < 2 ^ 47 → y.bytes (x.poseAddr k % 2 ^ 46) 8 = toBytes 8 g) ∧
      x.keptBut y [.gt, .tr, .cells, .poison, .events] (fun k => k / 0x1000000 = 0x07))) ∧
    (x.runs 0x07 0 1 env o → (∀ r ∈ reads, x.readGuarded 0x07 r.1 r.2 = false) → (∃ r ∈ reads, (x.asRun o).poisoned r.1 r.2 = true) →
      s.does (.gtCorr sd env) sd (fun x y => x.ends y o stPoison 0 [.fresh])) ∧
    (x.runs 0x07 0 1 env o → clean → x.corrRun o = none → s.does (.gtCorr sd env) sd (fun x y => x.ends y o stFlagged 1)) ∧
    (x.runs 0x07 0 1 env o → clean → x.corrRun o = some run → run.reject = true → s.does (.gtCorr sd env) sd (fun x y =>
      x.ends y o stFlagged 2 [] (fun k => k = Reg.GT_CNT) ∧ y.fld Reg.GT_CNT 48 16 = min 65535 (x.fld Reg.GT_CNT 48 16 + 1))) ∧
    (x.runs 0x07 0 1 env o → clean → x.corrRun o = some run → run.reject = false → s.does (.gtCorr sd env) sd (fun x y =>
      (if run.far then x.ends y o stDone 0 [.gt] (fun k => k = Reg.GT_BIAS0 ∨ k = Reg.GT_BIAS1)
        else x.ends y o stFlagged 4 [.gt] (fun k => k = Reg.GT_BIAS0 ∨ k = Reg.GT_BIAS1)) ∧
      y.rd Reg.GT_BIAS0 = BitVec.ofNat 64 (run.bias.getD 0 0 + run.bias.getD 1 0 * 2 ^ 32) ∧
      y.rd Reg.GT_BIAS1 = BitVec.ofNat 64 (run.bias.getD 2 0 + run.scale * 2 ^ 32) ∧ y.gt = { x.gt with corr := true }))

/-- R169, R170, R177: with no step ordered, a cycle of the reference advances Datum time by 10 ns · (1 + RATE), in units of
2^-48 ns, and with RATE within its clamp never backwards. R172 to R186: a valid Sync or a PPS edge orders the step of the first lock or steers
RATE, one that MACsec does not admit is discarded and counted; a reference overdue or replaced leads from LOCKED to HOLDOVER; a master port sends
Sync with its follow-up, and its announce, when they are due; a peer delay request is answered, an exchange gives the link delay; a better announce
takes its port as the best. The messages' formats are the model's (IEEE 802.1AS, log entry 102). -/
def Obligations.DatumTime : Prop :=
  ∀ (s : State) (sd : SideId) (port : Nat) (jit : Int) (ref gm st0 ref0 t1 t2 t3 t4 vector : Nat),
    let x := s.side sd
    let c := x.refCycle
    let clock (s : Side) : Nat := s.datum.ns * 2 ^ 48 + s.datum.acc
    let stamp := x.stampNear 8 jit
    let off : Int := (stamp : Int) - ref
    let own : Int := (stamp : Int) - st0
    let sh : Int := (2 ^ x.fld Reg.DT_CFG 12 4 : Nat)
    let num : Int := (((ref : Int) - ref0 - own) * sh - off) * (2 ^ 48 : Nat)
    let src := x.fld Reg.DT_CFG 0 2
    let edge := x.stampNear 4 jit
    let tod := (x.rd Reg.DT_TOD).toNat
    let seq := x.datum.syncSeq
    let ival := (256 - x.fld Reg.DT_CFG 16 4) % 256
    let speaks : Prop := x.flag Reg.LG_CTRL 2 = false ∧ (x.flag (Reg.ET_SEC port) 0 = false ∨ x.flag (Reg.ET_SEC port) 4 = true)
    let heard := x.datum.src = 0 ∧ x.gptpOn port = true ∧ port = x.slavePort ∧ x.asCapable port = true ∧
      (x.datum.lastRef = none ∨ x.datum.gm = gm)
    let sends (y : Side) (bs : List (List Byte)) : Prop :=
      ∃ es, y.egress = x.egress ++ es ∧ es.map (fun e => e.bytes) = bs ∧ ∀ e ∈ es, e.port = port ∧ e.cut = false ∧ x.now ≤ e.time
    (x.datum.pendStep = none → clock x + 11 * 2 ^ 48 < 2 ^ 112 → x.datum.acc < 2 ^ 48 → -0xD1B71758E ≤ x.rate → x.rate ≤ 0xD1B71758E →
      (clock c : Int) = clock x + 10 * (2 ^ 48 + x.rate) ∧ x.now ≤ c.now) ∧
    (x.live = true →
      (heard → x.fld Reg.DT_STATE 0 2 = 0 → x.datum.run ≠ 0 → s.does (.gptpSyncReceive sd port true jit ref gm .good) sd (fun x y =>
        y.datum = { x.datum with gm := gm, run := x.datum.run + 1, pendStep := some (unsigned 64 off), lastRef := some (stamp, ref) } ∧
        x.keptBut y [.datum] (fun _ => False))) ∧
      (heard → x.fld Reg.DT_STATE 0 2 = 1 → x.datum.lastRef = some (st0, ref0) → st0 < stamp →
        s.does (.gptpSyncReceive sd port true jit ref gm .good) sd (fun x y =>
          y.rd Reg.DT_OFFSET = BitVec.ofInt 64 off ∧
          y.rate = rateClamp ((2 * num + own * sh).fdiv (2 * (own * sh))) ∧
          y.datum = { x.datum with gm := gm, run := x.datum.run + 1, lastRef := some (stamp, ref) } ∧
          x.keptBut y [.datum] (fun k => k = Reg.DT_OFFSET ∨ k = Reg.DT_RATE))) ∧
      (port ≤ 9 → x.flag (Reg.ET_SEC port) 0 = true → s.does (.gptpSyncReceive sd port true jit ref gm .bad) sd (fun x y =>
        y.fld (Reg.ET_SECCNT port) 48 16 = min 65535 (x.fld (Reg.ET_SECCNT port) 48 16 + 1) ∧
        x.keptBut y [] (fun k => k = Reg.ET_SECCNT port))) ∧
      (x.datum.src = 2 → x.fld Reg.DT_STATE 0 2 = 0 → tod ≠ 0 → s.does (.ppsEdge sd jit) sd (fun x y =>
        y.rd Reg.DT_PPS = BitVec.ofNat 64 edge ∧ y.rd Reg.DT_TOD = 0 ∧
        y.datum.pendStep = some (unsigned 64 ((edge : Int) - tod)) ∧ y.datum.lastRef = some (edge, tod) ∧
        x.keptBut y [.datum] (fun k => k = Reg.DT_PPS ∨ k = Reg.DT_TOD))) ∧
      (x.datum.src ≠ 2 → s.does (.ppsEdge sd jit) sd (fun x y => x.onlyReg y Reg.DT_PPS (BitVec.ofNat 64 edge))) ∧
      (x.referenceOverdue = true → x.fld Reg.DT_STATE 0 2 = 1 → s.does (.dtReferenceLost sd) sd (fun x y =>
        y.fld Reg.DT_STATE 0 2 = 2 ∧ y.rd Reg.DT_HOLD = BitVec.ofNat 64 x.now ∧ y.datum = { x.datum with run := 0 } ∧
        x.keptBut y [.datum] (fun k => k = Reg.DT_STATE ∨ k = Reg.DT_HOLD))) ∧
      (src ≠ x.datum.src → s.does (.dtSourceChange sd) sd (fun x y =>
        y.datum = { x.datum with src := src, srcAt := x.datum.ns, run := 0, lastRef := none, gm := 0 } ∧
        y.fld Reg.DT_STATE 0 2 = (if src = 1 ∧ x.fld Reg.DT_STATE 0 2 = 1 then 2 else x.fld Reg.DT_STATE 0 2) ∧
        x.keptBut y [.datum] (fun k => k = Reg.DT_STATE ∨ k = Reg.DT_HOLD))) ∧
      (x.masterPort port = true → speaks → x.sendDue port x.syncInterval = true → x.sendDue (16 + port) 1000000000 = false →
        s.does (.gptpSyncSend sd port) sd (fun x y =>
          sends y [x.ptpHeader 0 44 port 0x0208 seq ival ++ toBytes 10 0, x.ptpHeader 8 76 port 0x0008 seq ival ++ ptpTime x.now ++
            (toBytesBE 2 3 ++ toBytesBE 2 28 ++ toBytesBE 3 0x0080C2 ++ toBytesBE 3 1 ++ toBytes 22 0)] ∧
          y.datum.syncSeq = (seq + 1) % 65536 ∧ alGet 0 y.datum.lastSent port = x.now ∧
          x.keptBut y [.datum, .egress] (fun _ => False))) ∧
      (x.masterPort port = true → speaks → x.sendDue port x.syncInterval = false → x.sendDue (16 + port) 1000000000 = true →
        s.does (.gptpSyncSend sd port) sd (fun x y =>
          sends y [x.announceBytes port seq] ∧ alGet 0 y.datum.lastSent (16 + port) = x.now ∧
          x.keptBut y [.datum, .egress] (fun _ => False))) ∧
      (x.gptpOn port = true → speaks → s.does (.gptpPdelayExchange sd port true t1 t2 t3 t4 .good) sd (fun x y =>
        sends y [x.ptpHeader 3 54 port 0x0208 seq 0x7F ++ ptpTime x.now ++ toBytes 10 0,
          x.ptpHeader 10 54 port 0x0008 seq 0x7F ++ ptpTime x.now ++ toBytes 10 0] ∧ x.keptBut y [.egress] (fun _ => False))) ∧
      (x.gptpOn port = true → speaks → s.does (.gptpPdelayExchange sd port false t1 t2 t3 t4 .good) sd (fun x y =>
        sends y [x.ptpHeader 2 54 port 0x0008 seq 0 ++ toBytes 20 0] ∧
        alGet 0 y.datum.linkDelay port = ((((t4 : Int) - t1) - ((t3 : Int) - t2)).fdiv 2).toNat ∧
        x.keptBut y [.datum, .egress] (fun _ => False))) ∧
      (x.flag Reg.DT_CFG 6 = true → x.gptpOn port = true → (∀ v p, x.datum.best = some (v, p) → vector < v ∨ p = port) →
        s.does (.bestMasterClockAlgorithm sd port vector .good) sd (fun x y =>
          let roles := if vector < Config.ownPriority x.id % 2 ^ 112 * 2 ^ 16 ∧ x.datum.src = 0 then [(port, 2)] else []
          y.datum = { x.datum with best := some (vector, port), bestAt := x.now, roles := roles } ∧
          x.keptBut y [.datum] (fun _ => False))))

/-! ### The Launch gate -/

/-- R195 to R206: a LAUNCH that is the gate's next command puts its frame into the schedule of its port; CANCEL takes out the frames of the port and
tag it names; a DUAL frame of a side without LEAD becomes a shadow at T_L; a frame that may begin goes out on its port, at S or at the first moment
after it that is free, as its image is, padded, and leaves the store, one that loses its CAN arbitration to an error stays; one later than its
tolerance is dropped with LATE_LAUNCH; a frame on a watched port is kept. Only report slots are written. -/
def Obligations.LaunchGate : Prop :=
  ∀ (s : State) (sd : SideId) (queue chain port t : Nat) (jit : Int) (canNs : Nat) (bytes : List Byte) (o : Op) (f : LFrame),
    let x := s.side sd
    let starts (n : Nat) : Prop := x.gateNext queue n = some o ∧ o.parent = none ∧ o.queue < 64
    let within (a n m : Nat) : Prop := a ≤ m ∧ m < a + n
    let slots := 16 * 2 ^ x.fld Reg.LG_RPT_CFG 0 4
    let slot (k : Nat) : Nat := (x.fld Reg.LG_RPT_BASE 5 59 * 32 + k % slots * 32) % 2 ^ 46
    let report (m : Nat) : Prop := ∃ k, within (slot k) 32 m
    let gate (k : Nat) : Prop := k / 0x1000000 = 0x04 ∨ (x.flag Reg.LG_RPT_CFG 21 = true ∧ k = Reg.TE_VALUE (x.fld Reg.LG_RPT_CFG 8 13))
    let apart := x.flag Reg.LG_RPT_CFG 21 = false ∨ x.fld Reg.LG_RPT_CFG 8 13 ≠ o.f 6 0 13
    let chosen (f : LFrame) : Bool := f.started && f.port == o.f 36 0 4 && f.tag == o.f 32 0 32
    let gone (y : Side) (f : LFrame) : Prop := ∀ g ∈ y.lg.frames, g.same f = false
    let only (y : Side) (ps : List Piece) (regs : Nat → Prop := fun _ => False) : Prop :=
      (∀ m, ¬ report m → y.mem.get m = x.mem.get m) ∧ x.keptBut y ([.lg, .cells, .poison] ++ ps) (fun k => gate k ∨ regs k)
    let busy := alGet 0 x.lg.busy f.port
    let tol := x.fld (Reg.LG_TOL f.port) 0 17
    let first := max f.sched (max f.startNs busy)
    let at_ := if x.datum.prev < first then first else x.now
    let g := x.lgJudged f
    let begins : Prop := x.lgFind queue chain (fun f => (x.lgMoment (x.lgJudged f)).isSome) = some f ∧ x.lgMoment g = some t
    x.atRest →
    (starts 1 → x.flag Reg.LG_CTRL 2 = false → x.lgFind o.queue o.chain (fun f => !f.started) = some f →
      s.does (.launch sd queue) sd (fun x y =>
        x.ends y o stDone 0 [.lg, .rr] ∧ y.lg.nextOrder = x.lg.nextOrder + 1 ∧
        ∃ g ∈ y.lg.frames, g.same f = true ∧ g.started = true ∧ g.startNs = x.now ∧ g.order = x.lg.nextOrder ∧
          g.sched = (if f.dual = false ∧ f.tl = 0 then x.now else f.tl) ∧ g.image = f.image ∧ g.port = f.port)) ∧
    (x.flag Reg.LG_CTRL 2 = true → x.ops.find? (fun o => o.queue == queue && o.unit == 0x04 && o.opcode == 1 && x.ready o) = some o →
      o.parent = none → o.queue < 64 → x.lgFind o.queue o.chain (fun f => !f.started) = some f → s.does (.launch sd queue) sd (fun x y =>
      x.ends y o stDegraded 0 [.lg] ∧ gone y f)) ∧
    (starts 2 → apart → s.does (.cancel sd queue) sd (fun x y =>
      x.ends y o stDone (x.lg.frames.filter chosen).length [.lg, .rr] gate report ∧
      (∀ g ∈ x.lg.frames, chosen g = true → gone y g) ∧ ∀ g ∈ y.lg.frames, g ∈ x.lg.frames)) ∧
    (x.lgFind queue chain (fun f => f.started && f.dual && !f.judged && decide (f.tl ≤ x.now) && !(x.leadAt f.tl)) = some f →
      let g := { f with judged := true, shadow := true, sched := f.tl + 250000 }
      ((∀ k ∈ x.lg.kept, k.cancels g = false) → s.does (.shadowMake sd queue chain) sd (fun x y =>
        g ∈ y.lg.frames ∧ x.keptBut y [.lg] (fun _ => False))) ∧
      ((∃ k ∈ x.lg.kept, k.cancels g = true) → s.does (.shadowMake sd queue chain) sd (fun x y =>
        gone y f ∧ y.fld Reg.LG_COUNT 0 16 = min 65535 (x.fld Reg.LG_COUNT 0 16 + 1) ∧ only y []))) ∧
    (f.started = true → (f.dual = false ∨ f.judged = true ∨ x.leadAt f.tl = true) → x.flag Reg.LG_CTRL 0 = true → x.flag Reg.LG_CTRL 2 = false →
      (if f.port ≤ 9 then x.flag (Reg.ET_SEC f.port) 0 = false ∨ x.flag (Reg.ET_SEC f.port) 4 = true
        else x.flag (Reg.IN_CANB (f.port - 10)) 17 = false) →
      x.fld Reg.SW_STATE 0 2 ≠ 0 → first ≤ x.now → x.lgNext g = true → (f.free = true ∨ at_ ≤ f.sched + tol) → x.lgMoment g = some at_) ∧
    (begins → s.does (.launchFrameBegin sd queue chain jit canNs false []) sd (fun x y =>
      (∃ e, y.egress = x.egress ++ [e] ∧ e.port = f.port ∧ e.time = t ∧ e.bytes = f.wire ∧ e.cut = false ∧
        e.till = t + x.wireNs f canNs ∧ alGet 0 y.lg.busy f.port = e.till) ∧
      gone y f ∧
      (f.free = true ∨ (f.shadow = false ∧ t = f.sched) → y.fld Reg.LG_SENT 0 32 = min (2 ^ 32 - 1) (x.fld Reg.LG_SENT 0 32 + 1)) ∧
      (f.shadow = false → y.events = x.events) ∧
      (f.shadow = true → ∃ e, y.events = x.events ++ [e] ∧ e.code = 0x0F ∧ e.unit = 0x04 ∧ e.detail = f.tag) ∧
      only y [.egress, .events] (fun k => 9 < f.port ∧ k = Reg.IN_CANB (f.port - 10)))) ∧
    (begins → 9 < f.port → s.does (.launchFrameBegin sd queue chain jit canNs true []) sd (fun x y =>
      (∃ e, y.egress = x.egress ++ [e] ∧ e.port = f.port ∧ e.time = t ∧ e.cut = true) ∧ g ∈ y.lg.frames ∧
      x.keptBut y [.lg, .egress] (fun k => k = Reg.IN_CANB (f.port - 10)))) ∧
    (x.lgFind queue chain (fun f => (x.lgJudged f).started && (!(x.lgJudged f).dual || (x.lgJudged f).judged) && !(x.lgJudged f).free &&
        decide ((x.lgJudged f).sched + x.fld (Reg.LG_TOL (x.lgJudged f).port) 0 17 < x.now) && (x.lgMoment (x.lgJudged f)).isNone) = some f →
      s.does (.launchFrameDropLate sd queue chain []) sd (fun x y =>
        gone y f ∧ y.fld Reg.LG_COUNT 48 16 = min 65535 (x.fld Reg.LG_COUNT 48 16 + 1) ∧ only y [] ∧
        (f.report = true →
          let a := x.fld Reg.LG_RPT_BASE 5 59 * 32 + x.fld Reg.LG_RPT_HEAD 0 32 % slots * 32
          a < 2 ^ 47 → x.part.populated (a % 2 ^ 46) 32 = true → x.writeGuarded 0x04 (a % 2 ^ 46) 32 = false →
          y.bytes (a % 2 ^ 46) 7 = toBytes 4 f.chain ++ toBytes 2 stLate ++ toBytes 1 2 ∧
          y.fld Reg.LG_RPT_HEAD 0 32 = (x.fld Reg.LG_RPT_HEAD 0 32 + 1) % 2 ^ 32))) ∧
    (x.flag Reg.LG_WATCH port = true → port ≤ 13 → s.does (.watchFrameReceive sd port bytes true []) sd (fun x y =>
      (⟨port, x.now, bytes⟩ : Kept) ∈ y.lg.kept ∧ (y.lg.kept.filter (fun k => k.port == port)).length ≤ 64 ∧
      (∀ k : Kept, k.port ≠ port → (k ∈ y.lg.kept ↔ k ∈ x.lg.kept)) ∧
      (∀ g ∈ x.lg.frames, g.shadow = true → (⟨port, x.now, bytes⟩ : Kept).cancels g = true → gone y g) ∧ only y []))

/-! ### Sensor ingress -/

/-- R208 to R243: a frame start opens a sample with the next chain number, payload lines are added to it and land as they come (R232), and its
end queues the prefix; an Ethernet or CAN frame that the lowest slot enabled at its first bit asks for, and an SPI burst, enter that slot's Race
queue behind their prefix, and what none asks for is counted; an SPI transfer begins with its CMD sent; a whole packet becomes readable with the
time it does so as its ARRIVAL; triggers of the driving slot rise within 20 ns of PHASE + k · PERIOD and fall; links and buses come and go. R447,
R448: the scrubs count the errors they meet. -/
def Obligations.SensorIngress : Prop :=
  ∀ (s : State) (sd : SideId) (rx vc dtype port bus dlc ident i gear stack st per ph a took : Nat) (data : List Byte) (ide fdf brs esi ok : Bool)
    (jit : Int) (m : Sample) (w : RaceWord) (p : RacePend) (rest : List RacePend),
    let x := s.side sd
    let chain := x.fld (Reg.IN_SCHAIN i) 0 32
    let words (m : Sample) : List RaceWord := packWords 300 ((x.samplePrefix i m false false 0).map (fun b => (b, false)) ++ m.bytes)
    let fits (m : Sample) : Prop := x.lands i = false ∧ (x.slot i).words.length + (words m).length ≤ 256 ∧ m.bytes.length ≤ 8160
    let whole (raw : Option Nat) (bs : List Byte) : Sample :=
      ⟨chain, x.adjusted i (raw.getD 0), bs.map (fun b => (b, false)), raw.isNone, false, false, none⟩
    let others (y : Side) (i : Nat) : Prop := (∀ j, j ≠ i → y.slot j = x.slot j) ∧ y.ing.trig = x.ing.trig
    let queued (y : Side) (m : Sample) : Prop :=
      (y.slot i).words = (x.slot i).words ++ words m ∧ (y.slot i).pend = (x.slot i).pend ++ [⟨(words m).length, none⟩] ∧
      (y.slot i).prog = none ∧ (y.slot i).disc = 0 ∧ (y.slot i).readable = (x.slot i).readable ∧ others y i ∧
      x.keptBut y [.ing] (fun k => k = Reg.IN_SCHAIN i ∨ k = Reg.IN_SSTAT i)
    let counted (y : Side) (k lo n : Nat) : Prop :=
      y.fld k lo n = min (2 ^ n - 1) (x.fld k lo n + 1) ∧ x.keptBut y [] (fun j => j = k)
    let eth (ok : Bool) : Instr := .ethFrameReceive sd port data ok .plain jit []
    let can (kind : Nat) : Instr := .canFrameReceive sd bus kind ident ide fdf brs esi dlc data jit took []
    let t0 := x.firstByte port data
    let listed := x.takerAt t0 (fun scfg eth => ethMatch scfg eth port data)
    let off := x.fld (Reg.IN_ETH i) 0 16
    let raw := if x.kind i = 2 then some (stampOf 8 jit t0) else if off + 8 ≤ data.length then some (fromBytes ((data.drop off).take 8)) else none
    let sof := x.now - took
    let asked := x.takerAt sof (fun scfg c => canMatch scfg c bus ident ide)
    let bit (b : Bool) (k : Nat) : Nat := if b then 2 ^ k else 0
    let head := toBytes 4 (ident % 2 ^ 29 + bit ide 29 + bit fdf 30 + bit brs 31) ++ toBytes 1 (dlc % 16 + bit esi 4) ++ toBytes 3 0
    let frame := whole (some (stampOf 4 jit sof)) (head ++ data)
    let n := x.fld (Reg.IN_SPI i) 0 9
    let t := x.ing.trig.getD rx ⟨none, none, false⟩
    let rise := ph + (x.now + 20 - ph) / per * per
    let far := x.part.farGB * 2 ^ 30
    x.atRest → i < 32 → x.ing.slots.length = 32 → x.ing.spi.length = 2 → x.ing.trig.length = 16 →
    (rx ≤ 15 → x.flag (Reg.IN_APHY rx) 8 = true → x.camSlot rx vc = some i →
      ((x.slot i).prog = none → x.landStart i = some st → s.does (.csi2PacketReceive sd rx vc 0x00 0 true [] []) sd (fun x y =>
        (∃ m, (y.slot i).prog = some m ∧ m.chain = chain ∧ m.bytes = [] ∧ m.start = some st) ∧
        y.fld (Reg.IN_SCHAIN i) 0 32 = (chain + 1) % 2 ^ 32 ∧ others y i ∧ x.keptBut y [.ing] (fun k => k = Reg.IN_SCHAIN i))) ∧
      ((x.slot i).prog = none → x.lands i = true → x.landStart i = none → s.does (.csi2PacketReceive sd rx vc 0x00 0 true [] []) sd (fun x y =>
        (y.slot i).prog = none ∧ (y.slot i).words = (x.slot i).words ∧ (y.slot i).disc = (x.slot i).disc + 1 ∧
        y.fld (Reg.IN_SCHAIN i) 0 32 = (chain + 1) % 2 ^ 32 ∧ y.fld (Reg.IN_SSTAT i) 32 16 = min 65535 (x.fld (Reg.IN_SSTAT i) 32 16 + 1) ∧
        others y i ∧ x.keptBut y [.ing] (fun k => k = Reg.IN_SCHAIN i ∨ k = Reg.IN_SSTAT i))) ∧
      (let bs := data.map (fun b => (b, !ok))
       let ws := x.landWrites i (st + m.bytes.length) bs
       (x.slot i).prog = some m → dtype ∈ [0x2A, 0x2B, 0x2C, 0x2D, 0x2E, 0x1E] → m.start = some st →
        (m.bytes.length + data.length ≤ x.maxSample i → (∀ w ∈ ws, x.writeGuarded 0x05 w.1 1 = false) →
          s.does (.csi2PacketReceive sd rx vc dtype 0 ok data []) sd (fun x y =>
            (y.slot i).prog = some { m with bytes := m.bytes ++ bs } ∧ (y.slot i).words = (x.slot i).words ∧
            (∀ a, y.mem.get a = (x.mem.scatter (x.carried ws)).get a) ∧ others y i ∧
            x.keptBut y [.ing, .cells, .poison] (fun _ => False))) ∧
        (x.maxSample i < m.bytes.length + data.length → m.bytes.length ≤ x.maxSample i → (∀ w ∈ ws, x.writeGuarded 0x05 w.1 1 = false) →
          s.does (.csi2PacketReceive sd rx vc dtype 0 ok data []) sd (fun x y =>
            (y.slot i).prog = none ∧ (y.slot i).words = (x.slot i).words ∧ (y.slot i).disc = (x.slot i).disc + 1 ∧
            y.fld (Reg.IN_SSTAT i) 32 16 = min 65535 (x.fld (Reg.IN_SSTAT i) 32 16 + 1) ∧
            (∀ a, y.mem.get a = (x.mem.scatter (x.carried (ws.take (x.maxSample i - m.bytes.length)))).get a) ∧ others y i ∧
            x.keptBut y [.ing, .cells, .poison] (fun k => k = Reg.IN_SSTAT i)))) ∧
      ((x.slot i).prog = some m → m.start = some st → m.noStamp = false →
        ((x.slot i).words.length < 256 → s.does (.csi2PacketReceive sd rx vc 0x01 0 true [] []) sd (fun x y =>
          (y.slot i).prog = none ∧ (y.slot i).head = st + m.bytes.length ∧ (y.slot i).disc = 0 ∧
          (y.slot i).words = (x.slot i).words ++ [raceWord (fromBytes (x.samplePrefix i m true false (st % 2 ^ 32))) 32 true false] ∧
          (y.slot i).pend = (x.slot i).pend ++ [⟨1, some ((st + m.bytes.length) % 2 ^ 32)⟩] ∧
          others y i ∧ x.keptBut y [.ing] (fun _ => False))) ∧
        (256 ≤ (x.slot i).words.length → s.does (.csi2PacketReceive sd rx vc 0x01 0 true [] []) sd (fun x y =>
          (y.slot i).prog = none ∧ (y.slot i).words = (x.slot i).words ∧ (y.slot i).disc = (x.slot i).disc + 1 ∧
          y.fld (Reg.IN_SSTAT i) 48 16 = min 65535 (x.fld (Reg.IN_SSTAT i) 48 16 + 1) ∧ others y i ∧
          x.keptBut y [.ing] (fun k => k = Reg.IN_SSTAT i))))) ∧
    (2 ≤ port → port ≤ 9 →
      (s.does (eth false) sd (fun _ y => counted y (Reg.IN_EPORT port) 16 16)) ∧
      (data.length ≤ 1518 → x.flag (Reg.ET_SEC port) 0 = false → (ethParse data).2.1 ≠ 0x88F7 →
        (listed = none → s.does (eth true) sd (fun _ y => counted y (Reg.IN_EPORT port) 32 32)) ∧
        (listed = some i → x.slotSince i t0 = true → fits (whole raw data) → s.does (eth true) sd (fun _ y =>
          queued y (whole raw data) ∧ y.fld (Reg.IN_SCHAIN i) 0 32 = (chain + 1) % 2 ^ 32)))) ∧
    (bus ≤ 3 → x.flag (Reg.IN_CANB bus) 16 = true → x.flag (Reg.IN_CANB bus) 17 = false →
      s.does (can 1) sd (fun _ y => counted y (Reg.IN_CANB bus) 48 16) ∧
      (asked = none → s.does (can 0) sd (fun _ y => counted y (Reg.IN_CANB bus) 32 16)) ∧
      (asked = some i → x.slotSince i sof = true → fits frame → s.does (can 0) sd (fun _ y =>
        queued y frame ∧ y.fld (Reg.IN_SCHAIN i) 0 32 = (chain + 1) % 2 ^ 32))) ∧
    (bus ≤ 3 → x.flag (Reg.IN_CANB bus) 17 = true → s.does (.canBusOffRecovery sd bus) sd (fun x y =>
      y.flag (Reg.IN_CANB bus) 17 = false ∧ y.lg = { x.lg with tec := alSet x.lg.tec bus 0 } ∧
      x.keptBut y [.lg] (fun k => k = Reg.IN_CANB bus))) ∧
    (bus ≤ 1 → x.flag (Reg.IN_SPIB bus) 0 = true →
      (x.ing.spi.getD bus none = none → x.spiSlot bus = some i → x.lands i = false → s.does (.spiDataReady sd bus jit) sd (fun x y =>
        (∃ m, (y.slot i).prog = some m ∧ m.chain = chain ∧ m.stamp = x.adjusted i (x.stampNear 4 jit) ∧ m.bytes = []) ∧
        y.ing.spi.getD bus none = some (i, (x.slot i).gen) ∧ y.fld (Reg.IN_SCHAIN i) 0 32 = (chain + 1) % 2 ^ 32 ∧ others y i ∧
        y.egress = x.egress ++ [⟨14 + bus, x.now, x.now, false, [BitVec.ofNat 8 (x.fld (Reg.IN_SPI i) 24 8)]⟩] ∧
        x.keptBut y [.ing, .egress] (fun k => k = Reg.IN_SCHAIN i))) ∧
      (x.ing.spi.getD bus none ≠ none → s.does (.spiDataReady sd bus jit) sd (fun _ y => counted y (Reg.IN_SPIB bus) 48 16))) ∧
    (bus ≤ 1 → x.ing.spi.getD bus none = some (i, (x.slot i).gen) → (x.slot i).prog = some m → data.length = n → m.noStamp = false → m.start = none →
      fits { m with bytes := data.map (fun b => (b, false)) } →
      s.does (.spiTransferComplete sd bus data []) sd (fun _ y =>
        queued y { m with bytes := data.map (fun b => (b, false)) } ∧ y.ing.spi.getD bus none = none)) ∧
    ((x.slot i).pend = p :: rest → (x.slot i).words[(x.slot i).readable]? = some w → s.does (.racePacketReadable sd i) sd (fun x y =>
      (let d := putBits w.data 64 64 x.now
       (y.slot i).words = setAt (x.slot i).words (x.slot i).readable { w with data := d, parity := parityOf d }) ∧
      (y.slot i).readable = (x.slot i).readable + p.words ∧ (y.slot i).pend = rest ∧ others y i ∧
      (∀ n, p.write = some n → y.fld (Reg.IN_LPTR i) 0 32 = n % 2 ^ 32) ∧
      x.keptBut y [.ing, .tr, .events] (fun k => k = Reg.IN_LPTR i ∨ k / 0x1000000 = 0x06))) ∧
    (rx < 16 → t.drv = some (a, (x.slot a).gen, per, ph) → per ≠ 0 → ph ≤ x.now + 20 → x.slotOn a = true → x.now ≤ rise + 20 →
      (∀ q, t.pulse = some q → q < rise) → s.does (.cameraTriggerPulse sd rx) sd (fun x y =>
        y.ing = { x.ing with trig := setAt x.ing.trig rx { t with pulse := some rise, high := true } } ∧ x.keptBut y [.ing] (fun _ => False))) ∧
    (t.high = true → t.pulse = some st → st + 1000 ≤ x.now → s.does (.cameraTriggerEnd sd rx) sd (fun x y =>
      y.ing = { x.ing with trig := setAt x.ing.trig rx { t with high := false } } ∧ x.keptBut y [.ing] (fun _ => False))) ∧
    (rx ≤ 15 →
      (1 ≤ gear → gear ≤ x.fld (Reg.IN_APHY rx) 0 4 → s.does (.aphyLinkChange sd rx true gear) sd (fun x y =>
        y.flag (Reg.IN_APHY rx) 8 = true ∧ y.fld (Reg.IN_APHY rx) 4 4 = gear ∧ x.keptBut y [] (fun k => k = Reg.IN_APHY rx))) ∧
      s.does (.aphyLinkChange sd rx false gear) sd (fun x y =>
        y.flag (Reg.IN_APHY rx) 8 = false ∧ y.fld (Reg.IN_APHY rx) 4 4 = 0 ∧ x.keptBut y [] (fun k => k = Reg.IN_APHY rx))) ∧
    (far ≠ 0 → x.fld Reg.FT_SCRUB 0 8 ≠ 0 → x.flag Reg.FT_STATE 0 = true → s.does (.ftScrubRead sd (some .fix)) sd (fun x y =>
      y.scrubLine = (x.scrubLine + 1) % (far / 64) ∧ y.fld Reg.FT_ERR 16 16 = min 65535 (x.fld Reg.FT_ERR 16 16 + 1) ∧
      x.keptBut y [.scrub] (fun k => k = Reg.FT_ERR))) ∧
    (x.part.hasInst 0x16 stack = true → x.flag (Reg.NT_STATE stack) 0 = true → s.does (.errorCheckAndScrub sd stack true) sd (fun _ y =>
      counted y (Reg.NT_ERR stack) 16 16))

/-! ### Frames, modes, Trot-ups, temperatures -/

/-- R39, R636 to R641, R661, R662, R713 to R717: a frame boundary shows its frame, returns RERUNS to 0, brings the control period and a due mode
into force, gives each camera trigger its driving slot (R223) and makes every unit's Trot-up pending; instances, stacks and Grooms follow the mode; a Trot-up runs, passes, or fails with event 0x03
and a re-run whose failure withdraws the instance; one undecided raises event 0x04; a sample shows its temperatures and lowers the ceiling. -/
def Obligations.FramesAndTrotUps : Prop :=
  ∀ (s : State) (sd : SideId) (unit inst stack diff f : Nat) (bad rest : List Nat) (dies stackTemps far : List Int) (inlet : Int) (t : TrotUnit)
    (pat : Nat × Nat),
    let x := s.side sd
    let n := x.frameOf x.now
    let tb := x.framePhase + n * x.framePeriod
    let change := x.flag Reg.PW_STATE 4 = true ∧ (x.rd Reg.PW_EFFECT).toNat ≤ tb
    let draftOrStall := (unit = 0x0E ∧ inst < 24) ∨ (unit = 0x0F ∧ inst < 4)
    let power (k : Nat) : Prop := k / 0x1000000 = 0x18
    let due := x.now / 1000000 * 1000000
    let die := hottest 0 dies
    let temps := (upTo x.part.stacks).map (fun k => stackTemps.getD k 0)
    let hot := hottest 0 (if x.part.farGB = 0 then temps else hottest 0 far :: temps)
    let warm := (x.fld Reg.PW_THERM 0 8 : Int) ≤ die ∨ (x.fld Reg.PW_THERM 8 8 : Int) ≤ hot ∨ (x.fld Reg.PW_THERM 16 8 : Int) ≤ inlet
    let pack := match x.sw.nextPack with | some a => some a | none => x.sw.pack
    x.atRest →
    (tb ≤ x.now → (∀ b, x.sw.bound = some b → b < tb) → s.does (.frameBoundary sd) sd (fun x y =>
      y.sw.bound = some tb ∧ y.rd Reg.SW_FRAME = BitVec.ofNat 64 n ∧ y.fld Reg.SW_STATE 8 8 = 0 ∧
      y.datum = { x.datum with cPhase := x.fld Reg.DT_CPER 32 32, cPeriod := x.fld Reg.DT_CPER 0 32 } ∧
      y.ing.slots = x.ing.slots ∧ (∀ rx, rx < 16 → (y.ing.trig.getD rx ⟨none, none, false⟩).drv = x.driver rx) ∧
      (change → y.mode = x.fld Reg.PW_STATE 2 2 ∧ y.flag Reg.PW_STATE 4 = false) ∧ (¬ change → y.mode = x.mode ∧ y.power = x.power) ∧
      (x.sw.armed = true → x.stewardOn = true → y.sw.first = some (x.sw.first.getD n) ∧
        ∀ u ∈ x.trotUnits, ∃ t ∈ y.sw.trots, t.unit = u.1 ∧ t.inst = u.2 ∧ t.want = some n) ∧
      x.keptBut y [.sw, .datum, .power, .unver, .ing] (fun k => k / 0x1000000 = 0x02 ∨ power k))) ∧
    (draftOrStall → x.power.leaving.contains (unit, inst) = true → x.named unit inst = false → x.idle unit inst = true →
      s.does (.enginePowerOff sd unit inst) sd (fun x y =>
        y.powered unit inst = false ∧ y.power = { x.power with leaving := x.power.leaving.filter (fun u => u != (unit, inst)) } ∧
        y.trot unit inst = none ∧ (∀ j, unit ≠ 0x0E ∨ j ≠ inst → y.manger j = x.manger j) ∧
        x.keptBut y [.sw, .unver, .power, .mangers] (fun k => k = Reg.PW_ENG ∨ k = Reg.PW_STATE))) ∧
    (draftOrStall → x.power.gaining.contains (unit, inst) = true → s.does (.enginePowerOn sd unit inst) sd (fun x y =>
      y.powered unit inst = true ∧ y.power = { x.power with gaining := x.power.gaining.filter (fun u => u != (unit, inst)) } ∧
      (x.sw.first.isSome = true → ∃ t, y.trot unit inst = some t ∧ t.owes = true ∧ t.run = none ∧ t.want.isSome = true) ∧
      x.keptBut y [.sw, .power] (fun k => k = Reg.PW_ENG ∨ k = Reg.PW_STATE))) ∧
    s.does (.groomClockChange sd) sd (fun x y =>
      y.power = { x.power with clock := x.mode } ∧
      (x.power.leaving = [] → x.power.gaining = [] → x.power.rateQ = [] → y.flag Reg.PW_STATE 8 = false) ∧
      x.keptBut y [.power] (fun k => k = Reg.PW_STATE)) ∧
    (stack < x.part.stacks → x.power.rateQ = stack :: rest → x.flag (Reg.NT_STATE stack) 0 = true → x.flag (Reg.NT_STATE stack) 1 = false →
      s.does (.stackRateChange sd stack) sd (fun x y =>
      y.flag (Reg.NT_STATE stack) 1 = true ∧ x.keptBut y [] (fun k => k = Reg.NT_STATE stack))) ∧
    (stack < x.part.stacks → x.power.rateQ = stack :: rest → x.flag (Reg.NT_STATE stack) 0 = true → x.flag (Reg.NT_STATE stack) 1 = true →
      s.does (.stackRateChange sd stack) sd (fun x y =>
      y.flag (Reg.NT_STATE stack) 1 = false ∧ y.fld (Reg.NT_STATE stack) 8 8 = pinRate x.mode ∧ y.power = { x.power with rateQ := rest } ∧
      x.keptBut y [.power] (fun k => k = Reg.NT_STATE stack ∨ k = Reg.PW_STATE))) ∧
    (x.trot unit inst = some t →
      s.does (.trotPackFetch sd unit inst []) sd (fun x y =>
        y.trot unit inst = some { t with next := some (x.packVersion pack, ((x.rd Reg.SW_FRAME).toNat + 1) % x.packPatterns pack unit) } ∧
        x.keptBut y [.sw] (fun _ => False)) ∧
      (x.trotMayStart t = true → t.rerun = none → t.want = some f → s.does (.trotUpStart sd unit inst) sd (fun x y =>
        (∃ u, y.trot unit inst = some u ∧ u.run = some (f, x.now, false) ∧ u.want = none ∧ (∀ p, t.next = some p → u.pattern = p)) ∧
        x.keptBut y [.sw] (fun _ => False))) ∧
      (x.trotMayStart t = true → t.rerun = some f → s.does (.trotUpStart sd unit inst) sd (fun x y =>
        y.trot unit inst = some { t with rerun := none, run := some (f, x.now, true) } ∧ x.keptBut y [.sw] (fun _ => False))) ∧
      (∀ st, t.run = some (f, st, false) → unit ≠ 0x0A →
        s.does (.trotUpResult sd unit inst 0 bad) sd (fun x y =>
          (∃ u, y.trot unit inst = some u ∧ u.run = none ∧ u.lastPass = x.now ∧ u.owes = false ∧ u.undecided = t.undecided.filter (fun g => g != f)) ∧
          y.unverified unit inst = false ∧ x.keptBut y [.sw, .unver] (fun _ => False)) ∧
        (diff ≠ 0 → s.does (.trotUpResult sd unit inst diff bad) sd (fun x y =>
          (∃ u, y.trot unit inst = some u ∧ u.run = none ∧ u.rerun = some f) ∧
          (∃ e, y.events = x.events ++ [e] ∧ e.code = 0x03 ∧ e.unit = unit ∧ e.inst = inst ∧ e.detail = diff % 2 ^ 64 ∧ e.pattern = some t.pattern) ∧
          x.keptBut y [.sw, .events] (fun _ => False)))) ∧
      (∀ st, t.run = some (f, st, true) → unit = 0x0E → inst < 24 → diff ≠ 0 → s.does (.trotUpResult sd unit inst diff bad) sd (fun _ y =>
        y.withdrawn unit inst = true ∧ ∃ e ∈ y.events, e.code = 0x03 ∧ e.unit = unit ∧ e.inst = inst ∧ e.detail = diff % 2 ^ 64)) ∧
      (t.late = some (f, pat) → t.undecided.length < 2 → s.does (.trotUpUndecided sd unit inst) sd (fun x y =>
        y.trot unit inst = some { t with late := none } ∧
        (∃ e, y.events = x.events ++ [e] ∧ e.code = 0x04 ∧ e.unit = unit ∧ e.inst = inst ∧ e.detail = f ∧ e.pattern = some pat) ∧
        x.keptBut y [.sw, .events] (fun _ => False))) ∧
      (t.late = some (f, pat) → 2 ≤ t.undecided.length → unit = 0x0E → inst < 24 → s.does (.trotUpUndecided sd unit inst) sd (fun _ y =>
        y.withdrawn unit inst = true ∧ ∃ e ∈ y.events, e.code = 0x04 ∧ e.unit = unit ∧ e.inst = inst ∧ e.detail = f))) ∧
    (x.power.lastSample < due → s.does (.thermalSample sd dies stackTemps far inlet) sd (fun x y =>
      y.fld Reg.PW_THERM 40 8 = unsigned 8 die ∧ y.fld Reg.PW_THERM 48 8 = unsigned 8 hot ∧ y.fld Reg.PW_THERM 56 8 = unsigned 8 inlet ∧
      y.power.lastSample = due ∧
      (warm → 0 < x.fld Reg.PW_STATE 5 2 → (∀ t, x.power.lastFall = some t → t + 1000000000 ≤ due) →
        y.fld Reg.PW_STATE 5 2 = x.fld Reg.PW_STATE 5 2 - 1 ∧ y.flag Reg.PW_STATE 7 = true ∧ y.power.lastFall = some due) ∧
      x.keptBut y [.power] (fun k => power k ∨ k = Reg.FT_STATE ∨ ∃ j, k = Reg.NT_STATE j)))

/-! ### The two sides -/

/-- R31 to R35, R45, R187, R188, R628, R642 to R647: at each control period a side sends its stamps, and what arrives gives the two-way offset;
heartbeats are sent and judged, the peer is lost, found or silent with event 0x13; an event of the peer raises 0x15; flits that fail are counted;
a link goes down and comes up, the cross link at both ends. -/
def Obligations.TwoSides : Prop :=
  ∀ (s : State) (sd : SideId) (m : XMsg) (rest : List XMsg) (n replays : Nat),
    let x := s.side sd
    let z := s.side sd.other
    let v := fromBytes m.bytes
    let c := x.lastBoundary
    let off : Int := (((sfld v 8 0 64 : Int) - sfld v 16 0 64) - ((x.now : Int) - sfld v 0 0 64)).fdiv 2
    let st := sfld v 12 0 2
    let run := x.sw.hbRun + 1
    let beat := x.now / 50000 * 50000
    let arrives (cls : Nat) (c : Instr) (P : Side → Prop) : Prop :=
      firstOf cls z.xout = some (m, rest) → ∃ t, exec c s = .next t ∧ t.pending = s.pending ∧ (t.side sd.other).xout = rest ∧ P (t.side sd)
    x.atRest →
    (x.datum.lastC < c → x.sw.xfault = false → x.fld Reg.SW_CFG 24 4 ≠ 0 → s.does (.controlPeriodBoundary sd) sd (fun x y =>
      y.datum = { x.datum with lastC := c, gotRx := false } ∧ y.sw = { x.sw with xfault := false, xrun := 0 } ∧
      (x.datum.gotRx = false → y.fld Reg.DT_XCNT 16 16 = min 65535 (x.fld Reg.DT_XCNT 16 16 + 1)) ∧
      (x.flag Reg.BN_STATE 3 = true → ∃ u, y.xout = x.xout ++ [u] ∧ u.cls = 1 ∧ u.bad = [] ∧
        u.bytes = toBytes 8 x.now ++ toBytes 8 x.datum.lastRx ++ toBytes 8 x.datum.lastRxSend ++ toBytes 40 0) ∧
      x.keptBut y [.datum, .sw, .xout, .lg] (fun k => k = Reg.DT_XCNT ∨ k = Reg.LG_CTRL))) ∧
    arrives 1 (.timeCompareReceive sd false) (fun y =>
      (m.bad = [] → y.datum = { x.datum with lastRx := x.now, lastRxSend := sfld v 0 0 64, gotRx := true } ∧
        (sfld v 8 0 64 ≠ 0 → sfld v 16 0 64 ≠ 0 → y.rd Reg.DT_XOFF = BitVec.ofInt 64 off) ∧
        (sfld v 8 0 64 ≠ 0 → sfld v 16 0 64 ≠ 0 → x.fld Reg.DT_XCFG 32 32 < off.natAbs → y.sw.xfault = true ∧
          ∃ e, y.events = x.events ++ [e] ∧ e.code = 0x0E ∧ e.unit = 0x03)) ∧
      (m.bad ≠ [] → y.datum = x.datum) ∧ x.keptBut y [.datum, .sw, .events] (fun k => k = Reg.DT_XOFF ∨ k = Reg.DT_XCNT)) ∧
    (x.stewardOn = true → (∀ t, x.sw.hbSent = some t → t < beat) → s.does (.heartbeatSend sd) sd (fun x y =>
      y.sw = { x.sw with hbSent := some beat, hbSeq := (x.sw.hbSeq + 1) % 2 ^ 32 } ∧
      (x.flag Reg.BN_STATE 3 = true → ∃ u, y.xout = x.xout ++ [u] ∧ u.cls = 0 ∧
        u.bytes.take 12 = toBytes 8 x.now ++ toBytes 4 x.sw.hbSeq ∧ u.bytes.length = 64) ∧
      x.keptBut y [.sw, .xout] (fun _ => False))) ∧
    arrives 0 (.heartbeatReceive sd) (fun y =>
      let good := m.bad = [] ∧ ∀ r, x.sw.hbRef = some r → chainBefore r (sfld v 8 0 32) = true
      (good → y.sw.hbRun = run ∧ y.sw.hbRef = some (sfld v 8 0 32) ∧ y.sw.hbLast = x.now ∧ y.sw.peerState = st ∧
        y.fld Reg.SW_STATE 4 1 = sfld v 12 2 1 ∧ y.peer = (if st = 3 then 3 else if 16 ≤ run then 1 else x.peer) ∧
        (∀ k, x.sw.joinRun = some k → 15 ≤ k → y.pt = { x.pt with join := some (x.boundaryFrom (x.now + 1)) } ∧ y.sw.joinRun = none) ∧
        (∀ k, x.sw.joinRun = some k → k < 15 → y.sw.joinRun = some (k + 1)) ∧ (x.pt.join = y.pt.join → y.pt = x.pt) ∧
        x.keptBut y [.sw, .pt, .events] (fun k => k = Reg.SW_STATE)) ∧
      (¬ good → y.fld Reg.SW_CNT2 48 16 = min 65535 (x.fld Reg.SW_CNT2 48 16 + 1) ∧ y.sw.hbRun = 0 ∧ y.sw.hbLast = x.sw.hbLast ∧
        y.sw.joinRun = x.sw.joinRun.map (fun _ => 0) ∧
        x.keptBut y [.sw] (fun k => k = Reg.SW_CNT2))) ∧
    (x.stewardOn = true → x.peer ≠ 2 → x.sw.hbLast + x.fld Reg.SW_CFG 28 4 * 50000 < x.now → s.does (.peerLostTimeout sd) sd (fun x y =>
      y.peer = 2 ∧ y.sw = { x.sw with hbRef := none, hbRun := 0 } ∧ (∃ e, y.events = x.events ++ [e] ∧ e.code = 0x13 ∧ e.detail = 2) ∧
      x.keptBut y [.sw, .events] (fun k => k = Reg.SW_STATE))) ∧
    arrives 2 (.peerEventReceive sd) (fun y =>
      (m.bad = [] → (x.events.filter (fun e => e.code == 0x15)).length < 256 →
        (∃ e, y.events = x.events ++ [e] ∧ e.code = 0x15 ∧ e.time = x.now ∧ e.detail % 256 = sfld v 0 0 8) ∧ x.keptBut y [.events] (fun _ => False)) ∧
      (m.bad ≠ [] → y.fld Reg.SW_CNT2 48 16 = min 65535 (x.fld Reg.SW_CNT2 48 16 + 1) ∧ x.keptBut y [] (fun k => k = Reg.SW_CNT2))) ∧
    (x.part.hasLink n = true → x.flag Reg.BN_STATE n = true → replays ≤ 8 → s.does (.barnastanFlitReceive sd n replays) sd (fun x y =>
      y.fld (Reg.BN_ERR n) 0 32 = min (2 ^ 32 - 1) (x.fld (Reg.BN_ERR n) 0 32 + replays) ∧
      y.fld (Reg.BN_ERR n) 32 16 = min 65535 (x.fld (Reg.BN_ERR n) 32 16 + replays) ∧ x.keptBut y [] (fun k => k = Reg.BN_ERR n))) ∧
    (n ≠ 3 → x.part.hasLink n = true →
      (x.flag Reg.BN_STATE n = true → s.does (.barnastanLinkDown sd n [] []) sd (fun x y =>
        y.flag Reg.BN_STATE n = false ∧ (∃ e, y.events = x.events ++ [e] ∧ e.code = 0x08 ∧ e.detail = n) ∧
        y.fld (Reg.BN_ERR n) 48 16 = min 65535 (x.fld (Reg.BN_ERR n) 48 16 + 1) ∧ y.sw = { x.sw with fell := alSet x.sw.fell n x.now } ∧
        x.keptBut y [.events, .sw] (fun k => k = Reg.BN_STATE ∨ k = Reg.BN_ERR n))) ∧
      s.does (.barnastanLinkUp sd n) sd (fun x y => y.flag Reg.BN_STATE n = true ∧ x.keptBut y [] (fun k => k = Reg.BN_STATE))) ∧
    (x.flag Reg.BN_STATE 3 = true → z.live = true → ∃ t, exec (.barnastanLinkDown sd 3 [] []) s = .next t ∧ t.pending = s.pending ∧
      ∀ e : SideId, (t.side e).flag Reg.BN_STATE 3 = false ∧ (t.side e).xout = [] ∧
        (∃ v, (t.side e).events = (s.side e).events ++ [v] ∧ v.code = 0x08 ∧ v.detail = 3) ∧
        (t.side e).pt.alone = (if (s.side e).isAlone then (s.side e).pt.alone else some ((s.side e).boundaryFrom ((s.side e).now + 1))) ∧
        (t.side e).pt.join = none ∧ (t.side e).sw.joinRun = none ∧
        (s.side e).keptBut (t.side e) [.xout, .events, .sw, .pt] (fun k => k = Reg.BN_STATE ∨ k = Reg.BN_ERR 3)) ∧
    (z.live = true → ∃ t, exec (.barnastanLinkUp sd 3) s = .next t ∧ t.pending = s.pending ∧
      ∀ e : SideId, (t.side e).flag Reg.BN_STATE 3 = true ∧
        ((s.side e).pt.alone ≠ none → (s.side e).pt.join = none → (t.side e).sw.joinRun = some 0) ∧ (s.side e).keptBut (t.side e) [.sw] (fun k => k = Reg.BN_STATE))

/-! ### The Steward -/

/-- R620 to R634, R646, R647: the Steward handles the earliest event, of lowest code, enters it in its log and asks every Groom; a withdrawal
takes effect on an idle instance; a monitor or the Steward's own check silences the side; a missing lead frame raises 0x10; a side whose units are
decided leaves START; a restart brings a silent side back to START with its memory under the new address map (R435), its Steward and its verified
packs. -/
def Obligations.StewardActs : Prop :=
  ∀ (s : State) (sd : SideId) (unit inst code c split : Nat) (watchdog : Bool) (port : Nat) (e : SEvent),
    let x := s.side sd
    let k := x.fld Reg.SW_LOG_HEAD 0 32
    let slot := x.fld Reg.SW_LOG_BASE 5 59 * 32 + k % (16 * 2 ^ x.fld Reg.SW_LOG_CFG 0 4) * 32
    let mine := x.lg.duals.find? (fun d => d.1 == c)
    let tol := match mine with
      | some d => x.fld (Reg.LG_TOL d.2.1) 0 17
      | none => if x.lg.dualPorts.isEmpty then 100000 else x.lg.dualPorts.foldl (fun a p => max a (x.fld (Reg.LG_TOL p) 0 17)) 0
    let judges := (x.swState = 1 ∨ x.swState = 2) ∧ x.leadAt c = true ∧ x.sw.leftAt ≤ c ∧ x.sw.judged < c ∧ x.datum.cPhase ≤ c ∧
      (c - x.datum.cPhase) % x.datum.cPeriod = 0 ∧ c + tol ≤ x.now
    let blank := Side.reset x.id x.part
    let anew : Side := { blank with mem := x.mem.remap x.part x.split blank.split }
    let decided := ∀ u ∈ x.trotUnits, ∃ t, x.trot u.1 u.2 = some t ∧ t.firstOk = true
    let silent (y : Side) (v d : Nat) : Prop :=
      y.swState = 3 ∧ y.flag Reg.LG_CTRL 2 = true ∧ (∃ e ∈ y.events, e.code = v ∧ e.unit = 0x02 ∧ e.detail = d ∧ e.time = x.now) ∧
      ∀ e ∈ x.events, e ∈ y.events
    x.atRest →
    (nextEvent x.events = some e → (e ∈ x.events ∧ ∀ f ∈ x.events, f.before e = false) ∧ s.does (.stewardEventHandle sd []) sd (fun x y =>
      y.fld Reg.SW_LOG_HEAD 0 32 = (k + 1) % 2 ^ 32 ∧
      (∀ g, g < x.grooms.length → (y.groom g).ctlGet 0x018 = BitVec.ofNat 64 ((k + 1) % 2 ^ 32 * 2 ^ 32 + 1)) ∧
      (e.code = 0x03 → y.fld Reg.SW_CNT 16 16 = min 65535 (x.fld Reg.SW_CNT 16 16 + 1)) ∧ (e.code = 0x17 → y.swState = 3) ∧
      (e.code = 0x10 → x.fld Reg.SW_CFG 0 4 ≤ x.sw.missed + 1 → y.swState = 3) ∧
      (e.code ∉ [0x01, 0x02, 0x03, 0x04, 0x08, 0x0F, 0x10, 0x13, 0x17] →
        y.events = x.events.erase e ∧
        (slot < 2 ^ 47 → x.part.populated (slot % 2 ^ 46) 32 = true → x.writeGuarded 0x02 (slot % 2 ^ 46) 32 = false →
          y.bytes (slot % 2 ^ 46) 32 = toBytes 8 e.time ++ toBytes 1 e.code ++ toBytes 1 e.unit ++ toBytes 2 e.inst ++
            toBytes 1 (e.flags % 16 + 128 * phaseBit k (16 * 2 ^ x.fld Reg.SW_LOG_CFG 0 4)) ++ toBytes 1 x.swState ++ toBytes 2 0 ++
            toBytes 4 (e.cmd.elim 0 (fun c => c.1)) ++ toBytes 1 (e.cmd.elim 0 (fun c => c.2) % 64) ++ toBytes 3 0 ++ toBytes 8 e.detail) ∧
        (∀ m, m < slot % 2 ^ 46 ∨ slot % 2 ^ 46 + 32 ≤ m → y.mem.get m = x.mem.get m) ∧
        (toPeer e.code = false → y.xout = x.xout) ∧
        (toPeer e.code = true → x.flag Reg.BN_STATE 3 = true → y.xout = x.xout ++ [⟨2, 0, eventMessage e, []⟩]) ∧
        x.keptBut y [.events, .cells, .poison, .grooms, .kp, .xout] (fun j => j = Reg.SW_LOG_HEAD ∨ j = Reg.FS_CNT ∨
          (x.flag Reg.SW_LOG_CFG 21 = true ∧ j = Reg.TE_VALUE (x.fld Reg.SW_LOG_CFG 8 13)))))) ∧
    (x.sw.decided.contains (unit, inst) = true → x.idle unit inst = true → (∀ o ∈ x.ops, o.unit ≠ unit) →
      s.does (.withdrawalEffect sd unit inst) sd (fun x y =>
        y.sw.decided = x.sw.decided.filter (fun d => d != (unit, inst)) ∧ y.trot unit inst = none ∧
        (unit = 0x0E → inst < 24 → y.powered unit inst = false) ∧
        x.keptBut y [.sw, .power, .mangers] (fun k => k = Reg.PW_ENG))) ∧
    (x.swState ≠ 3 → x.flag Reg.LG_CTRL 2 = false → 1 ≤ code → code ≤ 6 → s.does (.monitorTrip sd code) sd (fun _ y => silent y 0x11 code)) ∧
    (x.swState = 3 → 1 ≤ code → code ≤ 6 → s.does (.monitorTrip sd code) sd (fun x y =>
      (∃ e, y.events = x.events ++ [e] ∧ e.code = 0x11 ∧ e.detail = code) ∧ x.keptBut y [.events] (fun _ => False))) ∧
    (x.swState ≠ 3 → x.flag Reg.LG_CTRL 2 = false → s.does (.stewardSelfCheckFail sd watchdog) sd (fun _ y =>
      silent y 0x12 (if watchdog then 1 else 0))) ∧
    (judges → mine = some (c, port, true) → s.does (.leadMissCheck sd c) sd (fun x y =>
      y.sw = { x.sw with judged := c, missed := 0 } ∧ x.keptBut y [.sw, .lg] (fun _ => False))) ∧
    (judges → (mine = none ∨ mine = some (c, port, false)) → s.does (.leadMissCheck sd c) sd (fun x y =>
      y.sw = { x.sw with judged := c } ∧ (∃ e, y.events = x.events ++ [e] ∧ e.code = 0x10 ∧ e.detail = c) ∧
      x.keptBut y [.sw, .lg, .events] (fun _ => False))) ∧
    (x.stewardOn = true → x.swState = 0 → x.sw.first ≠ none → decided → x.peer ≠ 0 → s.does (.sideLeaveStart sd) sd (fun x y =>
      y.swState = (if x.rd Reg.SW_WDRAW = 0 ∧ x.sw.chain = [] then 1 else 2) ∧ y.sw = { x.sw with leftAt := x.now } ∧
      (∃ e, y.events = x.events ++ [e] ∧ e.code = 0x14 ∧ e.detail = 0) ∧
      (x.id = 1 ∨ (x.peer = 1 ∧ x.flag Reg.SW_STATE 4 = true) → y.flag Reg.LG_CTRL 1 = false) ∧
      x.keptBut y [.sw, .events, .lg] (fun k => k = Reg.SW_STATE ∨ k = Reg.LG_CTRL))) ∧
    (x.restartDue = true → s.does (.sideRestart sd split) sd (fun x y =>
      y.phase = .up ∧ y.swState = 0 ∧ y.now = 0 ∧ y.ops = [] ∧ y.lg.frames = [] ∧ y.rd Reg.SW_WDRAW = 0 ∧
      (∀ t, t ≤ 8191 → y.rd (Reg.TE_VALUE t) = 0) ∧ (split % x.part.stacks = 0 → split ≤ x.part.nearGB →
        ∀ m, (m < x.kp.groomLoad % 2 ^ 46 ∨ x.kp.groomLoad % 2 ^ 46 + x.kp.groomCode.length ≤ m) →
          y.mem.get m = (anew.setSplit split).mem.get m) ∧ y.sw.pack = x.sw.pack ∧ y.kp.roll = x.kp.roll ∧ y.xout = x.xout ∧
      y.fld Reg.SW_CNT2 16 16 = min 65535 (x.fld Reg.SW_CNT2 16 16 + 1)))

/-! ### Records, monitors, the Keeper's work -/

/-- R655, R656, R671 to R673, R692, R693, R695, R696, R700: a fault-signature record, a tag record, a dump and a quote each go to their slot and
nothing else, with their sequence numbers; a latch takes the monitors or is counted as skipped; a verification ends with its result, VERIFIED set
where it is 0; a new SAK makes its port KEYED; a datagram to a locked debug agent is only counted. -/
def Obligations.RecordsAndKeeper : Prop :=
  ∀ (s : State) (sd : SideId) (die stack far : Int) (v48 core io m cycles port sak ports a b : Nat) (f : FsEvent) (rest : List FsEvent) (t : PmTag)
    (r : List Byte) (more : List (List Byte)) (w : KVerify) (reg kind base nonce at' : Nat) (d : PmDump) (g : Datagram),
    let x := s.side sd
    let within (a n m : Nat) : Prop := a ≤ m ∧ m < a + n
    let stored (y : Side) (a n : Nat) : Prop := ∀ m, ¬ within (a % 2 ^ 46) n m → y.mem.get m = x.mem.get m
    let allowed (owner a n : Nat) : Prop :=
      a < 2 ^ 47 ∧ x.part.populated (a % 2 ^ 46) n = true ∧ x.writeGuarded owner (a % 2 ^ 46) n = false
    let seq := (x.rd Reg.FS_SEQ).toNat
    let fs := x.fld Reg.FS_BASE 9 55 * 512 + seq % (16 * 2 ^ x.fld Reg.FS_CFG 0 4) * 512
    let fsBody := (x.signedBytes false (x.fsInner f die stack far v48 core io)).take 496
    let quoted := (x.signedBytes true (x.quoteInner nonce)).take 4080
    let tag := x.fld Reg.PM_TBASE 6 58 * 64 + x.pm.count % (16 * 2 ^ x.fld Reg.PM_TCFG 0 4) * 64
    let shown := if r.head? = some 0 then r.take 40 ++ toBytes 8 cycles ++ r.drop 48 else r
    let j := x.now / x.dumpEvery
    let size := 64 + 128 * d.blocks.length
    let dump := x.fld Reg.PM_DBASE 6 58 * 64 + d.j % (16 * 2 ^ x.fld Reg.PM_DCFG 0 4) * size
    let quotes := x.fld Reg.KP_QSTAT 32 32 + 1
    let result := x.verifyResult kind w.base
    let signal (k : Nat) : Prop := k / 0x1000000 = 0x11
    x.atRest →
    (x.keeperOn = true → x.kp.fsq = f :: rest → s.does (.fsRecordWrite sd die stack far v48 core io []) sd (fun x y =>
      y.kp = { x.kp with fsq := rest, fsLost := 0 } ∧ y.rd Reg.FS_SEQ = BitVec.ofNat 64 (seq + 1) ∧
      y.fld Reg.FS_CNT 32 16 = min 65535 (x.fld Reg.FS_CNT 32 16 + 1) ∧ stored y fs 512 ∧
      (allowed 0 fs 512 → y.bytes (fs % 2 ^ 46) 512 =
        toBytes 8 seq ++ toBytes 2 fsBody.length ++ toBytes 6 0 ++ fsBody ++ List.replicate (496 - fsBody.length) 0) ∧
      x.keptBut y [.kp, .cells, .poison] (fun k => k = Reg.FS_SEQ ∨ k = Reg.FS_CNT))) ∧
    (x.pm.tags.find? (fun t => t.mon == m && !t.ready.isEmpty) = some t → t.ready = r :: more → s.does (.pmTagRecord sd m cycles []) sd (fun x y =>
      y.pm.count = x.pm.count + 1 ∧ y.fld Reg.PM_TCNT 32 16 = min 65535 (x.fld Reg.PM_TCNT 32 16 + 1) ∧ stored y tag shown.length ∧
      (allowed 0x13 tag shown.length → y.bytes (tag % 2 ^ 46) shown.length = shown) ∧
      (x.flag Reg.PM_TCFG 21 = true → y.rd (Reg.TE_VALUE (x.fld Reg.PM_TCFG 8 13)) = x.rd (Reg.TE_VALUE (x.fld Reg.PM_TCFG 8 13)) + 1) ∧
      x.keptBut y [.pm, .cells, .poison] (fun k => k = Reg.PM_TCNT ∨
        (x.flag Reg.PM_TCFG 21 = true ∧ k = Reg.TE_VALUE (x.fld Reg.PM_TCFG 8 13))))) ∧
    (x.flag Reg.PM_DCFG 4 = true → x.pm.lastJ < j →
      (x.pm.dump = none → s.does (.pmDumpLatch sd) sd (fun x y =>
        y.pm = { x.pm with lastJ := j, dump := some ⟨j, j * x.dumpEvery, x.pm.dumped.map x.dumpBlock⟩ } ∧ x.keptBut y [.pm] (fun _ => False))) ∧
      (x.pm.dump = some d → s.does (.pmDumpLatch sd) sd (fun x y =>
        y.pm = { x.pm with lastJ := j, skipped := x.pm.skipped + 1 } ∧
        y.fld Reg.PM_DCNT 48 16 = min 65535 (x.fld Reg.PM_DCNT 48 16 + 1) ∧ x.keptBut y [.pm] (fun k => k = Reg.PM_DCNT)))) ∧
    (x.pm.dump = some d → s.does (.pmDumpWrite sd []) sd (fun x y =>
      y.pm = { x.pm with dump := none, skipped := 0 } ∧ y.rd Reg.PM_DSEQ = BitVec.ofNat 64 d.j ∧ stored y dump (64 + d.blocks.flatten.length) ∧
      (allowed 0x13 dump (64 + d.blocks.flatten.length) → y.bytes (dump % 2 ^ 46) (64 + d.blocks.flatten.length) = toBytes 8 d.j ++
        toBytes 8 d.time ++ toBytes 2 d.blocks.length ++ toBytes 2 x.pm.skipped ++ toBytes 44 0 ++ d.blocks.flatten) ∧
      x.keptBut y [.pm, .cells, .poison] (fun k => k = Reg.PM_DSEQ))) ∧
    (x.kp.verify = some w → targetOf w.target = some (reg, kind) → s.does (.kpVerifyEnd sd []) sd (fun x y =>
      y.kp.verify = none ∧ y.rd Reg.KP_VSTAT = BitVec.ofNat 64 (w.target * 65536 + result * 256) ∧ (result = 0 → y.flag reg 0 = true) ∧
      (result = 0 → kind ≠ 7 → y.guards = x.guards) ∧
      (result ≠ 0 → y.guards = (x.dropGuard (guardKey w.target)).guards ∧ y.fld Reg.KP_CNT 48 16 = min 65535 (x.fld Reg.KP_CNT 48 16 + 1)) ∧
      x.keptBut y [.kp, .guards, .sw] (fun k => k = Reg.KP_VSTAT ∨ k = Reg.KP_CNT ∨ k = reg ∨ k / 0x1000000 = 0x02 ∨ signal k))) ∧
    (x.kp.quote = some (base, nonce, at') → s.does (.kpQuoteWrite sd []) sd (fun x y =>
      y.kp = { x.kp with quote := none } ∧ y.flag Reg.KP_QSTAT 0 = false ∧ y.fld Reg.KP_QSTAT 32 32 = quotes % 2 ^ 32 ∧ stored y base 4096 ∧
      (allowed 0x14 base 4096 → y.bytes (base % 2 ^ 46) 4096 =
        toBytes 8 quotes ++ toBytes 2 quoted.length ++ toBytes 6 0 ++ quoted ++ List.replicate (4080 - quoted.length) 0) ∧
      x.keptBut y [.kp, .cells, .poison] (fun k => k = Reg.KP_QSTAT))) ∧
    (x.kp.cak = some (ports, a, b) → x.keeperOn = true → port ≤ 9 → bitAt ports port = true → s.does (.mkaSakInstall sd port sak) sd (fun x y =>
      alGet 0 y.kp.saks port = sak ∧ y.flag (Reg.ET_SEC port) 4 = true ∧
      y.fld (Reg.ET_SECCNT port) 0 16 = min 65535 (x.fld (Reg.ET_SECCNT port) 0 16 + 1) ∧
      x.keptBut y [.kp] (fun k => k = Reg.ET_SEC port ∨ k = Reg.ET_SECCNT port))) ∧
    (g.port ≤ 1 → x.flag (Reg.ET_PORT g.port) 0 = true →
      ((x.flag Reg.KP_STATE 9 = false ∨ x.flag Reg.KP_STATE 7 = true) → s.does (.debugAgentDatagram sd g) sd (fun x y =>
        y.fld Reg.KP_CNT 16 16 = min 65535 (x.fld Reg.KP_CNT 16 16 + 1) ∧ x.keptBut y [] (fun k => k = Reg.KP_CNT))) ∧
      (x.flag Reg.KP_STATE 9 = true → x.flag Reg.KP_STATE 7 = false → x.admits g → ∀ k ∈ x.host.replies, k.answers g = true →
        x.host.replies.find? (fun r => r.answers g) = some k → s.does (.debugAgentDatagram sd g) sd (fun x y =>
          x.resends y g k.reply)))

/-! ### The host protocol -/

/-- R724 to R740: a request that a host port admits is performed once and answered, one whose reply is kept gets it again; each type has the effect
and the payload that the protocol gives it. DELIVER sends the next slot of its ring; inbound RDMA reads and writes what its region allows, or puts
its queue pair into ERROR; a late acknowledgement is retried 7 times; Echo requests are answered. -/
def Obligations.HostProtocol : Prop :=
  ∀ (s : State) (sd : SideId) (d : Datagram) (got : Nat) (data msg : List Byte) (k : KeptReply) (u : Sub) (qp port rkey va len src : Nat) (g : Bool),
    let x := s.side sd
    let v := fromBytes d.bytes
    let p := v / 2 ^ 128
    let f (o w : Nat) : Nat := sfld p o 0 (8 * w)
    let fresh := x.admits d ∧ ∀ k ∈ x.host.replies, k.answers d = false
    let asks (t : Nat) : Prop := x.atRest ∧ fresh ∧ d.asks t
    let calm := x.paused (local46 (f 0 8)) (f 8 4) = false
    let bad := (upTo (f 8 4)).filter (fun i => x.poisoned (local46 (f 0 8) + i) 1)
    let gives (c : Instr) (z : Side) (status index : Nat) (payload : List Byte) : Prop := s.does c sd (fun _ y => z.replied y d status index payload)
    let l := local46 (f 0 8)
    let old := x.host.mrKeys.getD (f 0 1) 0
    let pair := x.qp qp
    let open' := x.atRest ∧ port ≤ 1 ∧ x.qpReady qp = true ∧ x.flag (Reg.ET_SEC port) 0 = false ∧ x.host.qps.length = 16
    let sends (x y : Side) (port : Nat) (bs : List Byte) : Prop :=
      ∃ e, y.egress = x.egress ++ [e] ∧ e.port = port ∧ e.time = (if port ≤ 9 then x.clearAt port bs.length else x.now) ∧ e.bytes = bs
    let count := (x.rd (Reg.TE_VALUE u.tether)).fld 0 32
    let behind := ((count + 2 ^ 32 - u.v0) % 2 ^ 32 + 2 ^ 32 - u.sent) % 2 ^ 32
    let idx := (u.first + u.sent) % 2 ^ 32 % (16 * 2 ^ u.size)
    let ring := local46 u.ring + idx * u.slotBytes
    (x.atRest → x.admits d → x.host.replies.find? (fun r => r.answers d) = some k → d.asks 0x03 → calm → s.does (.memRead sd d []) sd (fun x y =>
      x.resends y d k.reply)) ∧
    (asks 0x01 → 1 ≤ f 8 2 → f 8 2 ≤ 128 → ∃ r z, x.readRegs (f 0 8) (f 8 2) 0 [] = (r, z) ∧ gives (.regRead sd d) z r.1 r.2.1 r.2.2) ∧
    (asks 0x01 → f 8 2 = 1 → ∀ k, x.regKey (f 0 8) = some k → gives (.regRead sd d) (x.busRead k).2 stDone 0 (toBytes 8 (x.busRead k).1.toNat)) ∧
    (asks 0x02 → f 8 2 = 1 → ∀ k z, x.regKey (f 0 8) = some k → x.busWrite 2 k (BitVec.ofNat 64 (f 16 8)) = (true, z) →
      gives (.regWrite sd d) z stDone 0 []) ∧
    (asks 0x02 → 1 ≤ f 8 2 → f 8 2 ≤ 128 → ∃ r z, x.writeRegs (f 0 8) ((upTo (f 8 2)).map (fun i => f (16 + 8 * i) 8)) 0 = (r, z) ∧
      gives (.regWrite sd d) z r.1 r.2.1 r.2.2) ∧
    (asks 0x03 → calm → 1 ≤ f 8 4 → f 8 4 ≤ 1024 → x.extentOk (f 0 8) (f 8 4) = true → x.readGuarded 0x17 l (f 8 4) = false →
      (bad = [] → gives (.memRead sd d []) x stDone 0 (x.bytes l (f 8 4))) ∧
      (bad ≠ [] → gives (.memRead sd d []) x stPoison (bad.headD 0) ((upTo (f 8 4)).map (fun i => if bad.contains i then 0 else x.mem.get (l + i))))) ∧
    (asks 0x03 → calm → 1 ≤ f 8 4 → f 8 4 ≤ 1024 → (x.extentOk (f 0 8) (f 8 4) = false ∨ x.readGuarded 0x17 l (f 8 4) = true) →
      gives (.memRead sd d []) x stAddress 0 []) ∧
    (asks 0x03 → calm → 1024 < f 8 4 → gives (.memRead sd d []) x stLength 0 []) ∧
    (asks 0x04 → calm → 1 ≤ f 8 4 → f 8 4 ≤ 1024 → x.extentOk (f 0 8) (f 8 4) = true →
      (x.writeGuarded 0x17 l (f 8 4) = false → gives (.memWrite sd d []) (x.store l (toBytes (f 8 4) (p / 2 ^ 128))) stDone 0 []) ∧
      (x.writeGuarded 0x17 l (f 8 4) = true → gives (.memWrite sd d []) x stAddress 0 [])) ∧
    (asks 0x03 → ¬ calm → s.does (.memRead sd d []) sd Side.unchanged) ∧
    (asks 0x05 → f 0 1 ≤ 15 → f 8 8 % 4096 = 0 → 4096 ≤ f 16 8 → f 16 8 ≤ 2 ^ 40 → x.extentOk (f 8 8) (f 16 8) = true → x.host.mrKeys.length = 16 →
      ∃ z key, gives (.mrOpen sd d) z stDone 0 (toBytes 4 (f 0 1 * 2 ^ 24 + key)) ∧ key < 2 ^ 24 ∧ key ≠ old ∧
        z.host.mrKeys.getD (f 0 1) 0 = key ∧ z.rd (Reg.MR_BASE (f 0 1)) = BitVec.ofNat 64 (f 8 8 + sfld p 1 0 2 * 2 + 1) ∧
        z.rd (Reg.MR_LEN (f 0 1)) = BitVec.ofNat 64 (f 16 8 % 2 ^ 40) ∧
        x.keptBut z [.host, .fresh] (fun k => k = Reg.MR_BASE (f 0 1) ∨ k = Reg.MR_LEN (f 0 1))) ∧
    (asks 0x06 → f 0 1 ≤ 15 → gives (.mrClose sd d) (x.put (Reg.MR_BASE (f 0 1)) 0 1 0) stDone 0 []) ∧
    (asks 0x07 → f 0 1 ≤ 15 → f 1 1 ≤ 2 → x.fld (Reg.QP_STATE (f 0 1)) 0 2 = 0 → x.host.qps.length = 16 →
      ∃ z, gives (.qpSetup sd d) z stDone 0 (toBytes 4 (0x100 + 16 * x.id + f 0 1)) ∧
        z.rd (Reg.QP_STATE (f 0 1)) = BitVec.ofNat 64 ((0x100 + 16 * x.id + f 0 1) * 2 ^ 32 + 1) ∧
        z.qp (f 0 1) = ⟨f 1 1, f 4 3, f 8 3, f 12 3, fromBytesBE (toBytes 16 (f 16 16)), 0, d.port⟩ ∧
        (∀ j, j ≠ f 0 1 → z.qp j = x.qp j) ∧ x.keptBut z [.host] (fun k => k = Reg.QP_STATE (f 0 1))) ∧
    (asks 0x08 → f 0 1 ≤ 15 → (∀ o ∈ x.ops, o.run = none) → gives (.qpReset sd d got data) (x.wr (Reg.QP_STATE (f 0 1)) 0) stDone 0 []) ∧
    (asks 0x08 → f 0 1 ≤ 15 → (x.cutRdma (f 0 1) got data).flag (Reg.ET_SEC d.port) 0 = false →
      gives (.qpReset sd d got data) ((x.cutRdma (f 0 1) got data).wr (Reg.QP_STATE (f 0 1)) 0) stDone 0 []) ∧
    (asks 0x09 → 64 ≤ f 4 4 → f 4 4 ≤ 1024 → f 4 4 % 64 = 0 → f 16 1 ≤ 8 → f 18 1 ≤ 8 → sfld p 1 0 2 = 0 →
      x.extentOk (f 8 8) (16 * 2 ^ f 16 1 * f 4 4) = true → ∃ z, gives (.subscribe sd d) z stDone 0 [] ∧
        (∃ u ∈ z.host.subs, u.id = sfld p 0 0 4 ∧ u.slotBytes = f 4 4 ∧ u.ring = f 8 8 ∧ u.size = f 16 1 ∧ u.sent = 0 ∧
          u.v0 = (x.rd (Reg.TE_VALUE (sfld p 2 0 13))).fld 0 32 ∧ u.port = d.port ∧ u.dst = d.src ∧ u.dport = d.sport) ∧
        z.flag Reg.HP_SUB (sfld p 0 0 4) = true ∧ x.keptBut z [.host] (fun k => k = Reg.HP_SUB)) ∧
    (asks 0x0A → f 0 1 ≤ 15 → ∃ z, gives (.unsubscribe sd d) z stDone 0 [] ∧ (∀ u ∈ z.host.subs, u.id ≠ f 0 1) ∧
      z.flag Reg.HP_SUB (f 0 1) = false ∧ x.keptBut z [.host] (fun k => k = Reg.HP_SUB)) ∧
    (asks 0x0B → f 0 1 ≤ 1 → 1 ≤ f 8 2 → f 8 2 ≤ 1024 → f 4 4 % 256 = 0 → f 4 4 + f 8 2 ≤ 2 ^ 27 → x.fld Reg.KP_STATE 4 1 ≠ f 0 1 →
      x.host.flash.length = 2 → ∃ z, gives (.flashWrite sd d) z stDone 0 [] ∧
        (∀ i, i < f 8 2 → z.flashByte (f 0 1) (f 4 4 + i) = BitVec.ofNat 8 (f (16 + i) 1)) ∧
        (∀ a, (a < f 4 4 ∨ f 4 4 + f 8 2 ≤ a) → z.flashByte (f 0 1) a =
          if f 4 4 % 65536 = 0 ∧ f 4 4 ≤ a ∧ a < f 4 4 + 65536 then 0xFF else x.flashByte (f 0 1) a) ∧
        (∀ a, z.flashByte (1 - f 0 1) a = x.flashByte (1 - f 0 1) a) ∧ x.keptBut z [.host] (fun _ => False)) ∧
    (asks 0x0B → f 0 1 ≤ 1 → 1 ≤ f 8 2 → f 8 2 ≤ 1024 → f 4 4 % 256 = 0 → f 4 4 + f 8 2 ≤ 2 ^ 27 → x.fld Reg.KP_STATE 4 1 = f 0 1 →
      gives (.flashWrite sd d) x stAddress 0 []) ∧
    (asks 0x0C → let cert := Config.certificate x.id
      (f 0 4 < cert.length → gives (.certRead sd d) x stDone 0 (toBytes 4 cert.length ++ (cert.drop (f 0 4)).take 1024)) ∧
      (cert.length ≤ f 0 4 → gives (.certRead sd d) x stLength 0 [])) ∧
    (asks 0x0D → x.kp.cak = none → ∃ z, gives (.cakSet sd d) z stDone 0 [] ∧
      z.kp = { x.kp with cak := some (sfld p 0 0 10, f 4 16, f 20 32) } ∧ x.keptBut z [.kp] (fun _ => False)) ∧
    (asks 0x0E → gives (.recoverDone sd d) x stBadOpcode 0 []) ∧
    (x.phase = .recovery → d.port = 0 → d.toGlobal = false → requestHeader d.bytes = true → x.flag (Reg.ET_PORT 0) 0 = true →
      x.flag (Reg.ET_SEC 0) 0 = false → (∀ k ∈ x.host.replies, k.answers d = false) → d.asks 0x0E → s.does (.recoverDone sd d) sd (fun x y =>
        y.phase = .held ∧ y.mem.cells = [] ∧ y.host.flash = x.host.flash ∧ y.kp.roll = x.kp.roll ∧
        ∃ e, y.egress.getLast? = some e ∧ e.cut = false ∧ e.bytes = toBytesBE 16 d.src ++ toBytesBE 2 d.sport ++ hostMessage 0x0E (sfld v 4 0 32) stDone 0 [])) ∧
    (x.atRest → x.host.subs.find? (fun s => s.id == u.id) = some u → u.trigReg = false → behind ≠ 0 → behind < 16 * 2 ^ u.size →
      (∀ i, i < u.slotBytes → x.poisoned (ring + i) 1 = false) → x.readGuarded 0x17 ring u.slotBytes = false →
      x.flag (Reg.ET_SEC u.port) 0 = false →
      (u.rdma = false → s.does (.deliver sd u.id g []) sd (fun x y =>
        sends x y u.port (toBytesBE 16 u.dst ++ toBytesBE 2 u.dport ++
          hostMessage 0x20 u.sent stDone idx (BitVec.ofNat 8 u.id :: toBytes 7 0 ++ x.bytes ring u.slotBytes)) ∧
        y.host.subs.find? (fun s => s.id == u.id) = some { u with sent := (u.sent + 1) % 2 ^ 32 } ∧
        x.keptBut y [.host, .egress] (fun _ => False))) ∧
      (u.rdma = true → x.qpReady u.qp = true → x.flag (Reg.ET_SEC (x.qp u.qp).port) 0 = false → s.does (.deliver sd u.id true []) sd (fun x y =>
        (∃ e e', y.egress = x.egress ++ [e, e'] ∧ e.port = (x.qp u.qp).port ∧ e'.port = u.port ∧
          e.bytes = toBytes 8 ((u.hostVa + u.sent % (16 * 2 ^ u.hsize) * u.slotBytes) % 2 ^ 64) ++ toBytes 4 u.rkey ++ toBytes 4 u.slotBytes ++
            x.bytes ring u.slotBytes) ∧ x.keptBut y [.host, .egress] (fun _ => False)))) ∧
    (open' → x.paused (local46 va) len = false → x.mrAllows rkey 0 va len = true → x.readGuarded 0x17 (local46 va) len = false → x.poisoned (local46 va) len = false →
      s.does (.rdmaInboundRead sd qp port rkey va len .plain []) sd (fun x y =>
        sends x y port (BitVec.ofNat 8 qp :: 0 :: x.bytes (local46 va) len) ∧ y.qp qp = { pair with port := port } ∧
        x.keptBut y [.host, .egress] (fun _ => False))) ∧
    (open' → x.paused (local46 va) len = false → x.mrAllows rkey 0 va len = false → s.does (.rdmaInboundRead sd qp port rkey va len .plain []) sd (fun x y =>
      sends x y port [BitVec.ofNat 8 qp, 2, 0x62] ∧ y.fld (Reg.QP_STATE qp) 0 2 = 2 ∧
      y.fld (Reg.QP_CNT qp) 48 16 = min 65535 (x.fld (Reg.QP_CNT qp) 48 16 + 1) ∧
      x.keptBut y [.host, .egress] (fun k => k = Reg.QP_STATE qp ∨ k = Reg.QP_CNT qp))) ∧
    (open' → x.paused (local46 va) data.length = false → x.mrAllows rkey 1 va data.length = true → x.writeGuarded 0x17 (local46 va) data.length = false →
      s.does (.rdmaInboundWrite sd qp port rkey va data .plain []) sd (fun x y =>
        sends x y port [BitVec.ofNat 8 qp, 1] ∧ (∀ m, y.mem.get m = (x.store (local46 va) data).mem.get m) ∧
        x.keptBut y [.host, .egress, .cells, .poison] (fun _ => False))) ∧
    (open' → x.paused (local46 va) data.length = false → x.mrAllows rkey 1 va data.length = false → s.does (.rdmaInboundWrite sd qp port rkey va data .plain []) sd (fun x y =>
      sends x y port [BitVec.ofNat 8 qp, 2, 0x62] ∧ y.fld (Reg.QP_STATE qp) 0 2 = 2 ∧
      x.keptBut y [.host, .egress] (fun k => k = Reg.QP_STATE qp ∨ k = Reg.QP_CNT qp))) ∧
    (open' → pair.retries < 7 → s.does (.rdmaAckTimeout sd qp) sd (fun x y =>
      y.qp qp = { pair with retries := pair.retries + 1 } ∧ y.fld (Reg.QP_CNT qp) 16 16 = min 65535 (x.fld (Reg.QP_CNT qp) 16 16 + 1) ∧
      x.keptBut y [.host] (fun k => k = Reg.QP_CNT qp))) ∧
    (open' → 7 ≤ pair.retries → s.does (.rdmaAckTimeout sd qp) sd (fun x y =>
      y.fld (Reg.QP_STATE qp) 0 2 = 2 ∧ x.keptBut y [] (fun k => k = Reg.QP_STATE qp))) ∧
    (x.live = true → port ≤ 1 → x.flag (Reg.ET_PORT port) 0 = true → x.flag (Reg.ET_SEC port) 0 = false → 8 ≤ msg.length → msg.getD 0 0 = 128 →
      msg.getD 1 0 = 0 → s.does (.icmpv6Receive sd port false .plain src msg) sd (fun x y =>
        sends x y port (toBytesBE 16 src ++ icmpMessage (x.linkLocal port) src 129 0 (msg.drop 4)) ∧ x.keptBut y [.egress] (fun _ => False)))

/-! ### Reset, power, boot -/

/-- R685 to R688, R700, R704, R741, R750 to R755: SIDE_RESET_N low for 10 µs, the loss of the input or of a rail clear the side and what is on its
way to it, its fuses and its flash kept; power restored leaves it held in reset; a release boots it as far as its images allow; the PHY shows its
link; the TAP follows TMS and stays in Test-Logic-Reset once hobbled. -/
def Obligations.ResetAndBoot : Prop :=
  ∀ (s : State) (sd : SideId) (lowNs split port bank : Nat) (images : List (Option BootImage)) (up tms tdi trst : Bool) (keeper a b : BootImage) (cut : Option (Nat × Nat)),
    let x := s.side sd
    let cleared (c : Instr) (phase : Phase) (cut : Option (Nat × Nat)) (P : Side → Prop) : Prop :=
      ∃ t, exec c s = .next t ∧ t.pending = s.pending ∧
        (let y := t.side sd
         y.phase = phase ∧ y.id = x.id ∧ y.part = x.part ∧ y.now = 0 ∧ y.mem.cells = [] ∧ y.mem.bad = [] ∧ y.ops = [] ∧ y.events = [] ∧
         y.guards = [] ∧ y.xout = [] ∧ (∀ t, t ≤ 8191 → y.rd (Reg.TE_VALUE t) = 0) ∧ y.kp.roll = x.kp.roll ∧ y.kp.hobble = x.kp.hobble ∧
         y.kp.ownerHash = x.kp.ownerHash ∧ y.host.flash = x.host.flash ∧ y.host.torn = x.tornBy cut ∧
         y.egress = x.egress.map (fun e => if x.now < e.till then { e with cut := true } else e) ∧ P y) ∧
        (t.side sd.other).xout = [] ∧ (s.side sd.other).keptBut (t.side sd.other) [.xout] (fun _ => False)
    let boots := (x.phase = .held ∨ x.phase = .boot) ∧ x.power.pwrGood = true
    let z := (x.pwSet (fun p => { p with resetLow := false })).deriveKey.newChallenge
    let z' := z.put Reg.KP_STATE 4 1 bank
    (10000 ≤ lowNs → x.phase ≠ .off → cleared (.sideResetAssert sd lowNs cut) .held cut (fun y => y.power.resetLow = true)) ∧
    (lowNs < 1000 → x.live = true → s.does (.sideResetAssert sd lowNs cut) sd Side.unchanged) ∧
    (x.phase = .off → cleared (.powerUp sd) .held none (fun y => y.power.pwrGood = true)) ∧
    cleared (.powerOff sd cut) .off cut (fun y => y.power.pwrGood = false) ∧
    (x.phase ≠ .off → cleared (.railFaultReset sd cut) .held cut (fun y => y.power.pwrGood = false)) ∧
    (x.phase = .held → x.power.pwrGood = false → s.does (.railRecovery sd) sd (fun x y =>
      y.power = { x.power with pwrGood := true } ∧ x.keptBut y [.power] (fun _ => False))) ∧
    (boots → z.bootKeeper images = none → s.does (.sideResetRelease sd images split) sd (fun x y =>
      y.phase = .recovery ∧ y.power.resetLow = false ∧
      x.keptBut y [.phase, .power, .fresh] (fun k => (∃ w, w < 8 ∧ k = Reg.KP_IDPUB w) ∨ ∃ w, w < 4 ∧ k = Reg.KP_DCHAL w))) ∧
    (boots → z.bootKeeper images = some (bank, keeper) → z'.bootPair images bank = none → z'.bootPair images (1 - bank) = none →
      s.does (.sideResetRelease sd images split) sd (fun x y =>
        y.phase = .nofw ∧ y.flag Reg.KP_STATE 3 = true ∧ y.fld Reg.KP_STATE 4 1 = bank % 2 ∧ y.kp.fw = [runningImage keeper 1] ∧
        x.keptBut y [.phase, .power, .fresh, .kp] (fun k => k = Reg.KP_STATE ∨ (∃ w, w < 8 ∧ k = Reg.KP_IDPUB w) ∨ ∃ w, w < 4 ∧ k = Reg.KP_DCHAL w))) ∧
    (boots → z.bootKeeper images = some (bank, keeper) → z'.bootPair images bank = some (a, b) → split % x.part.stacks = 0 → split ≤ x.part.nearGB →
      x.grooms.length = x.part.grooms → (x.groom 0).halted = true → s.does (.sideResetRelease sd images split) sd (fun x y =>
        y.phase = .up ∧ y.kp.fw = [runningImage keeper 1, runningImage a 2, runningImage b 3] ∧
        (∀ k, k < x.part.stacks → y.flag (Reg.NT_STATE k) 0 = true ∧ y.fld (Reg.NT_STATE k) 8 8 = pinRate x.mode) ∧
        y.fld Reg.NT_MAP 0 8 = split ∧ y.flag Reg.NT_MAP 16 = true ∧
        (∀ m, (m < b.load % 2 ^ 46 ∨ b.load % 2 ^ 46 + b.code.length ≤ m) → y.mem.get m = (x.setSplit split).mem.get m) ∧
        (∀ i, i < b.code.length → y.mem.get (b.load % 2 ^ 46 + i) = b.code.getD i 0) ∧
        (∀ ow, ow ≠ 0x14 → b.code ≠ [] → y.writeGuarded ow (b.load % 2 ^ 46) 1 = true) ∧
        (y.groom 0).halted = false ∧ (y.groom 0).pl = 2 ∧ (y.groom 0).pc = (y.rd (Reg.GR_BOOT 0)).toNat ∧
        (∀ g, g ≠ 0 → (y.groom g).plain = (x.groom g).plain))) ∧
    (port ≤ 9 → s.does (.phyLinkChange sd port up) sd (fun x y =>
      y.flag (Reg.ET_PORT port) 2 = up ∧ x.keptBut y [] (fun k => k = Reg.ET_PORT port))) ∧
    ((x.kp.hobble = true ∨ trst = true) → s.does (.tapAccess sd tms tdi trst) sd (fun x y =>
      y.kp = { x.kp with tap := ⟨.testLogicReset, none, [], false⟩ } ∧ x.keptBut y [.kp] (fun _ => False))) ∧
    (x.kp.hobble = false → s.does (.tapAccess sd tms tdi false) sd (fun x y =>
      y.kp.tap.st = x.kp.tap.st.next tms ∧
      (x.kp.tap.st = .shiftDr ∨ x.kp.tap.st = .shiftIr → y.kp.tap.tdo = x.kp.tap.shift.headD false ∧
        y.kp.tap.shift = x.kp.tap.shift.drop 1 ++ [tdi]) ∧
      (x.kp.tap.st = .updateIr → y.kp.tap.ir = some (ofBitList x.kp.tap.shift)) ∧
      x.keptBut y [.kp, .fresh] (fun _ => False)))
end

