-- ==== Sys2Proof/Laws/Lists.lean ====
section
/-!
SUPPORT. Laws/Lists.lean: the sparse lists of the model: what is read after a write, and their canonical form.
-/
namespace Sys2Proof.Machine

theorem alGet_alDel_same {β : Type} (d : β) (l : List (Nat × β)) (a : Nat) : alGet d (alDel l a) a = d := by
  induction l with
  | nil => rfl
  | cons e r ih => obtain ⟨k, v⟩ := e; simp only [alDel]; split <;> simp_all [alGet]

theorem alGet_alDel_other {β : Type} (d : β) (l : List (Nat × β)) {a b : Nat} (h : b ≠ a) :
    alGet d (alDel l a) b = alGet d l b := by
  induction l with
  | nil => rfl
  | cons e r ih => obtain ⟨k, v⟩ := e; simp only [alDel, alGet]; split <;> simp_all [alGet]

theorem alGet_alIns_same {β : Type} (d : β) (l : List (Nat × β)) (a : Nat) (b : β) (h : alGet none (l.map (fun e => (e.1, some e.2))) a = none) :
    alGet d (alIns l a b) a = b := by
  induction l with
  | nil => simp [alIns, alGet]
  | cons e r ih =>
    obtain ⟨k, v⟩ := e
    simp only [alIns]
    split
    · simp [alGet]
    · by_cases hk : a = k
      · simp [alGet, hk] at h
      · simp [alGet, hk] at h ⊢; exact ih h

theorem alGet_alIns_other {β : Type} (d : β) (l : List (Nat × β)) {a c : Nat} (b : β) (h : c ≠ a) :
    alGet d (alIns l a b) c = alGet d l c := by
  induction l with
  | nil => simp [alIns, alGet, h]
  | cons e r ih => obtain ⟨k, v⟩ := e; simp only [alIns]; split <;> simp_all [alGet]

theorem alGet_alDel_none {β : Type} (l : List (Nat × β)) (a : Nat) :
    alGet none ((alDel l a).map (fun e => (e.1, some e.2))) a = none := by
  induction l with
  | nil => rfl
  | cons e r ih => obtain ⟨k, v⟩ := e; simp only [alDel]; split <;> simp_all [alGet]

/-- What is read at a key just set. -/
theorem alGet_alSet_same {β : Type} (d : β) (l : List (Nat × β)) (a : Nat) (b : β) : alGet d (alSet l a b) a = b :=
  alGet_alIns_same d _ a b (alGet_alDel_none l a)

/-- A set leaves what is read at every other key. -/
theorem alGet_alSet_other {β : Type} (d : β) (l : List (Nat × β)) {a c : Nat} (b : β) (h : c ≠ a) :
    alGet d (alSet l a b) c = alGet d l c := by
  rw [alSet, alGet_alIns_other d _ b h, alGet_alDel_other d l h]

/-- What is read at a key just put. -/
@[simp] theorem alGet_alPut_same {β : Type} [DecidableEq β] (d : β) (l : List (Nat × β)) (a : Nat) (b : β) :
    alGet d (alPut d l a b) a = b := by
  unfold alPut; split
  · rename_i h; rw [h, alGet_alDel_same]
  · exact alGet_alSet_same d l a b

/-- A put leaves what is read at every other key. -/
theorem alGet_alPut_other {β : Type} [DecidableEq β] (d e : β) (l : List (Nat × β)) {a c : Nat} (b : β) (h : c ≠ a) :
    alGet d (alPut e l a b) c = alGet d l c := by
  unfold alPut; split
  · exact alGet_alDel_other d l h
  · exact alGet_alSet_other d l b h

/-- Every key of a list satisfies a bound from below. -/
def keysAbove {β : Type} (n : Nat) (l : List (Nat × β)) : Prop := ∀ e ∈ l, n < e.1

theorem alWf_cons {β : Type} [DecidableEq β] (d : Nat → β) (k : Nat) (v : β) (r : List (Nat × β)) :
    alWf d ((k, v) :: r) = true ↔ v ≠ d k ∧ keysAbove k r ∧ alWf d r = true := by
  induction r generalizing k v with
  | nil => simp [alWf, keysAbove]
  | cons e r ih =>
    obtain ⟨k', v'⟩ := e
    simp only [alWf, Bool.and_eq_true, decide_eq_true_eq, ih]
    constructor
    · rintro ⟨⟨h1, h2⟩, h3, h4, h5⟩
      refine ⟨h1, ?_, h3, h4, h5⟩
      intro e he
      rcases List.mem_cons.mp he with rfl | he
      · exact h2
      · exact Nat.lt_trans h2 (h4 e he)
    · rintro ⟨h1, h2, h3, h4, h5⟩
      exact ⟨⟨h1, h2 _ (List.mem_cons_self ..)⟩, h3, h4, h5⟩

theorem keysAbove_alDel {β : Type} (n : Nat) (l : List (Nat × β)) (a : Nat) (h : keysAbove n l) : keysAbove n (alDel l a) := by
  induction l with
  | nil => exact h
  | cons e r ih =>
    obtain ⟨k, v⟩ := e
    have hr : keysAbove n r := fun e he => h e (List.mem_cons_of_mem _ he)
    simp only [alDel]; split
    · exact ih hr
    · intro e he
      rcases List.mem_cons.mp he with rfl | he
      · exact h _ (List.mem_cons_self ..)
      · exact ih hr e he

theorem keysAbove_alIns {β : Type} (n : Nat) (l : List (Nat × β)) (a : Nat) (b : β) (ha : n < a) (h : keysAbove n l) :
    keysAbove n (alIns l a b) := by
  induction l with
  | nil => intro e he; simp [alIns] at he; rw [he]; exact ha
  | cons e r ih =>
    obtain ⟨k, v⟩ := e
    have hr : keysAbove n r := fun e he => h e (List.mem_cons_of_mem _ he)
    simp only [alIns]; split
    · intro e he
      rcases List.mem_cons.mp he with rfl | he
      · exact ha
      · exact h e he
    · intro e he
      rcases List.mem_cons.mp he with rfl | he
      · exact h _ (List.mem_cons_self ..)
      · exact ih hr e he

theorem not_mem_alDel {β : Type} (l : List (Nat × β)) (a : Nat) : ∀ e ∈ alDel l a, e.1 ≠ a := by
  induction l with
  | nil => intro e he; cases he
  | cons e r ih =>
    obtain ⟨k, v⟩ := e
    simp only [alDel]; split
    · exact ih
    · rename_i h
      intro e he
      rcases List.mem_cons.mp he with rfl | he
      · exact fun hh => h hh.symm
      · exact ih e he

theorem alWf_alDel {β : Type} [DecidableEq β] (d : Nat → β) (l : List (Nat × β)) (a : Nat) (h : alWf d l = true) :
    alWf d (alDel l a) = true := by
  induction l with
  | nil => exact h
  | cons e r ih =>
    obtain ⟨k, v⟩ := e
    rw [alWf_cons] at h
    simp only [alDel]; split
    · exact ih h.2.2
    · rw [alWf_cons]; exact ⟨h.1, keysAbove_alDel _ _ _ h.2.1, ih h.2.2⟩

theorem alWf_alIns {β : Type} [DecidableEq β] (d : Nat → β) (l : List (Nat × β)) (a : Nat) (b : β) (hb : b ≠ d a)
    (h : alWf d l = true) (ha : ∀ e ∈ l, e.1 ≠ a) : alWf d (alIns l a b) = true := by
  induction l with
  | nil => simp [alIns, alWf, hb]
  | cons e r ih =>
    obtain ⟨k, v⟩ := e
    have hk : k ≠ a := ha _ (List.mem_cons_self ..)
    have h' := h
    rw [alWf_cons] at h
    simp only [alIns]; split
    · rename_i hlt
      rw [alWf_cons]
      refine ⟨hb, ?_, h'⟩
      intro e he
      rcases List.mem_cons.mp he with rfl | he
      · exact hlt
      · exact Nat.lt_trans hlt (h.2.1 e he)
    · rename_i hge
      rw [alWf_cons]
      refine ⟨h.1, ?_, ih h.2.2 (fun e he => ha e (List.mem_cons_of_mem _ he))⟩
      have hka : k < a := by omega
      exact keysAbove_alIns k r a b hka h.2.1

/-- A put keeps the canonical form, where the default of the list at the key is the one put against. -/
theorem alWf_alPut {β : Type} [DecidableEq β] (d : Nat → β) (l : List (Nat × β)) (a : Nat) (b : β) (h : alWf d l = true) :
    alWf d (alPut (d a) l a b) = true := by
  unfold alPut; split
  · exact alWf_alDel d l a h
  · exact alWf_alIns d _ a b ‹_› (alWf_alDel d l a h) (not_mem_alDel l a)

end Sys2Proof.Machine
end

