-- ==== Sys2Proof/Laws/State.lean ====
section
/-!
SUPPORT. Laws/State.lean: what each shared update of a side leaves as it was, one lemma per field.
-/
namespace Sys2Proof.Machine

variable (s : Side)

@[simp] theorem Side.wr_id (k : Nat) (v : Word) : (s.wr k v).id = s.id := (rfl)
@[simp] theorem Side.wr_part (k : Nat) (v : Word) : (s.wr k v).part = s.part := (rfl)
@[simp] theorem Side.wr_phase (k : Nat) (v : Word) : (s.wr k v).phase = s.phase := (rfl)
@[simp] theorem Side.wr_mem (k : Nat) (v : Word) : (s.wr k v).mem = s.mem := (rfl)
@[simp] theorem Side.wr_guards (k : Nat) (v : Word) : (s.wr k v).guards = s.guards := (rfl)
@[simp] theorem Side.wr_grooms (k : Nat) (v : Word) : (s.wr k v).grooms = s.grooms := (rfl)
@[simp] theorem Side.wr_returns (k : Nat) (v : Word) : (s.wr k v).returns = s.returns := (rfl)
@[simp] theorem Side.wr_ops (k : Nat) (v : Word) : (s.wr k v).ops = s.ops := (rfl)
@[simp] theorem Side.wr_rr (k : Nat) (v : Word) : (s.wr k v).rr = s.rr := (rfl)
@[simp] theorem Side.wr_datum (k : Nat) (v : Word) : (s.wr k v).datum = s.datum := (rfl)
@[simp] theorem Side.wr_lg (k : Nat) (v : Word) : (s.wr k v).lg = s.lg := (rfl)
@[simp] theorem Side.wr_ing (k : Nat) (v : Word) : (s.wr k v).ing = s.ing := (rfl)
@[simp] theorem Side.wr_tr (k : Nat) (v : Word) : (s.wr k v).tr = s.tr := (rfl)
@[simp] theorem Side.wr_gt (k : Nat) (v : Word) : (s.wr k v).gt = s.gt := (rfl)
@[simp] theorem Side.wr_pl (k : Nat) (v : Word) : (s.wr k v).pl = s.pl := (rfl)
@[simp] theorem Side.wr_pt (k : Nat) (v : Word) : (s.wr k v).pt = s.pt := (rfl)
@[simp] theorem Side.wr_tv (k : Nat) (v : Word) : (s.wr k v).tv = s.tv := (rfl)
@[simp] theorem Side.wr_br (k : Nat) (v : Word) : (s.wr k v).br = s.br := (rfl)
@[simp] theorem Side.wr_mangers (k : Nat) (v : Word) : (s.wr k v).mangers = s.mangers := (rfl)
@[simp] theorem Side.wr_outriders (k : Nat) (v : Word) : (s.wr k v).outriders = s.outriders := (rfl)
@[simp] theorem Side.wr_scrubLine (k : Nat) (v : Word) : (s.wr k v).scrubLine = s.scrubLine := (rfl)
@[simp] theorem Side.wr_xout (k : Nat) (v : Word) : (s.wr k v).xout = s.xout := (rfl)
@[simp] theorem Side.wr_egress (k : Nat) (v : Word) : (s.wr k v).egress = s.egress := (rfl)
@[simp] theorem Side.wr_events (k : Nat) (v : Word) : (s.wr k v).events = s.events := (rfl)
@[simp] theorem Side.wr_unver (k : Nat) (v : Word) : (s.wr k v).unver = s.unver := (rfl)
@[simp] theorem Side.wr_sw (k : Nat) (v : Word) : (s.wr k v).sw = s.sw := (rfl)
@[simp] theorem Side.wr_kp (k : Nat) (v : Word) : (s.wr k v).kp = s.kp := (rfl)
@[simp] theorem Side.wr_pm (k : Nat) (v : Word) : (s.wr k v).pm = s.pm := (rfl)
@[simp] theorem Side.wr_power (k : Nat) (v : Word) : (s.wr k v).power = s.power := (rfl)
@[simp] theorem Side.wr_host (k : Nat) (v : Word) : (s.wr k v).host = s.host := (rfl)
@[simp] theorem Side.wr_acts (k : Nat) (v : Word) : (s.wr k v).acts = s.acts := (rfl)
@[simp] theorem Side.wr_fresh (k : Nat) (v : Word) : (s.wr k v).fresh = s.fresh := (rfl)

@[simp] theorem Side.put_id (k lo n v : Nat) : (s.put k lo n v).id = s.id := (rfl)
@[simp] theorem Side.put_part (k lo n v : Nat) : (s.put k lo n v).part = s.part := (rfl)
@[simp] theorem Side.put_phase (k lo n v : Nat) : (s.put k lo n v).phase = s.phase := (rfl)
@[simp] theorem Side.put_mem (k lo n v : Nat) : (s.put k lo n v).mem = s.mem := (rfl)
@[simp] theorem Side.put_guards (k lo n v : Nat) : (s.put k lo n v).guards = s.guards := (rfl)
@[simp] theorem Side.put_grooms (k lo n v : Nat) : (s.put k lo n v).grooms = s.grooms := (rfl)
@[simp] theorem Side.put_returns (k lo n v : Nat) : (s.put k lo n v).returns = s.returns := (rfl)
@[simp] theorem Side.put_ops (k lo n v : Nat) : (s.put k lo n v).ops = s.ops := (rfl)
@[simp] theorem Side.put_rr (k lo n v : Nat) : (s.put k lo n v).rr = s.rr := (rfl)
@[simp] theorem Side.put_datum (k lo n v : Nat) : (s.put k lo n v).datum = s.datum := (rfl)
@[simp] theorem Side.put_lg (k lo n v : Nat) : (s.put k lo n v).lg = s.lg := (rfl)
@[simp] theorem Side.put_ing (k lo n v : Nat) : (s.put k lo n v).ing = s.ing := (rfl)
@[simp] theorem Side.put_tr (k lo n v : Nat) : (s.put k lo n v).tr = s.tr := (rfl)
@[simp] theorem Side.put_gt (k lo n v : Nat) : (s.put k lo n v).gt = s.gt := (rfl)
@[simp] theorem Side.put_pl (k lo n v : Nat) : (s.put k lo n v).pl = s.pl := (rfl)
@[simp] theorem Side.put_pt (k lo n v : Nat) : (s.put k lo n v).pt = s.pt := (rfl)
@[simp] theorem Side.put_tv (k lo n v : Nat) : (s.put k lo n v).tv = s.tv := (rfl)
@[simp] theorem Side.put_br (k lo n v : Nat) : (s.put k lo n v).br = s.br := (rfl)
@[simp] theorem Side.put_mangers (k lo n v : Nat) : (s.put k lo n v).mangers = s.mangers := (rfl)
@[simp] theorem Side.put_outriders (k lo n v : Nat) : (s.put k lo n v).outriders = s.outriders := (rfl)
@[simp] theorem Side.put_scrubLine (k lo n v : Nat) : (s.put k lo n v).scrubLine = s.scrubLine := (rfl)
@[simp] theorem Side.put_xout (k lo n v : Nat) : (s.put k lo n v).xout = s.xout := (rfl)
@[simp] theorem Side.put_egress (k lo n v : Nat) : (s.put k lo n v).egress = s.egress := (rfl)
@[simp] theorem Side.put_events (k lo n v : Nat) : (s.put k lo n v).events = s.events := (rfl)
@[simp] theorem Side.put_unver (k lo n v : Nat) : (s.put k lo n v).unver = s.unver := (rfl)
@[simp] theorem Side.put_sw (k lo n v : Nat) : (s.put k lo n v).sw = s.sw := (rfl)
@[simp] theorem Side.put_kp (k lo n v : Nat) : (s.put k lo n v).kp = s.kp := (rfl)
@[simp] theorem Side.put_pm (k lo n v : Nat) : (s.put k lo n v).pm = s.pm := (rfl)
@[simp] theorem Side.put_power (k lo n v : Nat) : (s.put k lo n v).power = s.power := (rfl)
@[simp] theorem Side.put_host (k lo n v : Nat) : (s.put k lo n v).host = s.host := (rfl)
@[simp] theorem Side.put_acts (k lo n v : Nat) : (s.put k lo n v).acts = s.acts := (rfl)
@[simp] theorem Side.put_fresh (k lo n v : Nat) : (s.put k lo n v).fresh = s.fresh := (rfl)

@[simp] theorem Side.count_id (k lo n d : Nat) : (s.count k lo n d).id = s.id := (rfl)
@[simp] theorem Side.count_part (k lo n d : Nat) : (s.count k lo n d).part = s.part := (rfl)
@[simp] theorem Side.count_phase (k lo n d : Nat) : (s.count k lo n d).phase = s.phase := (rfl)
@[simp] theorem Side.count_mem (k lo n d : Nat) : (s.count k lo n d).mem = s.mem := (rfl)
@[simp] theorem Side.count_guards (k lo n d : Nat) : (s.count k lo n d).guards = s.guards := (rfl)
@[simp] theorem Side.count_grooms (k lo n d : Nat) : (s.count k lo n d).grooms = s.grooms := (rfl)
@[simp] theorem Side.count_returns (k lo n d : Nat) : (s.count k lo n d).returns = s.returns := (rfl)
@[simp] theorem Side.count_ops (k lo n d : Nat) : (s.count k lo n d).ops = s.ops := (rfl)
@[simp] theorem Side.count_rr (k lo n d : Nat) : (s.count k lo n d).rr = s.rr := (rfl)
@[simp] theorem Side.count_datum (k lo n d : Nat) : (s.count k lo n d).datum = s.datum := (rfl)
@[simp] theorem Side.count_lg (k lo n d : Nat) : (s.count k lo n d).lg = s.lg := (rfl)
@[simp] theorem Side.count_ing (k lo n d : Nat) : (s.count k lo n d).ing = s.ing := (rfl)
@[simp] theorem Side.count_tr (k lo n d : Nat) : (s.count k lo n d).tr = s.tr := (rfl)
@[simp] theorem Side.count_gt (k lo n d : Nat) : (s.count k lo n d).gt = s.gt := (rfl)
@[simp] theorem Side.count_pl (k lo n d : Nat) : (s.count k lo n d).pl = s.pl := (rfl)
@[simp] theorem Side.count_pt (k lo n d : Nat) : (s.count k lo n d).pt = s.pt := (rfl)
@[simp] theorem Side.count_tv (k lo n d : Nat) : (s.count k lo n d).tv = s.tv := (rfl)
@[simp] theorem Side.count_br (k lo n d : Nat) : (s.count k lo n d).br = s.br := (rfl)
@[simp] theorem Side.count_mangers (k lo n d : Nat) : (s.count k lo n d).mangers = s.mangers := (rfl)
@[simp] theorem Side.count_outriders (k lo n d : Nat) : (s.count k lo n d).outriders = s.outriders := (rfl)
@[simp] theorem Side.count_scrubLine (k lo n d : Nat) : (s.count k lo n d).scrubLine = s.scrubLine := (rfl)
@[simp] theorem Side.count_xout (k lo n d : Nat) : (s.count k lo n d).xout = s.xout := (rfl)
@[simp] theorem Side.count_egress (k lo n d : Nat) : (s.count k lo n d).egress = s.egress := (rfl)
@[simp] theorem Side.count_events (k lo n d : Nat) : (s.count k lo n d).events = s.events := (rfl)
@[simp] theorem Side.count_unver (k lo n d : Nat) : (s.count k lo n d).unver = s.unver := (rfl)
@[simp] theorem Side.count_sw (k lo n d : Nat) : (s.count k lo n d).sw = s.sw := (rfl)
@[simp] theorem Side.count_kp (k lo n d : Nat) : (s.count k lo n d).kp = s.kp := (rfl)
@[simp] theorem Side.count_pm (k lo n d : Nat) : (s.count k lo n d).pm = s.pm := (rfl)
@[simp] theorem Side.count_power (k lo n d : Nat) : (s.count k lo n d).power = s.power := (rfl)
@[simp] theorem Side.count_host (k lo n d : Nat) : (s.count k lo n d).host = s.host := (rfl)
@[simp] theorem Side.count_acts (k lo n d : Nat) : (s.count k lo n d).acts = s.acts := (rfl)
@[simp] theorem Side.count_fresh (k lo n d : Nat) : (s.count k lo n d).fresh = s.fresh := (rfl)

@[simp] theorem Side.signal_id (t n : Nat) : (s.signal t n).id = s.id := (rfl)
@[simp] theorem Side.signal_part (t n : Nat) : (s.signal t n).part = s.part := (rfl)
@[simp] theorem Side.signal_phase (t n : Nat) : (s.signal t n).phase = s.phase := (rfl)
@[simp] theorem Side.signal_mem (t n : Nat) : (s.signal t n).mem = s.mem := (rfl)
@[simp] theorem Side.signal_guards (t n : Nat) : (s.signal t n).guards = s.guards := (rfl)
@[simp] theorem Side.signal_grooms (t n : Nat) : (s.signal t n).grooms = s.grooms := (rfl)
@[simp] theorem Side.signal_returns (t n : Nat) : (s.signal t n).returns = s.returns := (rfl)
@[simp] theorem Side.signal_ops (t n : Nat) : (s.signal t n).ops = s.ops := (rfl)
@[simp] theorem Side.signal_rr (t n : Nat) : (s.signal t n).rr = s.rr := (rfl)
@[simp] theorem Side.signal_datum (t n : Nat) : (s.signal t n).datum = s.datum := (rfl)
@[simp] theorem Side.signal_lg (t n : Nat) : (s.signal t n).lg = s.lg := (rfl)
@[simp] theorem Side.signal_ing (t n : Nat) : (s.signal t n).ing = s.ing := (rfl)
@[simp] theorem Side.signal_tr (t n : Nat) : (s.signal t n).tr = s.tr := (rfl)
@[simp] theorem Side.signal_gt (t n : Nat) : (s.signal t n).gt = s.gt := (rfl)
@[simp] theorem Side.signal_pl (t n : Nat) : (s.signal t n).pl = s.pl := (rfl)
@[simp] theorem Side.signal_pt (t n : Nat) : (s.signal t n).pt = s.pt := (rfl)
@[simp] theorem Side.signal_tv (t n : Nat) : (s.signal t n).tv = s.tv := (rfl)
@[simp] theorem Side.signal_br (t n : Nat) : (s.signal t n).br = s.br := (rfl)
@[simp] theorem Side.signal_mangers (t n : Nat) : (s.signal t n).mangers = s.mangers := (rfl)
@[simp] theorem Side.signal_outriders (t n : Nat) : (s.signal t n).outriders = s.outriders := (rfl)
@[simp] theorem Side.signal_scrubLine (t n : Nat) : (s.signal t n).scrubLine = s.scrubLine := (rfl)
@[simp] theorem Side.signal_xout (t n : Nat) : (s.signal t n).xout = s.xout := (rfl)
@[simp] theorem Side.signal_egress (t n : Nat) : (s.signal t n).egress = s.egress := (rfl)
@[simp] theorem Side.signal_events (t n : Nat) : (s.signal t n).events = s.events := (rfl)
@[simp] theorem Side.signal_unver (t n : Nat) : (s.signal t n).unver = s.unver := (rfl)
@[simp] theorem Side.signal_sw (t n : Nat) : (s.signal t n).sw = s.sw := (rfl)
@[simp] theorem Side.signal_kp (t n : Nat) : (s.signal t n).kp = s.kp := (rfl)
@[simp] theorem Side.signal_pm (t n : Nat) : (s.signal t n).pm = s.pm := (rfl)
@[simp] theorem Side.signal_power (t n : Nat) : (s.signal t n).power = s.power := (rfl)
@[simp] theorem Side.signal_host (t n : Nat) : (s.signal t n).host = s.host := (rfl)
@[simp] theorem Side.signal_acts (t n : Nat) : (s.signal t n).acts = s.acts := (rfl)
@[simp] theorem Side.signal_fresh (t n : Nat) : (s.signal t n).fresh = s.fresh := (rfl)

@[simp] theorem Side.setOp_id (o : Op) : (s.setOp o).id = s.id := (rfl)
@[simp] theorem Side.setOp_part (o : Op) : (s.setOp o).part = s.part := (rfl)
@[simp] theorem Side.setOp_phase (o : Op) : (s.setOp o).phase = s.phase := (rfl)
@[simp] theorem Side.setOp_regs (o : Op) : (s.setOp o).regs = s.regs := (rfl)
@[simp] theorem Side.setOp_mem (o : Op) : (s.setOp o).mem = s.mem := (rfl)
@[simp] theorem Side.setOp_guards (o : Op) : (s.setOp o).guards = s.guards := (rfl)
@[simp] theorem Side.setOp_grooms (o : Op) : (s.setOp o).grooms = s.grooms := (rfl)
@[simp] theorem Side.setOp_returns (o : Op) : (s.setOp o).returns = s.returns := (rfl)
@[simp] theorem Side.setOp_rr (o : Op) : (s.setOp o).rr = s.rr := (rfl)
@[simp] theorem Side.setOp_datum (o : Op) : (s.setOp o).datum = s.datum := (rfl)
@[simp] theorem Side.setOp_lg (o : Op) : (s.setOp o).lg = s.lg := (rfl)
@[simp] theorem Side.setOp_ing (o : Op) : (s.setOp o).ing = s.ing := (rfl)
@[simp] theorem Side.setOp_tr (o : Op) : (s.setOp o).tr = s.tr := (rfl)
@[simp] theorem Side.setOp_gt (o : Op) : (s.setOp o).gt = s.gt := (rfl)
@[simp] theorem Side.setOp_pl (o : Op) : (s.setOp o).pl = s.pl := (rfl)
@[simp] theorem Side.setOp_pt (o : Op) : (s.setOp o).pt = s.pt := (rfl)
@[simp] theorem Side.setOp_tv (o : Op) : (s.setOp o).tv = s.tv := (rfl)
@[simp] theorem Side.setOp_br (o : Op) : (s.setOp o).br = s.br := (rfl)
@[simp] theorem Side.setOp_mangers (o : Op) : (s.setOp o).mangers = s.mangers := (rfl)
@[simp] theorem Side.setOp_outriders (o : Op) : (s.setOp o).outriders = s.outriders := (rfl)
@[simp] theorem Side.setOp_scrubLine (o : Op) : (s.setOp o).scrubLine = s.scrubLine := (rfl)
@[simp] theorem Side.setOp_xout (o : Op) : (s.setOp o).xout = s.xout := (rfl)
@[simp] theorem Side.setOp_egress (o : Op) : (s.setOp o).egress = s.egress := (rfl)
@[simp] theorem Side.setOp_events (o : Op) : (s.setOp o).events = s.events := (rfl)
@[simp] theorem Side.setOp_unver (o : Op) : (s.setOp o).unver = s.unver := (rfl)
@[simp] theorem Side.setOp_sw (o : Op) : (s.setOp o).sw = s.sw := (rfl)
@[simp] theorem Side.setOp_kp (o : Op) : (s.setOp o).kp = s.kp := (rfl)
@[simp] theorem Side.setOp_pm (o : Op) : (s.setOp o).pm = s.pm := (rfl)
@[simp] theorem Side.setOp_power (o : Op) : (s.setOp o).power = s.power := (rfl)
@[simp] theorem Side.setOp_host (o : Op) : (s.setOp o).host = s.host := (rfl)
@[simp] theorem Side.setOp_acts (o : Op) : (s.setOp o).acts = s.acts := (rfl)
@[simp] theorem Side.setOp_fresh (o : Op) : (s.setOp o).fresh = s.fresh := (rfl)

@[simp] theorem Side.raise_id (c u i : Nat) (cm : Option (Nat × Nat)) (d f : Nat) (p : Option (Nat × Nat)) : (s.raise c u i cm d f p).id = s.id := (rfl)
@[simp] theorem Side.raise_part (c u i : Nat) (cm : Option (Nat × Nat)) (d f : Nat) (p : Option (Nat × Nat)) : (s.raise c u i cm d f p).part = s.part := (rfl)
@[simp] theorem Side.raise_phase (c u i : Nat) (cm : Option (Nat × Nat)) (d f : Nat) (p : Option (Nat × Nat)) : (s.raise c u i cm d f p).phase = s.phase := (rfl)
@[simp] theorem Side.raise_regs (c u i : Nat) (cm : Option (Nat × Nat)) (d f : Nat) (p : Option (Nat × Nat)) : (s.raise c u i cm d f p).regs = s.regs := (rfl)
@[simp] theorem Side.raise_mem (c u i : Nat) (cm : Option (Nat × Nat)) (d f : Nat) (p : Option (Nat × Nat)) : (s.raise c u i cm d f p).mem = s.mem := (rfl)
@[simp] theorem Side.raise_guards (c u i : Nat) (cm : Option (Nat × Nat)) (d f : Nat) (p : Option (Nat × Nat)) : (s.raise c u i cm d f p).guards = s.guards := (rfl)
@[simp] theorem Side.raise_grooms (c u i : Nat) (cm : Option (Nat × Nat)) (d f : Nat) (p : Option (Nat × Nat)) : (s.raise c u i cm d f p).grooms = s.grooms := (rfl)
@[simp] theorem Side.raise_returns (c u i : Nat) (cm : Option (Nat × Nat)) (d f : Nat) (p : Option (Nat × Nat)) : (s.raise c u i cm d f p).returns = s.returns := (rfl)
@[simp] theorem Side.raise_ops (c u i : Nat) (cm : Option (Nat × Nat)) (d f : Nat) (p : Option (Nat × Nat)) : (s.raise c u i cm d f p).ops = s.ops := (rfl)
@[simp] theorem Side.raise_rr (c u i : Nat) (cm : Option (Nat × Nat)) (d f : Nat) (p : Option (Nat × Nat)) : (s.raise c u i cm d f p).rr = s.rr := (rfl)
@[simp] theorem Side.raise_datum (c u i : Nat) (cm : Option (Nat × Nat)) (d f : Nat) (p : Option (Nat × Nat)) : (s.raise c u i cm d f p).datum = s.datum := (rfl)
@[simp] theorem Side.raise_lg (c u i : Nat) (cm : Option (Nat × Nat)) (d f : Nat) (p : Option (Nat × Nat)) : (s.raise c u i cm d f p).lg = s.lg := (rfl)
@[simp] theorem Side.raise_ing (c u i : Nat) (cm : Option (Nat × Nat)) (d f : Nat) (p : Option (Nat × Nat)) : (s.raise c u i cm d f p).ing = s.ing := (rfl)
@[simp] theorem Side.raise_tr (c u i : Nat) (cm : Option (Nat × Nat)) (d f : Nat) (p : Option (Nat × Nat)) : (s.raise c u i cm d f p).tr = s.tr := (rfl)
@[simp] theorem Side.raise_gt (c u i : Nat) (cm : Option (Nat × Nat)) (d f : Nat) (p : Option (Nat × Nat)) : (s.raise c u i cm d f p).gt = s.gt := (rfl)
@[simp] theorem Side.raise_pl (c u i : Nat) (cm : Option (Nat × Nat)) (d f : Nat) (p : Option (Nat × Nat)) : (s.raise c u i cm d f p).pl = s.pl := (rfl)
@[simp] theorem Side.raise_pt (c u i : Nat) (cm : Option (Nat × Nat)) (d f : Nat) (p : Option (Nat × Nat)) : (s.raise c u i cm d f p).pt = s.pt := (rfl)
@[simp] theorem Side.raise_tv (c u i : Nat) (cm : Option (Nat × Nat)) (d f : Nat) (p : Option (Nat × Nat)) : (s.raise c u i cm d f p).tv = s.tv := (rfl)
@[simp] theorem Side.raise_br (c u i : Nat) (cm : Option (Nat × Nat)) (d f : Nat) (p : Option (Nat × Nat)) : (s.raise c u i cm d f p).br = s.br := (rfl)
@[simp] theorem Side.raise_mangers (c u i : Nat) (cm : Option (Nat × Nat)) (d f : Nat) (p : Option (Nat × Nat)) : (s.raise c u i cm d f p).mangers = s.mangers := (rfl)
@[simp] theorem Side.raise_outriders (c u i : Nat) (cm : Option (Nat × Nat)) (d f : Nat) (p : Option (Nat × Nat)) : (s.raise c u i cm d f p).outriders = s.outriders := (rfl)
@[simp] theorem Side.raise_scrubLine (c u i : Nat) (cm : Option (Nat × Nat)) (d f : Nat) (p : Option (Nat × Nat)) : (s.raise c u i cm d f p).scrubLine = s.scrubLine := (rfl)
@[simp] theorem Side.raise_xout (c u i : Nat) (cm : Option (Nat × Nat)) (d f : Nat) (p : Option (Nat × Nat)) : (s.raise c u i cm d f p).xout = s.xout := (rfl)
@[simp] theorem Side.raise_egress (c u i : Nat) (cm : Option (Nat × Nat)) (d f : Nat) (p : Option (Nat × Nat)) : (s.raise c u i cm d f p).egress = s.egress := (rfl)
@[simp] theorem Side.raise_unver (c u i : Nat) (cm : Option (Nat × Nat)) (d f : Nat) (p : Option (Nat × Nat)) : (s.raise c u i cm d f p).unver = s.unver := (rfl)
@[simp] theorem Side.raise_sw (c u i : Nat) (cm : Option (Nat × Nat)) (d f : Nat) (p : Option (Nat × Nat)) : (s.raise c u i cm d f p).sw = s.sw := (rfl)
@[simp] theorem Side.raise_kp (c u i : Nat) (cm : Option (Nat × Nat)) (d f : Nat) (p : Option (Nat × Nat)) : (s.raise c u i cm d f p).kp = s.kp := (rfl)
@[simp] theorem Side.raise_pm (c u i : Nat) (cm : Option (Nat × Nat)) (d f : Nat) (p : Option (Nat × Nat)) : (s.raise c u i cm d f p).pm = s.pm := (rfl)
@[simp] theorem Side.raise_power (c u i : Nat) (cm : Option (Nat × Nat)) (d f : Nat) (p : Option (Nat × Nat)) : (s.raise c u i cm d f p).power = s.power := (rfl)
@[simp] theorem Side.raise_host (c u i : Nat) (cm : Option (Nat × Nat)) (d f : Nat) (p : Option (Nat × Nat)) : (s.raise c u i cm d f p).host = s.host := (rfl)
@[simp] theorem Side.raise_acts (c u i : Nat) (cm : Option (Nat × Nat)) (d f : Nat) (p : Option (Nat × Nat)) : (s.raise c u i cm d f p).acts = s.acts := (rfl)
@[simp] theorem Side.raise_fresh (c u i : Nat) (cm : Option (Nat × Nat)) (d f : Nat) (p : Option (Nat × Nat)) : (s.raise c u i cm d f p).fresh = s.fresh := (rfl)

@[simp] theorem Side.onTag_id (m : Nat) (f : PmTag → PmTag) : (s.onTag m f).id = s.id := (rfl)
@[simp] theorem Side.onTag_part (m : Nat) (f : PmTag → PmTag) : (s.onTag m f).part = s.part := (rfl)
@[simp] theorem Side.onTag_phase (m : Nat) (f : PmTag → PmTag) : (s.onTag m f).phase = s.phase := (rfl)
@[simp] theorem Side.onTag_regs (m : Nat) (f : PmTag → PmTag) : (s.onTag m f).regs = s.regs := (rfl)
@[simp] theorem Side.onTag_mem (m : Nat) (f : PmTag → PmTag) : (s.onTag m f).mem = s.mem := (rfl)
@[simp] theorem Side.onTag_guards (m : Nat) (f : PmTag → PmTag) : (s.onTag m f).guards = s.guards := (rfl)
@[simp] theorem Side.onTag_grooms (m : Nat) (f : PmTag → PmTag) : (s.onTag m f).grooms = s.grooms := (rfl)
@[simp] theorem Side.onTag_returns (m : Nat) (f : PmTag → PmTag) : (s.onTag m f).returns = s.returns := (rfl)
@[simp] theorem Side.onTag_ops (m : Nat) (f : PmTag → PmTag) : (s.onTag m f).ops = s.ops := (rfl)
@[simp] theorem Side.onTag_rr (m : Nat) (f : PmTag → PmTag) : (s.onTag m f).rr = s.rr := (rfl)
@[simp] theorem Side.onTag_datum (m : Nat) (f : PmTag → PmTag) : (s.onTag m f).datum = s.datum := (rfl)
@[simp] theorem Side.onTag_lg (m : Nat) (f : PmTag → PmTag) : (s.onTag m f).lg = s.lg := (rfl)
@[simp] theorem Side.onTag_ing (m : Nat) (f : PmTag → PmTag) : (s.onTag m f).ing = s.ing := (rfl)
@[simp] theorem Side.onTag_tr (m : Nat) (f : PmTag → PmTag) : (s.onTag m f).tr = s.tr := (rfl)
@[simp] theorem Side.onTag_gt (m : Nat) (f : PmTag → PmTag) : (s.onTag m f).gt = s.gt := (rfl)
@[simp] theorem Side.onTag_pl (m : Nat) (f : PmTag → PmTag) : (s.onTag m f).pl = s.pl := (rfl)
@[simp] theorem Side.onTag_pt (m : Nat) (f : PmTag → PmTag) : (s.onTag m f).pt = s.pt := (rfl)
@[simp] theorem Side.onTag_tv (m : Nat) (f : PmTag → PmTag) : (s.onTag m f).tv = s.tv := (rfl)
@[simp] theorem Side.onTag_br (m : Nat) (f : PmTag → PmTag) : (s.onTag m f).br = s.br := (rfl)
@[simp] theorem Side.onTag_mangers (m : Nat) (f : PmTag → PmTag) : (s.onTag m f).mangers = s.mangers := (rfl)
@[simp] theorem Side.onTag_outriders (m : Nat) (f : PmTag → PmTag) : (s.onTag m f).outriders = s.outriders := (rfl)
@[simp] theorem Side.onTag_scrubLine (m : Nat) (f : PmTag → PmTag) : (s.onTag m f).scrubLine = s.scrubLine := (rfl)
@[simp] theorem Side.onTag_xout (m : Nat) (f : PmTag → PmTag) : (s.onTag m f).xout = s.xout := (rfl)
@[simp] theorem Side.onTag_egress (m : Nat) (f : PmTag → PmTag) : (s.onTag m f).egress = s.egress := (rfl)
@[simp] theorem Side.onTag_events (m : Nat) (f : PmTag → PmTag) : (s.onTag m f).events = s.events := (rfl)
@[simp] theorem Side.onTag_unver (m : Nat) (f : PmTag → PmTag) : (s.onTag m f).unver = s.unver := (rfl)
@[simp] theorem Side.onTag_sw (m : Nat) (f : PmTag → PmTag) : (s.onTag m f).sw = s.sw := (rfl)
@[simp] theorem Side.onTag_kp (m : Nat) (f : PmTag → PmTag) : (s.onTag m f).kp = s.kp := (rfl)
@[simp] theorem Side.onTag_power (m : Nat) (f : PmTag → PmTag) : (s.onTag m f).power = s.power := (rfl)
@[simp] theorem Side.onTag_host (m : Nat) (f : PmTag → PmTag) : (s.onTag m f).host = s.host := (rfl)
@[simp] theorem Side.onTag_acts (m : Nat) (f : PmTag → PmTag) : (s.onTag m f).acts = s.acts := (rfl)
@[simp] theorem Side.onTag_fresh (m : Nat) (f : PmTag → PmTag) : (s.onTag m f).fresh = s.fresh := (rfl)

@[simp] theorem Side.setGroom_id (g : Nat) (r : Groom) : (s.setGroom g r).id = s.id := (rfl)
@[simp] theorem Side.setGroom_part (g : Nat) (r : Groom) : (s.setGroom g r).part = s.part := (rfl)
@[simp] theorem Side.setGroom_phase (g : Nat) (r : Groom) : (s.setGroom g r).phase = s.phase := (rfl)
@[simp] theorem Side.setGroom_regs (g : Nat) (r : Groom) : (s.setGroom g r).regs = s.regs := (rfl)
@[simp] theorem Side.setGroom_mem (g : Nat) (r : Groom) : (s.setGroom g r).mem = s.mem := (rfl)
@[simp] theorem Side.setGroom_guards (g : Nat) (r : Groom) : (s.setGroom g r).guards = s.guards := (rfl)
@[simp] theorem Side.setGroom_returns (g : Nat) (r : Groom) : (s.setGroom g r).returns = s.returns := (rfl)
@[simp] theorem Side.setGroom_ops (g : Nat) (r : Groom) : (s.setGroom g r).ops = s.ops := (rfl)
@[simp] theorem Side.setGroom_rr (g : Nat) (r : Groom) : (s.setGroom g r).rr = s.rr := (rfl)
@[simp] theorem Side.setGroom_datum (g : Nat) (r : Groom) : (s.setGroom g r).datum = s.datum := (rfl)
@[simp] theorem Side.setGroom_lg (g : Nat) (r : Groom) : (s.setGroom g r).lg = s.lg := (rfl)
@[simp] theorem Side.setGroom_ing (g : Nat) (r : Groom) : (s.setGroom g r).ing = s.ing := (rfl)
@[simp] theorem Side.setGroom_tr (g : Nat) (r : Groom) : (s.setGroom g r).tr = s.tr := (rfl)
@[simp] theorem Side.setGroom_gt (g : Nat) (r : Groom) : (s.setGroom g r).gt = s.gt := (rfl)
@[simp] theorem Side.setGroom_pl (g : Nat) (r : Groom) : (s.setGroom g r).pl = s.pl := (rfl)
@[simp] theorem Side.setGroom_pt (g : Nat) (r : Groom) : (s.setGroom g r).pt = s.pt := (rfl)
@[simp] theorem Side.setGroom_tv (g : Nat) (r : Groom) : (s.setGroom g r).tv = s.tv := (rfl)
@[simp] theorem Side.setGroom_br (g : Nat) (r : Groom) : (s.setGroom g r).br = s.br := (rfl)
@[simp] theorem Side.setGroom_mangers (g : Nat) (r : Groom) : (s.setGroom g r).mangers = s.mangers := (rfl)
@[simp] theorem Side.setGroom_outriders (g : Nat) (r : Groom) : (s.setGroom g r).outriders = s.outriders := (rfl)
@[simp] theorem Side.setGroom_scrubLine (g : Nat) (r : Groom) : (s.setGroom g r).scrubLine = s.scrubLine := (rfl)
@[simp] theorem Side.setGroom_xout (g : Nat) (r : Groom) : (s.setGroom g r).xout = s.xout := (rfl)
@[simp] theorem Side.setGroom_egress (g : Nat) (r : Groom) : (s.setGroom g r).egress = s.egress := (rfl)
@[simp] theorem Side.setGroom_events (g : Nat) (r : Groom) : (s.setGroom g r).events = s.events := (rfl)
@[simp] theorem Side.setGroom_unver (g : Nat) (r : Groom) : (s.setGroom g r).unver = s.unver := (rfl)
@[simp] theorem Side.setGroom_sw (g : Nat) (r : Groom) : (s.setGroom g r).sw = s.sw := (rfl)
@[simp] theorem Side.setGroom_kp (g : Nat) (r : Groom) : (s.setGroom g r).kp = s.kp := (rfl)
@[simp] theorem Side.setGroom_pm (g : Nat) (r : Groom) : (s.setGroom g r).pm = s.pm := (rfl)
@[simp] theorem Side.setGroom_power (g : Nat) (r : Groom) : (s.setGroom g r).power = s.power := (rfl)
@[simp] theorem Side.setGroom_host (g : Nat) (r : Groom) : (s.setGroom g r).host = s.host := (rfl)
@[simp] theorem Side.setGroom_acts (g : Nat) (r : Groom) : (s.setGroom g r).acts = s.acts := (rfl)
@[simp] theorem Side.setGroom_fresh (g : Nat) (r : Groom) : (s.setGroom g r).fresh = s.fresh := (rfl)

@[simp] theorem Side.onGroom_id (g : Nat) (f : Groom → Groom) : (s.onGroom g f).id = s.id := (rfl)
@[simp] theorem Side.onGroom_part (g : Nat) (f : Groom → Groom) : (s.onGroom g f).part = s.part := (rfl)
@[simp] theorem Side.onGroom_phase (g : Nat) (f : Groom → Groom) : (s.onGroom g f).phase = s.phase := (rfl)
@[simp] theorem Side.onGroom_regs (g : Nat) (f : Groom → Groom) : (s.onGroom g f).regs = s.regs := (rfl)
@[simp] theorem Side.onGroom_mem (g : Nat) (f : Groom → Groom) : (s.onGroom g f).mem = s.mem := (rfl)
@[simp] theorem Side.onGroom_guards (g : Nat) (f : Groom → Groom) : (s.onGroom g f).guards = s.guards := (rfl)
@[simp] theorem Side.onGroom_returns (g : Nat) (f : Groom → Groom) : (s.onGroom g f).returns = s.returns := (rfl)
@[simp] theorem Side.onGroom_ops (g : Nat) (f : Groom → Groom) : (s.onGroom g f).ops = s.ops := (rfl)
@[simp] theorem Side.onGroom_rr (g : Nat) (f : Groom → Groom) : (s.onGroom g f).rr = s.rr := (rfl)
@[simp] theorem Side.onGroom_datum (g : Nat) (f : Groom → Groom) : (s.onGroom g f).datum = s.datum := (rfl)
@[simp] theorem Side.onGroom_lg (g : Nat) (f : Groom → Groom) : (s.onGroom g f).lg = s.lg := (rfl)
@[simp] theorem Side.onGroom_ing (g : Nat) (f : Groom → Groom) : (s.onGroom g f).ing = s.ing := (rfl)
@[simp] theorem Side.onGroom_tr (g : Nat) (f : Groom → Groom) : (s.onGroom g f).tr = s.tr := (rfl)
@[simp] theorem Side.onGroom_gt (g : Nat) (f : Groom → Groom) : (s.onGroom g f).gt = s.gt := (rfl)
@[simp] theorem Side.onGroom_pl (g : Nat) (f : Groom → Groom) : (s.onGroom g f).pl = s.pl := (rfl)
@[simp] theorem Side.onGroom_pt (g : Nat) (f : Groom → Groom) : (s.onGroom g f).pt = s.pt := (rfl)
@[simp] theorem Side.onGroom_tv (g : Nat) (f : Groom → Groom) : (s.onGroom g f).tv = s.tv := (rfl)
@[simp] theorem Side.onGroom_br (g : Nat) (f : Groom → Groom) : (s.onGroom g f).br = s.br := (rfl)
@[simp] theorem Side.onGroom_mangers (g : Nat) (f : Groom → Groom) : (s.onGroom g f).mangers = s.mangers := (rfl)
@[simp] theorem Side.onGroom_outriders (g : Nat) (f : Groom → Groom) : (s.onGroom g f).outriders = s.outriders := (rfl)
@[simp] theorem Side.onGroom_scrubLine (g : Nat) (f : Groom → Groom) : (s.onGroom g f).scrubLine = s.scrubLine := (rfl)
@[simp] theorem Side.onGroom_xout (g : Nat) (f : Groom → Groom) : (s.onGroom g f).xout = s.xout := (rfl)
@[simp] theorem Side.onGroom_egress (g : Nat) (f : Groom → Groom) : (s.onGroom g f).egress = s.egress := (rfl)
@[simp] theorem Side.onGroom_events (g : Nat) (f : Groom → Groom) : (s.onGroom g f).events = s.events := (rfl)
@[simp] theorem Side.onGroom_unver (g : Nat) (f : Groom → Groom) : (s.onGroom g f).unver = s.unver := (rfl)
@[simp] theorem Side.onGroom_sw (g : Nat) (f : Groom → Groom) : (s.onGroom g f).sw = s.sw := (rfl)
@[simp] theorem Side.onGroom_kp (g : Nat) (f : Groom → Groom) : (s.onGroom g f).kp = s.kp := (rfl)
@[simp] theorem Side.onGroom_pm (g : Nat) (f : Groom → Groom) : (s.onGroom g f).pm = s.pm := (rfl)
@[simp] theorem Side.onGroom_power (g : Nat) (f : Groom → Groom) : (s.onGroom g f).power = s.power := (rfl)
@[simp] theorem Side.onGroom_host (g : Nat) (f : Groom → Groom) : (s.onGroom g f).host = s.host := (rfl)
@[simp] theorem Side.onGroom_acts (g : Nat) (f : Groom → Groom) : (s.onGroom g f).acts = s.acts := (rfl)
@[simp] theorem Side.onGroom_fresh (g : Nat) (f : Groom → Groom) : (s.onGroom g f).fresh = s.fresh := (rfl)

@[simp] theorem Side.advance_id (g : Nat) : (s.advance g).id = s.id := (rfl)
@[simp] theorem Side.advance_part (g : Nat) : (s.advance g).part = s.part := (rfl)
@[simp] theorem Side.advance_phase (g : Nat) : (s.advance g).phase = s.phase := (rfl)
@[simp] theorem Side.advance_regs (g : Nat) : (s.advance g).regs = s.regs := (rfl)
@[simp] theorem Side.advance_mem (g : Nat) : (s.advance g).mem = s.mem := (rfl)
@[simp] theorem Side.advance_guards (g : Nat) : (s.advance g).guards = s.guards := (rfl)
@[simp] theorem Side.advance_returns (g : Nat) : (s.advance g).returns = s.returns := (rfl)
@[simp] theorem Side.advance_ops (g : Nat) : (s.advance g).ops = s.ops := (rfl)
@[simp] theorem Side.advance_rr (g : Nat) : (s.advance g).rr = s.rr := (rfl)
@[simp] theorem Side.advance_datum (g : Nat) : (s.advance g).datum = s.datum := (rfl)
@[simp] theorem Side.advance_lg (g : Nat) : (s.advance g).lg = s.lg := (rfl)
@[simp] theorem Side.advance_ing (g : Nat) : (s.advance g).ing = s.ing := (rfl)
@[simp] theorem Side.advance_tr (g : Nat) : (s.advance g).tr = s.tr := (rfl)
@[simp] theorem Side.advance_gt (g : Nat) : (s.advance g).gt = s.gt := (rfl)
@[simp] theorem Side.advance_pl (g : Nat) : (s.advance g).pl = s.pl := (rfl)
@[simp] theorem Side.advance_pt (g : Nat) : (s.advance g).pt = s.pt := (rfl)
@[simp] theorem Side.advance_tv (g : Nat) : (s.advance g).tv = s.tv := (rfl)
@[simp] theorem Side.advance_br (g : Nat) : (s.advance g).br = s.br := (rfl)
@[simp] theorem Side.advance_mangers (g : Nat) : (s.advance g).mangers = s.mangers := (rfl)
@[simp] theorem Side.advance_outriders (g : Nat) : (s.advance g).outriders = s.outriders := (rfl)
@[simp] theorem Side.advance_scrubLine (g : Nat) : (s.advance g).scrubLine = s.scrubLine := (rfl)
@[simp] theorem Side.advance_xout (g : Nat) : (s.advance g).xout = s.xout := (rfl)
@[simp] theorem Side.advance_egress (g : Nat) : (s.advance g).egress = s.egress := (rfl)
@[simp] theorem Side.advance_events (g : Nat) : (s.advance g).events = s.events := (rfl)
@[simp] theorem Side.advance_unver (g : Nat) : (s.advance g).unver = s.unver := (rfl)
@[simp] theorem Side.advance_sw (g : Nat) : (s.advance g).sw = s.sw := (rfl)
@[simp] theorem Side.advance_kp (g : Nat) : (s.advance g).kp = s.kp := (rfl)
@[simp] theorem Side.advance_pm (g : Nat) : (s.advance g).pm = s.pm := (rfl)
@[simp] theorem Side.advance_power (g : Nat) : (s.advance g).power = s.power := (rfl)
@[simp] theorem Side.advance_host (g : Nat) : (s.advance g).host = s.host := (rfl)
@[simp] theorem Side.advance_acts (g : Nat) : (s.advance g).acts = s.acts := (rfl)
@[simp] theorem Side.advance_fresh (g : Nat) : (s.advance g).fresh = s.fresh := (rfl)

@[simp] theorem Side.retire_id (g rd : Nat) (v : Word) : (s.retire g rd v).id = s.id := (rfl)
@[simp] theorem Side.retire_part (g rd : Nat) (v : Word) : (s.retire g rd v).part = s.part := (rfl)
@[simp] theorem Side.retire_phase (g rd : Nat) (v : Word) : (s.retire g rd v).phase = s.phase := (rfl)
@[simp] theorem Side.retire_regs (g rd : Nat) (v : Word) : (s.retire g rd v).regs = s.regs := (rfl)
@[simp] theorem Side.retire_mem (g rd : Nat) (v : Word) : (s.retire g rd v).mem = s.mem := (rfl)
@[simp] theorem Side.retire_guards (g rd : Nat) (v : Word) : (s.retire g rd v).guards = s.guards := (rfl)
@[simp] theorem Side.retire_returns (g rd : Nat) (v : Word) : (s.retire g rd v).returns = s.returns := (rfl)
@[simp] theorem Side.retire_ops (g rd : Nat) (v : Word) : (s.retire g rd v).ops = s.ops := (rfl)
@[simp] theorem Side.retire_rr (g rd : Nat) (v : Word) : (s.retire g rd v).rr = s.rr := (rfl)
@[simp] theorem Side.retire_datum (g rd : Nat) (v : Word) : (s.retire g rd v).datum = s.datum := (rfl)
@[simp] theorem Side.retire_lg (g rd : Nat) (v : Word) : (s.retire g rd v).lg = s.lg := (rfl)
@[simp] theorem Side.retire_ing (g rd : Nat) (v : Word) : (s.retire g rd v).ing = s.ing := (rfl)
@[simp] theorem Side.retire_tr (g rd : Nat) (v : Word) : (s.retire g rd v).tr = s.tr := (rfl)
@[simp] theorem Side.retire_gt (g rd : Nat) (v : Word) : (s.retire g rd v).gt = s.gt := (rfl)
@[simp] theorem Side.retire_pl (g rd : Nat) (v : Word) : (s.retire g rd v).pl = s.pl := (rfl)
@[simp] theorem Side.retire_pt (g rd : Nat) (v : Word) : (s.retire g rd v).pt = s.pt := (rfl)
@[simp] theorem Side.retire_tv (g rd : Nat) (v : Word) : (s.retire g rd v).tv = s.tv := (rfl)
@[simp] theorem Side.retire_br (g rd : Nat) (v : Word) : (s.retire g rd v).br = s.br := (rfl)
@[simp] theorem Side.retire_mangers (g rd : Nat) (v : Word) : (s.retire g rd v).mangers = s.mangers := (rfl)
@[simp] theorem Side.retire_outriders (g rd : Nat) (v : Word) : (s.retire g rd v).outriders = s.outriders := (rfl)
@[simp] theorem Side.retire_scrubLine (g rd : Nat) (v : Word) : (s.retire g rd v).scrubLine = s.scrubLine := (rfl)
@[simp] theorem Side.retire_xout (g rd : Nat) (v : Word) : (s.retire g rd v).xout = s.xout := (rfl)
@[simp] theorem Side.retire_egress (g rd : Nat) (v : Word) : (s.retire g rd v).egress = s.egress := (rfl)
@[simp] theorem Side.retire_events (g rd : Nat) (v : Word) : (s.retire g rd v).events = s.events := (rfl)
@[simp] theorem Side.retire_unver (g rd : Nat) (v : Word) : (s.retire g rd v).unver = s.unver := (rfl)
@[simp] theorem Side.retire_sw (g rd : Nat) (v : Word) : (s.retire g rd v).sw = s.sw := (rfl)
@[simp] theorem Side.retire_kp (g rd : Nat) (v : Word) : (s.retire g rd v).kp = s.kp := (rfl)
@[simp] theorem Side.retire_pm (g rd : Nat) (v : Word) : (s.retire g rd v).pm = s.pm := (rfl)
@[simp] theorem Side.retire_power (g rd : Nat) (v : Word) : (s.retire g rd v).power = s.power := (rfl)
@[simp] theorem Side.retire_host (g rd : Nat) (v : Word) : (s.retire g rd v).host = s.host := (rfl)
@[simp] theorem Side.retire_acts (g rd : Nat) (v : Word) : (s.retire g rd v).acts = s.acts := (rfl)
@[simp] theorem Side.retire_fresh (g rd : Nat) (v : Word) : (s.retire g rd v).fresh = s.fresh := (rfl)

@[simp] theorem Side.scatter_id (w : Nat) (ws : List (Nat × Byte × Bool)) : ((s.scatter w ws).1).id = s.id := (rfl)
@[simp] theorem Side.scatter_part (w : Nat) (ws : List (Nat × Byte × Bool)) : ((s.scatter w ws).1).part = s.part := (rfl)
@[simp] theorem Side.scatter_phase (w : Nat) (ws : List (Nat × Byte × Bool)) : ((s.scatter w ws).1).phase = s.phase := (rfl)
@[simp] theorem Side.scatter_regs (w : Nat) (ws : List (Nat × Byte × Bool)) : ((s.scatter w ws).1).regs = s.regs := (rfl)
@[simp] theorem Side.scatter_guards (w : Nat) (ws : List (Nat × Byte × Bool)) : ((s.scatter w ws).1).guards = s.guards := (rfl)
@[simp] theorem Side.scatter_grooms (w : Nat) (ws : List (Nat × Byte × Bool)) : ((s.scatter w ws).1).grooms = s.grooms := (rfl)
@[simp] theorem Side.scatter_returns (w : Nat) (ws : List (Nat × Byte × Bool)) : ((s.scatter w ws).1).returns = s.returns := (rfl)
@[simp] theorem Side.scatter_ops (w : Nat) (ws : List (Nat × Byte × Bool)) : ((s.scatter w ws).1).ops = s.ops := (rfl)
@[simp] theorem Side.scatter_rr (w : Nat) (ws : List (Nat × Byte × Bool)) : ((s.scatter w ws).1).rr = s.rr := (rfl)
@[simp] theorem Side.scatter_datum (w : Nat) (ws : List (Nat × Byte × Bool)) : ((s.scatter w ws).1).datum = s.datum := (rfl)
@[simp] theorem Side.scatter_lg (w : Nat) (ws : List (Nat × Byte × Bool)) : ((s.scatter w ws).1).lg = s.lg := (rfl)
@[simp] theorem Side.scatter_ing (w : Nat) (ws : List (Nat × Byte × Bool)) : ((s.scatter w ws).1).ing = s.ing := (rfl)
@[simp] theorem Side.scatter_tr (w : Nat) (ws : List (Nat × Byte × Bool)) : ((s.scatter w ws).1).tr = s.tr := (rfl)
@[simp] theorem Side.scatter_gt (w : Nat) (ws : List (Nat × Byte × Bool)) : ((s.scatter w ws).1).gt = s.gt := (rfl)
@[simp] theorem Side.scatter_pl (w : Nat) (ws : List (Nat × Byte × Bool)) : ((s.scatter w ws).1).pl = s.pl := (rfl)
@[simp] theorem Side.scatter_pt (w : Nat) (ws : List (Nat × Byte × Bool)) : ((s.scatter w ws).1).pt = s.pt := (rfl)
@[simp] theorem Side.scatter_tv (w : Nat) (ws : List (Nat × Byte × Bool)) : ((s.scatter w ws).1).tv = s.tv := (rfl)
@[simp] theorem Side.scatter_br (w : Nat) (ws : List (Nat × Byte × Bool)) : ((s.scatter w ws).1).br = s.br := (rfl)
@[simp] theorem Side.scatter_mangers (w : Nat) (ws : List (Nat × Byte × Bool)) : ((s.scatter w ws).1).mangers = s.mangers := (rfl)
@[simp] theorem Side.scatter_outriders (w : Nat) (ws : List (Nat × Byte × Bool)) : ((s.scatter w ws).1).outriders = s.outriders := (rfl)
@[simp] theorem Side.scatter_scrubLine (w : Nat) (ws : List (Nat × Byte × Bool)) : ((s.scatter w ws).1).scrubLine = s.scrubLine := (rfl)
@[simp] theorem Side.scatter_xout (w : Nat) (ws : List (Nat × Byte × Bool)) : ((s.scatter w ws).1).xout = s.xout := (rfl)
@[simp] theorem Side.scatter_egress (w : Nat) (ws : List (Nat × Byte × Bool)) : ((s.scatter w ws).1).egress = s.egress := (rfl)
@[simp] theorem Side.scatter_events (w : Nat) (ws : List (Nat × Byte × Bool)) : ((s.scatter w ws).1).events = s.events := (rfl)
@[simp] theorem Side.scatter_unver (w : Nat) (ws : List (Nat × Byte × Bool)) : ((s.scatter w ws).1).unver = s.unver := (rfl)
@[simp] theorem Side.scatter_sw (w : Nat) (ws : List (Nat × Byte × Bool)) : ((s.scatter w ws).1).sw = s.sw := (rfl)
@[simp] theorem Side.scatter_kp (w : Nat) (ws : List (Nat × Byte × Bool)) : ((s.scatter w ws).1).kp = s.kp := (rfl)
@[simp] theorem Side.scatter_pm (w : Nat) (ws : List (Nat × Byte × Bool)) : ((s.scatter w ws).1).pm = s.pm := (rfl)
@[simp] theorem Side.scatter_power (w : Nat) (ws : List (Nat × Byte × Bool)) : ((s.scatter w ws).1).power = s.power := (rfl)
@[simp] theorem Side.scatter_host (w : Nat) (ws : List (Nat × Byte × Bool)) : ((s.scatter w ws).1).host = s.host := (rfl)
@[simp] theorem Side.scatter_acts (w : Nat) (ws : List (Nat × Byte × Bool)) : ((s.scatter w ws).1).acts = s.acts := (rfl)
@[simp] theorem Side.scatter_fresh (w : Nat) (ws : List (Nat × Byte × Bool)) : ((s.scatter w ws).1).fresh = s.fresh := (rfl)

@[simp] theorem Side.store_id (a : Nat) (bs : List Byte) : (s.store a bs).id = s.id := (rfl)
@[simp] theorem Side.store_part (a : Nat) (bs : List Byte) : (s.store a bs).part = s.part := (rfl)
@[simp] theorem Side.store_phase (a : Nat) (bs : List Byte) : (s.store a bs).phase = s.phase := (rfl)
@[simp] theorem Side.store_regs (a : Nat) (bs : List Byte) : (s.store a bs).regs = s.regs := (rfl)
@[simp] theorem Side.store_guards (a : Nat) (bs : List Byte) : (s.store a bs).guards = s.guards := (rfl)
@[simp] theorem Side.store_grooms (a : Nat) (bs : List Byte) : (s.store a bs).grooms = s.grooms := (rfl)
@[simp] theorem Side.store_returns (a : Nat) (bs : List Byte) : (s.store a bs).returns = s.returns := (rfl)
@[simp] theorem Side.store_ops (a : Nat) (bs : List Byte) : (s.store a bs).ops = s.ops := (rfl)
@[simp] theorem Side.store_rr (a : Nat) (bs : List Byte) : (s.store a bs).rr = s.rr := (rfl)
@[simp] theorem Side.store_datum (a : Nat) (bs : List Byte) : (s.store a bs).datum = s.datum := (rfl)
@[simp] theorem Side.store_lg (a : Nat) (bs : List Byte) : (s.store a bs).lg = s.lg := (rfl)
@[simp] theorem Side.store_ing (a : Nat) (bs : List Byte) : (s.store a bs).ing = s.ing := (rfl)
@[simp] theorem Side.store_tr (a : Nat) (bs : List Byte) : (s.store a bs).tr = s.tr := (rfl)
@[simp] theorem Side.store_gt (a : Nat) (bs : List Byte) : (s.store a bs).gt = s.gt := (rfl)
@[simp] theorem Side.store_pl (a : Nat) (bs : List Byte) : (s.store a bs).pl = s.pl := (rfl)
@[simp] theorem Side.store_pt (a : Nat) (bs : List Byte) : (s.store a bs).pt = s.pt := (rfl)
@[simp] theorem Side.store_tv (a : Nat) (bs : List Byte) : (s.store a bs).tv = s.tv := (rfl)
@[simp] theorem Side.store_br (a : Nat) (bs : List Byte) : (s.store a bs).br = s.br := (rfl)
@[simp] theorem Side.store_mangers (a : Nat) (bs : List Byte) : (s.store a bs).mangers = s.mangers := (rfl)
@[simp] theorem Side.store_outriders (a : Nat) (bs : List Byte) : (s.store a bs).outriders = s.outriders := (rfl)
@[simp] theorem Side.store_scrubLine (a : Nat) (bs : List Byte) : (s.store a bs).scrubLine = s.scrubLine := (rfl)
@[simp] theorem Side.store_xout (a : Nat) (bs : List Byte) : (s.store a bs).xout = s.xout := (rfl)
@[simp] theorem Side.store_egress (a : Nat) (bs : List Byte) : (s.store a bs).egress = s.egress := (rfl)
@[simp] theorem Side.store_events (a : Nat) (bs : List Byte) : (s.store a bs).events = s.events := (rfl)
@[simp] theorem Side.store_unver (a : Nat) (bs : List Byte) : (s.store a bs).unver = s.unver := (rfl)
@[simp] theorem Side.store_sw (a : Nat) (bs : List Byte) : (s.store a bs).sw = s.sw := (rfl)
@[simp] theorem Side.store_kp (a : Nat) (bs : List Byte) : (s.store a bs).kp = s.kp := (rfl)
@[simp] theorem Side.store_pm (a : Nat) (bs : List Byte) : (s.store a bs).pm = s.pm := (rfl)
@[simp] theorem Side.store_power (a : Nat) (bs : List Byte) : (s.store a bs).power = s.power := (rfl)
@[simp] theorem Side.store_host (a : Nat) (bs : List Byte) : (s.store a bs).host = s.host := (rfl)
@[simp] theorem Side.store_acts (a : Nat) (bs : List Byte) : (s.store a bs).acts = s.acts := (rfl)
@[simp] theorem Side.store_fresh (a : Nat) (bs : List Byte) : (s.store a bs).fresh = s.fresh := (rfl)

@[simp] theorem Side.draw_id : ((s.draw).2).id = s.id := (rfl)
@[simp] theorem Side.draw_part : ((s.draw).2).part = s.part := (rfl)
@[simp] theorem Side.draw_phase : ((s.draw).2).phase = s.phase := (rfl)
@[simp] theorem Side.draw_regs : ((s.draw).2).regs = s.regs := (rfl)
@[simp] theorem Side.draw_mem : ((s.draw).2).mem = s.mem := (rfl)
@[simp] theorem Side.draw_guards : ((s.draw).2).guards = s.guards := (rfl)
@[simp] theorem Side.draw_grooms : ((s.draw).2).grooms = s.grooms := (rfl)
@[simp] theorem Side.draw_returns : ((s.draw).2).returns = s.returns := (rfl)
@[simp] theorem Side.draw_ops : ((s.draw).2).ops = s.ops := (rfl)
@[simp] theorem Side.draw_rr : ((s.draw).2).rr = s.rr := (rfl)
@[simp] theorem Side.draw_datum : ((s.draw).2).datum = s.datum := (rfl)
@[simp] theorem Side.draw_lg : ((s.draw).2).lg = s.lg := (rfl)
@[simp] theorem Side.draw_ing : ((s.draw).2).ing = s.ing := (rfl)
@[simp] theorem Side.draw_tr : ((s.draw).2).tr = s.tr := (rfl)
@[simp] theorem Side.draw_gt : ((s.draw).2).gt = s.gt := (rfl)
@[simp] theorem Side.draw_pl : ((s.draw).2).pl = s.pl := (rfl)
@[simp] theorem Side.draw_pt : ((s.draw).2).pt = s.pt := (rfl)
@[simp] theorem Side.draw_tv : ((s.draw).2).tv = s.tv := (rfl)
@[simp] theorem Side.draw_br : ((s.draw).2).br = s.br := (rfl)
@[simp] theorem Side.draw_mangers : ((s.draw).2).mangers = s.mangers := (rfl)
@[simp] theorem Side.draw_outriders : ((s.draw).2).outriders = s.outriders := (rfl)
@[simp] theorem Side.draw_scrubLine : ((s.draw).2).scrubLine = s.scrubLine := (rfl)
@[simp] theorem Side.draw_xout : ((s.draw).2).xout = s.xout := (rfl)
@[simp] theorem Side.draw_egress : ((s.draw).2).egress = s.egress := (rfl)
@[simp] theorem Side.draw_events : ((s.draw).2).events = s.events := (rfl)
@[simp] theorem Side.draw_unver : ((s.draw).2).unver = s.unver := (rfl)
@[simp] theorem Side.draw_sw : ((s.draw).2).sw = s.sw := (rfl)
@[simp] theorem Side.draw_kp : ((s.draw).2).kp = s.kp := (rfl)
@[simp] theorem Side.draw_pm : ((s.draw).2).pm = s.pm := (rfl)
@[simp] theorem Side.draw_power : ((s.draw).2).power = s.power := (rfl)
@[simp] theorem Side.draw_host : ((s.draw).2).host = s.host := (rfl)
@[simp] theorem Side.draw_acts : ((s.draw).2).acts = s.acts := (rfl)

@[simp] theorem Side.settle_id : (s.settle).id = s.id := (rfl)
@[simp] theorem Side.settle_part : (s.settle).part = s.part := (rfl)
@[simp] theorem Side.settle_phase : (s.settle).phase = s.phase := (rfl)
@[simp] theorem Side.settle_regs : (s.settle).regs = s.regs := (rfl)
@[simp] theorem Side.settle_mem : (s.settle).mem = s.mem := (rfl)
@[simp] theorem Side.settle_guards : (s.settle).guards = s.guards := (rfl)
@[simp] theorem Side.settle_returns : (s.settle).returns = s.returns := (rfl)
@[simp] theorem Side.settle_rr : (s.settle).rr = s.rr := (rfl)
@[simp] theorem Side.settle_datum : (s.settle).datum = s.datum := (rfl)
@[simp] theorem Side.settle_lg : (s.settle).lg = s.lg := (rfl)
@[simp] theorem Side.settle_ing : (s.settle).ing = s.ing := (rfl)
@[simp] theorem Side.settle_tr : (s.settle).tr = s.tr := (rfl)
@[simp] theorem Side.settle_gt : (s.settle).gt = s.gt := (rfl)
@[simp] theorem Side.settle_pl : (s.settle).pl = s.pl := (rfl)
@[simp] theorem Side.settle_pt : (s.settle).pt = s.pt := (rfl)
@[simp] theorem Side.settle_tv : (s.settle).tv = s.tv := (rfl)
@[simp] theorem Side.settle_br : (s.settle).br = s.br := (rfl)
@[simp] theorem Side.settle_mangers : (s.settle).mangers = s.mangers := (rfl)
@[simp] theorem Side.settle_outriders : (s.settle).outriders = s.outriders := (rfl)
@[simp] theorem Side.settle_scrubLine : (s.settle).scrubLine = s.scrubLine := (rfl)
@[simp] theorem Side.settle_xout : (s.settle).xout = s.xout := (rfl)
@[simp] theorem Side.settle_egress : (s.settle).egress = s.egress := (rfl)
@[simp] theorem Side.settle_events : (s.settle).events = s.events := (rfl)
@[simp] theorem Side.settle_unver : (s.settle).unver = s.unver := (rfl)
@[simp] theorem Side.settle_sw : (s.settle).sw = s.sw := (rfl)
@[simp] theorem Side.settle_kp : (s.settle).kp = s.kp := (rfl)
@[simp] theorem Side.settle_pm : (s.settle).pm = s.pm := (rfl)
@[simp] theorem Side.settle_power : (s.settle).power = s.power := (rfl)
@[simp] theorem Side.settle_host : (s.settle).host = s.host := (rfl)
@[simp] theorem Side.settle_acts : (s.settle).acts = s.acts := (rfl)
@[simp] theorem Side.settle_fresh : (s.settle).fresh = s.fresh := (rfl)

@[simp] theorem Side.leave_id (o : Op) : (s.leave o).id = s.id := (rfl)
@[simp] theorem Side.leave_part (o : Op) : (s.leave o).part = s.part := (rfl)
@[simp] theorem Side.leave_phase (o : Op) : (s.leave o).phase = s.phase := (rfl)
@[simp] theorem Side.leave_regs (o : Op) : (s.leave o).regs = s.regs := (rfl)
@[simp] theorem Side.leave_mem (o : Op) : (s.leave o).mem = s.mem := (rfl)
@[simp] theorem Side.leave_guards (o : Op) : (s.leave o).guards = s.guards := (rfl)
@[simp] theorem Side.leave_grooms (o : Op) : (s.leave o).grooms = s.grooms := (rfl)
@[simp] theorem Side.leave_returns (o : Op) : (s.leave o).returns = s.returns := (rfl)
@[simp] theorem Side.leave_rr (o : Op) : (s.leave o).rr = s.rr := (rfl)
@[simp] theorem Side.leave_datum (o : Op) : (s.leave o).datum = s.datum := (rfl)
@[simp] theorem Side.leave_lg (o : Op) : (s.leave o).lg = s.lg := (rfl)
@[simp] theorem Side.leave_ing (o : Op) : (s.leave o).ing = s.ing := (rfl)
@[simp] theorem Side.leave_tr (o : Op) : (s.leave o).tr = s.tr := (rfl)
@[simp] theorem Side.leave_gt (o : Op) : (s.leave o).gt = s.gt := (rfl)
@[simp] theorem Side.leave_pl (o : Op) : (s.leave o).pl = s.pl := (rfl)
@[simp] theorem Side.leave_pt (o : Op) : (s.leave o).pt = s.pt := (rfl)
@[simp] theorem Side.leave_tv (o : Op) : (s.leave o).tv = s.tv := (rfl)
@[simp] theorem Side.leave_br (o : Op) : (s.leave o).br = s.br := (rfl)
@[simp] theorem Side.leave_mangers (o : Op) : (s.leave o).mangers = s.mangers := (rfl)
@[simp] theorem Side.leave_scrubLine (o : Op) : (s.leave o).scrubLine = s.scrubLine := (rfl)
@[simp] theorem Side.leave_xout (o : Op) : (s.leave o).xout = s.xout := (rfl)
@[simp] theorem Side.leave_egress (o : Op) : (s.leave o).egress = s.egress := (rfl)
@[simp] theorem Side.leave_events (o : Op) : (s.leave o).events = s.events := (rfl)
@[simp] theorem Side.leave_unver (o : Op) : (s.leave o).unver = s.unver := (rfl)
@[simp] theorem Side.leave_sw (o : Op) : (s.leave o).sw = s.sw := (rfl)
@[simp] theorem Side.leave_kp (o : Op) : (s.leave o).kp = s.kp := (rfl)
@[simp] theorem Side.leave_pm (o : Op) : (s.leave o).pm = s.pm := (rfl)
@[simp] theorem Side.leave_power (o : Op) : (s.leave o).power = s.power := (rfl)
@[simp] theorem Side.leave_host (o : Op) : (s.leave o).host = s.host := (rfl)
@[simp] theorem Side.leave_acts (o : Op) : (s.leave o).acts = s.acts := (rfl)
@[simp] theorem Side.leave_fresh (o : Op) : (s.leave o).fresh = s.fresh := (rfl)

@[simp] theorem Side.dt_id (f : Datum → Datum) : (s.dt f).id = s.id := (rfl)
@[simp] theorem Side.dt_part (f : Datum → Datum) : (s.dt f).part = s.part := (rfl)
@[simp] theorem Side.dt_phase (f : Datum → Datum) : (s.dt f).phase = s.phase := (rfl)
@[simp] theorem Side.dt_regs (f : Datum → Datum) : (s.dt f).regs = s.regs := (rfl)
@[simp] theorem Side.dt_mem (f : Datum → Datum) : (s.dt f).mem = s.mem := (rfl)
@[simp] theorem Side.dt_guards (f : Datum → Datum) : (s.dt f).guards = s.guards := (rfl)
@[simp] theorem Side.dt_grooms (f : Datum → Datum) : (s.dt f).grooms = s.grooms := (rfl)
@[simp] theorem Side.dt_returns (f : Datum → Datum) : (s.dt f).returns = s.returns := (rfl)
@[simp] theorem Side.dt_ops (f : Datum → Datum) : (s.dt f).ops = s.ops := (rfl)
@[simp] theorem Side.dt_rr (f : Datum → Datum) : (s.dt f).rr = s.rr := (rfl)
@[simp] theorem Side.dt_lg (f : Datum → Datum) : (s.dt f).lg = s.lg := (rfl)
@[simp] theorem Side.dt_ing (f : Datum → Datum) : (s.dt f).ing = s.ing := (rfl)
@[simp] theorem Side.dt_tr (f : Datum → Datum) : (s.dt f).tr = s.tr := (rfl)
@[simp] theorem Side.dt_gt (f : Datum → Datum) : (s.dt f).gt = s.gt := (rfl)
@[simp] theorem Side.dt_pl (f : Datum → Datum) : (s.dt f).pl = s.pl := (rfl)
@[simp] theorem Side.dt_pt (f : Datum → Datum) : (s.dt f).pt = s.pt := (rfl)
@[simp] theorem Side.dt_tv (f : Datum → Datum) : (s.dt f).tv = s.tv := (rfl)
@[simp] theorem Side.dt_br (f : Datum → Datum) : (s.dt f).br = s.br := (rfl)
@[simp] theorem Side.dt_mangers (f : Datum → Datum) : (s.dt f).mangers = s.mangers := (rfl)
@[simp] theorem Side.dt_outriders (f : Datum → Datum) : (s.dt f).outriders = s.outriders := (rfl)
@[simp] theorem Side.dt_scrubLine (f : Datum → Datum) : (s.dt f).scrubLine = s.scrubLine := (rfl)
@[simp] theorem Side.dt_xout (f : Datum → Datum) : (s.dt f).xout = s.xout := (rfl)
@[simp] theorem Side.dt_egress (f : Datum → Datum) : (s.dt f).egress = s.egress := (rfl)
@[simp] theorem Side.dt_events (f : Datum → Datum) : (s.dt f).events = s.events := (rfl)
@[simp] theorem Side.dt_unver (f : Datum → Datum) : (s.dt f).unver = s.unver := (rfl)
@[simp] theorem Side.dt_sw (f : Datum → Datum) : (s.dt f).sw = s.sw := (rfl)
@[simp] theorem Side.dt_kp (f : Datum → Datum) : (s.dt f).kp = s.kp := (rfl)
@[simp] theorem Side.dt_pm (f : Datum → Datum) : (s.dt f).pm = s.pm := (rfl)
@[simp] theorem Side.dt_power (f : Datum → Datum) : (s.dt f).power = s.power := (rfl)
@[simp] theorem Side.dt_host (f : Datum → Datum) : (s.dt f).host = s.host := (rfl)
@[simp] theorem Side.dt_acts (f : Datum → Datum) : (s.dt f).acts = s.acts := (rfl)
@[simp] theorem Side.dt_fresh (f : Datum → Datum) : (s.dt f).fresh = s.fresh := (rfl)

@[simp] theorem Side.lgSet_id (f : Launch → Launch) : (s.lgSet f).id = s.id := (rfl)
@[simp] theorem Side.lgSet_part (f : Launch → Launch) : (s.lgSet f).part = s.part := (rfl)
@[simp] theorem Side.lgSet_phase (f : Launch → Launch) : (s.lgSet f).phase = s.phase := (rfl)
@[simp] theorem Side.lgSet_regs (f : Launch → Launch) : (s.lgSet f).regs = s.regs := (rfl)
@[simp] theorem Side.lgSet_mem (f : Launch → Launch) : (s.lgSet f).mem = s.mem := (rfl)
@[simp] theorem Side.lgSet_guards (f : Launch → Launch) : (s.lgSet f).guards = s.guards := (rfl)
@[simp] theorem Side.lgSet_grooms (f : Launch → Launch) : (s.lgSet f).grooms = s.grooms := (rfl)
@[simp] theorem Side.lgSet_returns (f : Launch → Launch) : (s.lgSet f).returns = s.returns := (rfl)
@[simp] theorem Side.lgSet_ops (f : Launch → Launch) : (s.lgSet f).ops = s.ops := (rfl)
@[simp] theorem Side.lgSet_rr (f : Launch → Launch) : (s.lgSet f).rr = s.rr := (rfl)
@[simp] theorem Side.lgSet_datum (f : Launch → Launch) : (s.lgSet f).datum = s.datum := (rfl)
@[simp] theorem Side.lgSet_ing (f : Launch → Launch) : (s.lgSet f).ing = s.ing := (rfl)
@[simp] theorem Side.lgSet_tr (f : Launch → Launch) : (s.lgSet f).tr = s.tr := (rfl)
@[simp] theorem Side.lgSet_gt (f : Launch → Launch) : (s.lgSet f).gt = s.gt := (rfl)
@[simp] theorem Side.lgSet_pl (f : Launch → Launch) : (s.lgSet f).pl = s.pl := (rfl)
@[simp] theorem Side.lgSet_pt (f : Launch → Launch) : (s.lgSet f).pt = s.pt := (rfl)
@[simp] theorem Side.lgSet_tv (f : Launch → Launch) : (s.lgSet f).tv = s.tv := (rfl)
@[simp] theorem Side.lgSet_br (f : Launch → Launch) : (s.lgSet f).br = s.br := (rfl)
@[simp] theorem Side.lgSet_mangers (f : Launch → Launch) : (s.lgSet f).mangers = s.mangers := (rfl)
@[simp] theorem Side.lgSet_outriders (f : Launch → Launch) : (s.lgSet f).outriders = s.outriders := (rfl)
@[simp] theorem Side.lgSet_scrubLine (f : Launch → Launch) : (s.lgSet f).scrubLine = s.scrubLine := (rfl)
@[simp] theorem Side.lgSet_xout (f : Launch → Launch) : (s.lgSet f).xout = s.xout := (rfl)
@[simp] theorem Side.lgSet_egress (f : Launch → Launch) : (s.lgSet f).egress = s.egress := (rfl)
@[simp] theorem Side.lgSet_events (f : Launch → Launch) : (s.lgSet f).events = s.events := (rfl)
@[simp] theorem Side.lgSet_unver (f : Launch → Launch) : (s.lgSet f).unver = s.unver := (rfl)
@[simp] theorem Side.lgSet_sw (f : Launch → Launch) : (s.lgSet f).sw = s.sw := (rfl)
@[simp] theorem Side.lgSet_kp (f : Launch → Launch) : (s.lgSet f).kp = s.kp := (rfl)
@[simp] theorem Side.lgSet_pm (f : Launch → Launch) : (s.lgSet f).pm = s.pm := (rfl)
@[simp] theorem Side.lgSet_power (f : Launch → Launch) : (s.lgSet f).power = s.power := (rfl)
@[simp] theorem Side.lgSet_host (f : Launch → Launch) : (s.lgSet f).host = s.host := (rfl)
@[simp] theorem Side.lgSet_acts (f : Launch → Launch) : (s.lgSet f).acts = s.acts := (rfl)
@[simp] theorem Side.lgSet_fresh (f : Launch → Launch) : (s.lgSet f).fresh = s.fresh := (rfl)

@[simp] theorem Side.swSet_id (f : Steward → Steward) : (s.swSet f).id = s.id := (rfl)
@[simp] theorem Side.swSet_part (f : Steward → Steward) : (s.swSet f).part = s.part := (rfl)
@[simp] theorem Side.swSet_phase (f : Steward → Steward) : (s.swSet f).phase = s.phase := (rfl)
@[simp] theorem Side.swSet_regs (f : Steward → Steward) : (s.swSet f).regs = s.regs := (rfl)
@[simp] theorem Side.swSet_mem (f : Steward → Steward) : (s.swSet f).mem = s.mem := (rfl)
@[simp] theorem Side.swSet_guards (f : Steward → Steward) : (s.swSet f).guards = s.guards := (rfl)
@[simp] theorem Side.swSet_grooms (f : Steward → Steward) : (s.swSet f).grooms = s.grooms := (rfl)
@[simp] theorem Side.swSet_returns (f : Steward → Steward) : (s.swSet f).returns = s.returns := (rfl)
@[simp] theorem Side.swSet_ops (f : Steward → Steward) : (s.swSet f).ops = s.ops := (rfl)
@[simp] theorem Side.swSet_rr (f : Steward → Steward) : (s.swSet f).rr = s.rr := (rfl)
@[simp] theorem Side.swSet_datum (f : Steward → Steward) : (s.swSet f).datum = s.datum := (rfl)
@[simp] theorem Side.swSet_lg (f : Steward → Steward) : (s.swSet f).lg = s.lg := (rfl)
@[simp] theorem Side.swSet_ing (f : Steward → Steward) : (s.swSet f).ing = s.ing := (rfl)
@[simp] theorem Side.swSet_tr (f : Steward → Steward) : (s.swSet f).tr = s.tr := (rfl)
@[simp] theorem Side.swSet_gt (f : Steward → Steward) : (s.swSet f).gt = s.gt := (rfl)
@[simp] theorem Side.swSet_pl (f : Steward → Steward) : (s.swSet f).pl = s.pl := (rfl)
@[simp] theorem Side.swSet_pt (f : Steward → Steward) : (s.swSet f).pt = s.pt := (rfl)
@[simp] theorem Side.swSet_tv (f : Steward → Steward) : (s.swSet f).tv = s.tv := (rfl)
@[simp] theorem Side.swSet_br (f : Steward → Steward) : (s.swSet f).br = s.br := (rfl)
@[simp] theorem Side.swSet_mangers (f : Steward → Steward) : (s.swSet f).mangers = s.mangers := (rfl)
@[simp] theorem Side.swSet_outriders (f : Steward → Steward) : (s.swSet f).outriders = s.outriders := (rfl)
@[simp] theorem Side.swSet_scrubLine (f : Steward → Steward) : (s.swSet f).scrubLine = s.scrubLine := (rfl)
@[simp] theorem Side.swSet_xout (f : Steward → Steward) : (s.swSet f).xout = s.xout := (rfl)
@[simp] theorem Side.swSet_egress (f : Steward → Steward) : (s.swSet f).egress = s.egress := (rfl)
@[simp] theorem Side.swSet_events (f : Steward → Steward) : (s.swSet f).events = s.events := (rfl)
@[simp] theorem Side.swSet_unver (f : Steward → Steward) : (s.swSet f).unver = s.unver := (rfl)
@[simp] theorem Side.swSet_kp (f : Steward → Steward) : (s.swSet f).kp = s.kp := (rfl)
@[simp] theorem Side.swSet_pm (f : Steward → Steward) : (s.swSet f).pm = s.pm := (rfl)
@[simp] theorem Side.swSet_power (f : Steward → Steward) : (s.swSet f).power = s.power := (rfl)
@[simp] theorem Side.swSet_host (f : Steward → Steward) : (s.swSet f).host = s.host := (rfl)
@[simp] theorem Side.swSet_acts (f : Steward → Steward) : (s.swSet f).acts = s.acts := (rfl)
@[simp] theorem Side.swSet_fresh (f : Steward → Steward) : (s.swSet f).fresh = s.fresh := (rfl)

@[simp] theorem Side.pwSet_id (f : Power → Power) : (s.pwSet f).id = s.id := (rfl)
@[simp] theorem Side.pwSet_part (f : Power → Power) : (s.pwSet f).part = s.part := (rfl)
@[simp] theorem Side.pwSet_phase (f : Power → Power) : (s.pwSet f).phase = s.phase := (rfl)
@[simp] theorem Side.pwSet_regs (f : Power → Power) : (s.pwSet f).regs = s.regs := (rfl)
@[simp] theorem Side.pwSet_mem (f : Power → Power) : (s.pwSet f).mem = s.mem := (rfl)
@[simp] theorem Side.pwSet_guards (f : Power → Power) : (s.pwSet f).guards = s.guards := (rfl)
@[simp] theorem Side.pwSet_grooms (f : Power → Power) : (s.pwSet f).grooms = s.grooms := (rfl)
@[simp] theorem Side.pwSet_returns (f : Power → Power) : (s.pwSet f).returns = s.returns := (rfl)
@[simp] theorem Side.pwSet_ops (f : Power → Power) : (s.pwSet f).ops = s.ops := (rfl)
@[simp] theorem Side.pwSet_rr (f : Power → Power) : (s.pwSet f).rr = s.rr := (rfl)
@[simp] theorem Side.pwSet_datum (f : Power → Power) : (s.pwSet f).datum = s.datum := (rfl)
@[simp] theorem Side.pwSet_lg (f : Power → Power) : (s.pwSet f).lg = s.lg := (rfl)
@[simp] theorem Side.pwSet_ing (f : Power → Power) : (s.pwSet f).ing = s.ing := (rfl)
@[simp] theorem Side.pwSet_tr (f : Power → Power) : (s.pwSet f).tr = s.tr := (rfl)
@[simp] theorem Side.pwSet_gt (f : Power → Power) : (s.pwSet f).gt = s.gt := (rfl)
@[simp] theorem Side.pwSet_pl (f : Power → Power) : (s.pwSet f).pl = s.pl := (rfl)
@[simp] theorem Side.pwSet_pt (f : Power → Power) : (s.pwSet f).pt = s.pt := (rfl)
@[simp] theorem Side.pwSet_tv (f : Power → Power) : (s.pwSet f).tv = s.tv := (rfl)
@[simp] theorem Side.pwSet_br (f : Power → Power) : (s.pwSet f).br = s.br := (rfl)
@[simp] theorem Side.pwSet_mangers (f : Power → Power) : (s.pwSet f).mangers = s.mangers := (rfl)
@[simp] theorem Side.pwSet_outriders (f : Power → Power) : (s.pwSet f).outriders = s.outriders := (rfl)
@[simp] theorem Side.pwSet_scrubLine (f : Power → Power) : (s.pwSet f).scrubLine = s.scrubLine := (rfl)
@[simp] theorem Side.pwSet_xout (f : Power → Power) : (s.pwSet f).xout = s.xout := (rfl)
@[simp] theorem Side.pwSet_egress (f : Power → Power) : (s.pwSet f).egress = s.egress := (rfl)
@[simp] theorem Side.pwSet_events (f : Power → Power) : (s.pwSet f).events = s.events := (rfl)
@[simp] theorem Side.pwSet_unver (f : Power → Power) : (s.pwSet f).unver = s.unver := (rfl)
@[simp] theorem Side.pwSet_sw (f : Power → Power) : (s.pwSet f).sw = s.sw := (rfl)
@[simp] theorem Side.pwSet_kp (f : Power → Power) : (s.pwSet f).kp = s.kp := (rfl)
@[simp] theorem Side.pwSet_pm (f : Power → Power) : (s.pwSet f).pm = s.pm := (rfl)
@[simp] theorem Side.pwSet_host (f : Power → Power) : (s.pwSet f).host = s.host := (rfl)
@[simp] theorem Side.pwSet_acts (f : Power → Power) : (s.pwSet f).acts = s.acts := (rfl)
@[simp] theorem Side.pwSet_fresh (f : Power → Power) : (s.pwSet f).fresh = s.fresh := (rfl)

@[simp] theorem Side.addGuard_id (g : Guard) : (s.addGuard g).id = s.id := (rfl)
@[simp] theorem Side.addGuard_part (g : Guard) : (s.addGuard g).part = s.part := (rfl)
@[simp] theorem Side.addGuard_phase (g : Guard) : (s.addGuard g).phase = s.phase := (rfl)
@[simp] theorem Side.addGuard_regs (g : Guard) : (s.addGuard g).regs = s.regs := (rfl)
@[simp] theorem Side.addGuard_mem (g : Guard) : (s.addGuard g).mem = s.mem := (rfl)
@[simp] theorem Side.addGuard_grooms (g : Guard) : (s.addGuard g).grooms = s.grooms := (rfl)
@[simp] theorem Side.addGuard_returns (g : Guard) : (s.addGuard g).returns = s.returns := (rfl)
@[simp] theorem Side.addGuard_ops (g : Guard) : (s.addGuard g).ops = s.ops := (rfl)
@[simp] theorem Side.addGuard_rr (g : Guard) : (s.addGuard g).rr = s.rr := (rfl)
@[simp] theorem Side.addGuard_datum (g : Guard) : (s.addGuard g).datum = s.datum := (rfl)
@[simp] theorem Side.addGuard_lg (g : Guard) : (s.addGuard g).lg = s.lg := (rfl)
@[simp] theorem Side.addGuard_ing (g : Guard) : (s.addGuard g).ing = s.ing := (rfl)
@[simp] theorem Side.addGuard_tr (g : Guard) : (s.addGuard g).tr = s.tr := (rfl)
@[simp] theorem Side.addGuard_gt (g : Guard) : (s.addGuard g).gt = s.gt := (rfl)
@[simp] theorem Side.addGuard_pl (g : Guard) : (s.addGuard g).pl = s.pl := (rfl)
@[simp] theorem Side.addGuard_pt (g : Guard) : (s.addGuard g).pt = s.pt := (rfl)
@[simp] theorem Side.addGuard_tv (g : Guard) : (s.addGuard g).tv = s.tv := (rfl)
@[simp] theorem Side.addGuard_br (g : Guard) : (s.addGuard g).br = s.br := (rfl)
@[simp] theorem Side.addGuard_mangers (g : Guard) : (s.addGuard g).mangers = s.mangers := (rfl)
@[simp] theorem Side.addGuard_outriders (g : Guard) : (s.addGuard g).outriders = s.outriders := (rfl)
@[simp] theorem Side.addGuard_scrubLine (g : Guard) : (s.addGuard g).scrubLine = s.scrubLine := (rfl)
@[simp] theorem Side.addGuard_xout (g : Guard) : (s.addGuard g).xout = s.xout := (rfl)
@[simp] theorem Side.addGuard_egress (g : Guard) : (s.addGuard g).egress = s.egress := (rfl)
@[simp] theorem Side.addGuard_events (g : Guard) : (s.addGuard g).events = s.events := (rfl)
@[simp] theorem Side.addGuard_unver (g : Guard) : (s.addGuard g).unver = s.unver := (rfl)
@[simp] theorem Side.addGuard_sw (g : Guard) : (s.addGuard g).sw = s.sw := (rfl)
@[simp] theorem Side.addGuard_kp (g : Guard) : (s.addGuard g).kp = s.kp := (rfl)
@[simp] theorem Side.addGuard_pm (g : Guard) : (s.addGuard g).pm = s.pm := (rfl)
@[simp] theorem Side.addGuard_power (g : Guard) : (s.addGuard g).power = s.power := (rfl)
@[simp] theorem Side.addGuard_host (g : Guard) : (s.addGuard g).host = s.host := (rfl)
@[simp] theorem Side.addGuard_acts (g : Guard) : (s.addGuard g).acts = s.acts := (rfl)
@[simp] theorem Side.addGuard_fresh (g : Guard) : (s.addGuard g).fresh = s.fresh := (rfl)

@[simp] theorem Side.dropGuard_id (k : Nat) : (s.dropGuard k).id = s.id := (rfl)
@[simp] theorem Side.dropGuard_part (k : Nat) : (s.dropGuard k).part = s.part := (rfl)
@[simp] theorem Side.dropGuard_phase (k : Nat) : (s.dropGuard k).phase = s.phase := (rfl)
@[simp] theorem Side.dropGuard_regs (k : Nat) : (s.dropGuard k).regs = s.regs := (rfl)
@[simp] theorem Side.dropGuard_mem (k : Nat) : (s.dropGuard k).mem = s.mem := (rfl)
@[simp] theorem Side.dropGuard_grooms (k : Nat) : (s.dropGuard k).grooms = s.grooms := (rfl)
@[simp] theorem Side.dropGuard_returns (k : Nat) : (s.dropGuard k).returns = s.returns := (rfl)
@[simp] theorem Side.dropGuard_ops (k : Nat) : (s.dropGuard k).ops = s.ops := (rfl)
@[simp] theorem Side.dropGuard_rr (k : Nat) : (s.dropGuard k).rr = s.rr := (rfl)
@[simp] theorem Side.dropGuard_datum (k : Nat) : (s.dropGuard k).datum = s.datum := (rfl)
@[simp] theorem Side.dropGuard_lg (k : Nat) : (s.dropGuard k).lg = s.lg := (rfl)
@[simp] theorem Side.dropGuard_ing (k : Nat) : (s.dropGuard k).ing = s.ing := (rfl)
@[simp] theorem Side.dropGuard_tr (k : Nat) : (s.dropGuard k).tr = s.tr := (rfl)
@[simp] theorem Side.dropGuard_gt (k : Nat) : (s.dropGuard k).gt = s.gt := (rfl)
@[simp] theorem Side.dropGuard_pl (k : Nat) : (s.dropGuard k).pl = s.pl := (rfl)
@[simp] theorem Side.dropGuard_pt (k : Nat) : (s.dropGuard k).pt = s.pt := (rfl)
@[simp] theorem Side.dropGuard_tv (k : Nat) : (s.dropGuard k).tv = s.tv := (rfl)
@[simp] theorem Side.dropGuard_br (k : Nat) : (s.dropGuard k).br = s.br := (rfl)
@[simp] theorem Side.dropGuard_mangers (k : Nat) : (s.dropGuard k).mangers = s.mangers := (rfl)
@[simp] theorem Side.dropGuard_outriders (k : Nat) : (s.dropGuard k).outriders = s.outriders := (rfl)
@[simp] theorem Side.dropGuard_scrubLine (k : Nat) : (s.dropGuard k).scrubLine = s.scrubLine := (rfl)
@[simp] theorem Side.dropGuard_xout (k : Nat) : (s.dropGuard k).xout = s.xout := (rfl)
@[simp] theorem Side.dropGuard_egress (k : Nat) : (s.dropGuard k).egress = s.egress := (rfl)
@[simp] theorem Side.dropGuard_events (k : Nat) : (s.dropGuard k).events = s.events := (rfl)
@[simp] theorem Side.dropGuard_unver (k : Nat) : (s.dropGuard k).unver = s.unver := (rfl)
@[simp] theorem Side.dropGuard_sw (k : Nat) : (s.dropGuard k).sw = s.sw := (rfl)
@[simp] theorem Side.dropGuard_kp (k : Nat) : (s.dropGuard k).kp = s.kp := (rfl)
@[simp] theorem Side.dropGuard_pm (k : Nat) : (s.dropGuard k).pm = s.pm := (rfl)
@[simp] theorem Side.dropGuard_power (k : Nat) : (s.dropGuard k).power = s.power := (rfl)
@[simp] theorem Side.dropGuard_host (k : Nat) : (s.dropGuard k).host = s.host := (rfl)
@[simp] theorem Side.dropGuard_acts (k : Nat) : (s.dropGuard k).acts = s.acts := (rfl)
@[simp] theorem Side.dropGuard_fresh (k : Nat) : (s.dropGuard k).fresh = s.fresh := (rfl)

/-! ### The module -/

@[simp] theorem State.side_setSide (s : State) (sd : SideId) (x : Side) : (s.setSide sd x).side sd = x := by
  cases sd <;> rfl

@[simp] theorem State.other_setSide (s : State) (sd : SideId) (x : Side) : (s.setSide sd x).side sd.other = s.side sd.other := by
  cases sd <;> rfl

@[simp] theorem State.side_setOther (s : State) (sd : SideId) (x : Side) : (s.setSide sd.other x).side sd = s.side sd := by
  cases sd <;> rfl

@[simp] theorem State.pending_setSide (s : State) (sd : SideId) (x : Side) : (s.setSide sd x).pending = s.pending := by
  cases sd <;> rfl

@[simp] theorem other_other (sd : SideId) : sd.other.other = sd := by cases sd <;> rfl

/-- A command on a live side changes that side by its effect. -/
theorem State.onLive_side (s : State) (sd : SideId) (f : Side → Side) (h : (s.side sd).live = true) :
    (s.onLive sd f).side sd = (s.side sd).after f := by simp [State.onLive, h]

/-- A command on one side leaves the other side as it was. -/
@[simp] theorem State.onLive_other (s : State) (sd : SideId) (f : Side → Side) : (s.onLive sd f).side sd.other = s.side sd.other := by
  unfold State.onLive; split <;> simp

@[simp] theorem State.onLive_pending (s : State) (sd : SideId) (f : Side → Side) : (s.onLive sd f).pending = s.pending := by
  unfold State.onLive; split <;> simp

@[simp] theorem State.onAny_side (s : State) (sd : SideId) (f : Side → Side) : (s.onAny sd f).side sd = (s.side sd).after f := by
  simp [State.onAny]

@[simp] theorem State.onAny_other (s : State) (sd : SideId) (f : Side → Side) : (s.onAny sd f).side sd.other = s.side sd.other := by
  simp [State.onAny]

@[simp] theorem Side.after_id (x : Side) (f : Side → Side) : (x.after f).id = x.id := rfl

@[simp] theorem Side.after_part (x : Side) (f : Side → Side) : (x.after f).part = x.part := rfl

end Sys2Proof.Machine
end

