-- ==== Sys2Proof/Laws/Word.lean ====
section
/-!
SUPPORT. Laws/Word.lean: a field read after it is replaced, and every other field as it was.
-/
namespace Sys2Proof

theorem bits_lt (v lo n : Nat) : bits v lo n < 2 ^ n := Nat.mod_lt _ (Nat.two_pow_pos n)

/-- A number split at a field. -/
theorem split_at (v lo n : Nat) : v = (v / 2 ^ (lo + n) * 2 ^ n + bits v lo n) * 2 ^ lo + v % 2 ^ lo := by
  have h1 : v / 2 ^ (lo + n) = v / 2 ^ lo / 2 ^ n := by rw [Nat.pow_add, Nat.div_div_eq_div_mul]
  have h2 : bits v lo n = v / 2 ^ lo % 2 ^ n := by rw [bits, Nat.shiftRight_eq_div_pow]
  rw [h1, h2, Nat.div_add_mod', Nat.div_add_mod']

theorem putBits_split (v lo n f : Nat) :
    putBits v lo n f = (v / 2 ^ (lo + n) * 2 ^ n + f % 2 ^ n) * 2 ^ lo + v % 2 ^ lo := by
  have h := split_at v lo n
  unfold putBits
  generalize v / 2 ^ (lo + n) * 2 ^ n = a at *
  generalize bits v lo n = b at *
  rw [Nat.add_mul] at h ⊢
  omega

theorem putBits_div (v lo n f : Nat) : putBits v lo n f / 2 ^ lo = v / 2 ^ (lo + n) * 2 ^ n + f % 2 ^ n := by
  rw [putBits_split, Nat.mul_comm, Nat.mul_add_div (Nat.two_pow_pos lo), Nat.div_eq_of_lt (Nat.mod_lt _ (Nat.two_pow_pos lo)), Nat.add_zero]

/-- A field read after it is replaced. -/
@[simp] theorem bits_putBits_same (v lo n f : Nat) : bits (putBits v lo n f) lo n = f % 2 ^ n := by
  rw [bits, Nat.shiftRight_eq_div_pow, putBits_div, Nat.mul_comm, Nat.mul_add_mod, Nat.mod_mod]

/-- A field above a replaced one. -/
theorem bits_putBits_above (v f : Nat) {lo n lo' n' : Nat} (h : lo + n ≤ lo') : bits (putBits v lo n f) lo' n' = bits v lo' n' := by
  obtain ⟨k, rfl⟩ : ∃ k, lo' = lo + (n + k) := ⟨lo' - (lo + n), by omega⟩
  rw [bits, bits, Nat.shiftRight_eq_div_pow, Nat.shiftRight_eq_div_pow]
  congr 1
  have h1 : (v / 2 ^ (lo + n) * 2 ^ n + f % 2 ^ n) / 2 ^ n = v / 2 ^ (lo + n) := by
    rw [Nat.mul_comm, Nat.mul_add_div (Nat.two_pow_pos n), Nat.div_eq_of_lt (Nat.mod_lt _ (Nat.two_pow_pos n)), Nat.add_zero]
  rw [show lo + (n + k) = lo + n + k by omega, Nat.pow_add 2 (lo + n) k, ← Nat.div_div_eq_div_mul, ← Nat.div_div_eq_div_mul,
    Nat.pow_add 2 lo n, ← Nat.div_div_eq_div_mul, putBits_div, h1, Nat.pow_add, ← Nat.div_div_eq_div_mul]

/-- A field below a replaced one. -/
theorem bits_putBits_below (v f : Nat) {lo n lo' n' : Nat} (h : lo' + n' ≤ lo) : bits (putBits v lo n f) lo' n' = bits v lo' n' := by
  have hm : ∀ w : Nat, bits w lo' n' = bits (w % 2 ^ lo) lo' n' := by
    intro w
    obtain ⟨k, rfl⟩ : ∃ k, lo = lo' + n' + k := ⟨lo - (lo' + n'), by omega⟩
    rw [bits, bits, Nat.shiftRight_eq_div_pow, Nat.shiftRight_eq_div_pow, Nat.add_assoc, Nat.pow_add 2 lo',
      Nat.mod_mul_right_div_self, Nat.pow_add 2 n', Nat.mod_mul_right_mod]
  rw [hm, hm v, putBits_split, Nat.add_mod, Nat.mul_mod_left, Nat.zero_add, Nat.mod_mod, Nat.mod_mod]

/-- A replaced field leaves a number within the bits it had. -/
theorem putBits_lt {v lo n f w : Nat} (hv : v < 2 ^ w) (h : lo + n ≤ w) : putBits v lo n f < 2 ^ w := by
  obtain ⟨k, rfl⟩ : ∃ k, w = lo + n + k := ⟨w - (lo + n), by omega⟩
  have h1 : v / 2 ^ (lo + n) < 2 ^ k := Nat.div_lt_of_lt_mul (by rwa [← Nat.pow_add])
  have h2 : f % 2 ^ n < 2 ^ n := Nat.mod_lt _ (Nat.two_pow_pos n)
  have h3 : v % 2 ^ lo < 2 ^ lo := Nat.mod_lt _ (Nat.two_pow_pos lo)
  rw [putBits_split]
  generalize v / 2 ^ (lo + n) = a at *
  generalize f % 2 ^ n = b at *
  generalize v % 2 ^ lo = c at *
  have h4 : a * 2 ^ n + b + 1 ≤ 2 ^ k * 2 ^ n := by
    have : (a + 1) * 2 ^ n ≤ 2 ^ k * 2 ^ n := Nat.mul_le_mul_right _ h1
    rw [Nat.add_mul] at this; omega
  have h5 : (a * 2 ^ n + b + 1) * 2 ^ lo ≤ 2 ^ k * 2 ^ n * 2 ^ lo := Nat.mul_le_mul_right _ h4
  rw [Nat.add_mul] at h5
  have h6 : 2 ^ (lo + n + k) = 2 ^ k * 2 ^ n * 2 ^ lo := by rw [Nat.pow_add, Nat.pow_add]; ac_rfl
  omega

theorem Word.toNat_put (w : Word) {lo n f : Nat} (h : lo + n ≤ 64) : (w.put lo n f).toNat = putBits w.toNat lo n f := by
  unfold Word.put
  rw [BitVec.toNat_ofNat, Nat.mod_eq_of_lt (putBits_lt w.isLt h)]

/-- A register field read after it is replaced. -/
theorem Word.fld_put_same (w : Word) {lo n : Nat} (f : Nat) (h : lo + n ≤ 64) : (w.put lo n f).fld lo n = f % 2 ^ n := by
  unfold Word.fld; rw [Word.toNat_put w h, bits_putBits_same]

/-- A register field that does not meet the replaced one. -/
theorem Word.fld_put_other (w : Word) {lo n lo' n' : Nat} (f : Nat) (h : lo + n ≤ 64) (hd : lo + n ≤ lo' ∨ lo' + n' ≤ lo) :
    (w.put lo n f).fld lo' n' = w.fld lo' n' := by
  unfold Word.fld; rw [Word.toNat_put w h]
  rcases hd with hd | hd
  · exact bits_putBits_above _ _ hd
  · exact bits_putBits_below _ _ hd

theorem bitAt_eq (v i : Nat) : bitAt v i = (bits v i 1 == 1) := by unfold bitAt bits; rfl

theorem Word.flag_eq (w : Word) (i : Nat) : w.flag i = (w.fld i 1 == 1) := by unfold Word.flag Word.fld; rw [bitAt_eq]

theorem Word.flag_put_same (w : Word) {i : Nat} (f : Nat) (h : i < 64) : (w.put i 1 f).flag i = (f % 2 == 1) := by
  rw [Word.flag_eq, Word.fld_put_same w f (by omega), Nat.pow_one]

theorem Word.flag_put_other (w : Word) {lo n i : Nat} (f : Nat) (h : lo + n ≤ 64) (hd : lo + n ≤ i ∨ i < lo) :
    (w.put lo n f).flag i = w.flag i := by
  rw [Word.flag_eq, Word.flag_eq, Word.fld_put_other w f h (by omega)]

end Sys2Proof
end

