-- ==== Sys2Proof/Laws/Memory.lean ====
section
/-!
SUPPORT. Laws/Memory.lean: memory and registers: what is read after a write, and that every operation keeps the canonical
form.
-/
namespace Sys2Proof.Machine

/-! ### Stores -/

@[simp] theorem Store.get_put_same (m : Store) (a : Nat) (b : Byte) : (m.put a b).get a = b := by
  simp [Store.get, Store.put]

theorem Store.get_put_other (m : Store) {a c : Nat} (b : Byte) (h : c ≠ a) : (m.put a b).get c = m.get c := by
  simp only [Store.get, Store.put]; exact alGet_alPut_other _ _ _ _ h

/-- The cells after byte writes, one after the other. -/
def cellsAfter (c : List (Nat × Byte)) (ws : List (Nat × Byte × Bool)) : List (Nat × Byte) :=
  ws.foldl (fun c w => alPut 0 c w.1 w.2.1) c

theorem get_cellsAfter_other (ws : List (Nat × Byte × Bool)) (c : List (Nat × Byte)) (a : Nat) (h : ∀ w ∈ ws, w.1 ≠ a) :
    alGet 0 (cellsAfter c ws) a = alGet 0 c a := by
  induction ws generalizing c with
  | nil => rfl
  | cons w r ih =>
    have := ih (alPut 0 c w.1 w.2.1) (fun x hx => h x (List.mem_cons_of_mem _ hx))
    simp only [cellsAfter, List.foldl_cons] at this ⊢
    rw [this]
    exact alGet_alPut_other _ _ _ _ (fun e => h w (List.mem_cons_self ..) e.symm)

theorem wf_cellsAfter (ws : List (Nat × Byte × Bool)) (c : List (Nat × Byte)) (h : alWf (fun _ => (0 : Byte)) c = true) :
    alWf (fun _ => (0 : Byte)) (cellsAfter c ws) = true := by
  induction ws generalizing c with
  | nil => exact h
  | cons w r ih => exact ih _ (alWf_alPut (fun _ => (0 : Byte)) c w.1 w.2.1 h)

/-- A set of byte writes leaves every byte that it does not name. -/
theorem Store.get_scatter_other (m : Store) (ws : List (Nat × Byte × Bool)) (a : Nat) (h : ∀ w ∈ ws, w.1 ≠ a) :
    (m.scatter ws).get a = m.get a := get_cellsAfter_other ws m.cells a h

/-- Byte writes keep the canonical form. -/
theorem Store.wf_scatter (m : Store) (ws : List (Nat × Byte × Bool)) (h : m.wf = true) : (m.scatter ws).wf = true :=
  wf_cellsAfter ws m.cells h

/-- One byte stored keeps the canonical form. -/
theorem Store.wf_put (m : Store) (a : Nat) (b : Byte) (h : m.wf = true) : (m.put a b).wf = true :=
  alWf_alPut (fun _ => (0 : Byte)) m.cells a b h

/-- Marking lines poisoned keeps the canonical form. -/
theorem Store.wf_poisonLines (m : Store) (a n : Nat) (h : m.wf = true) : (m.poisonLines a n).wf = true := by
  unfold Store.poisonLines; split <;> exact h

/-- Every byte of `bs` stored from `a`. -/
theorem goodAt_range (a : Nat) (bs : List Byte) : ∀ w ∈ goodAt a bs, a ≤ w.1 ∧ w.1 < a + bs.length := by
  induction bs generalizing a with
  | nil => intro w hw; cases hw
  | cons b r ih =>
    intro w hw
    rcases List.mem_cons.mp hw with rfl | hw
    · simp
    · have := ih (a + 1) w hw; simp only [List.length_cons]; omega

@[simp] theorem toBytes_length (n v : Nat) : (toBytes n v).length = n := by
  induction n generalizing v with
  | zero => rfl
  | succ n ih => simp [toBytes, ih]

/-- What each byte reads after consecutive bytes are stored. -/
theorem get_cellsAfter_goodAt (c : List (Nat × Byte)) (a m : Nat) (bs : List Byte) :
    alGet 0 (cellsAfter c (goodAt a bs)) m = if a ≤ m ∧ m < a + bs.length then bs.getD (m - a) 0 else alGet 0 c m := by
  induction bs generalizing c a with
  | nil => rw [if_neg (by simp only [List.length_nil]; omega)]; rfl
  | cons b r ih =>
    have h := ih (alPut 0 c a b) (a + 1)
    simp only [goodAt, cellsAfter, List.foldl_cons] at h ⊢
    rw [h]
    by_cases h1 : a + 1 ≤ m ∧ m < a + 1 + r.length
    · rw [if_pos h1, if_pos (by simp only [List.length_cons]; omega)]
      obtain ⟨k, hk⟩ : ∃ k, m - a = k + 1 := ⟨m - a - 1, by omega⟩
      rw [hk, List.getD_cons_succ]; congr 1; omega
    · rw [if_neg h1]
      by_cases h2 : m = a
      · subst h2; rw [if_pos (by simp), alGet_alPut_same]; simp
      · rw [if_neg (by simp only [List.length_cons]; omega), alGet_alPut_other _ _ _ _ h2]

/-- Bytes depend on the places and values of writes, not on their poison. -/
theorem cellsAfter_map (f : Nat × Byte × Bool → Bool) (c : List (Nat × Byte)) (ws : List (Nat × Byte × Bool)) :
    cellsAfter c (ws.map (fun w => (w.1, w.2.1, f w))) = cellsAfter c ws := by
  induction ws generalizing c with
  | nil => rfl
  | cons w r ih =>
    show cellsAfter (alPut 0 c w.1 w.2.1) (r.map (fun w => (w.1, w.2.1, f w))) = cellsAfter (alPut 0 c w.1 w.2.1) r
    exact ih _

/-- A link that is down changes no byte that is written, only its poison (R33). -/
theorem Side.cellsAfter_carried (s : Side) (c : List (Nat × Byte)) (ws : List (Nat × Byte × Bool)) :
    cellsAfter c (s.carried ws) = cellsAfter c ws := by
  unfold Side.carried; dsimp only; split
  · exact cellsAfter_map (fun _ => true) c ws
  · split
    · rfl
    · exact cellsAfter_map (fun w => w.2.2 || s.cutDies.contains (s.placeDie w.1)) c ws

/-- Writes keep their places on their way. -/
theorem Side.mem_carried {s : Side} {ws : List (Nat × Byte × Bool)} {w : Nat × Byte × Bool} (h : w ∈ s.carried ws) :
    ∃ v ∈ ws, v.1 = w.1 := by
  unfold Side.carried at h; dsimp only at h; split at h
  · obtain ⟨v, hv, rfl⟩ := List.mem_map.mp h; exact ⟨v, hv, rfl⟩
  · split at h
    · exact ⟨w, h, rfl⟩
    · obtain ⟨v, hv, rfl⟩ := List.mem_map.mp h; exact ⟨v, hv, rfl⟩

/-- What each byte of device memory reads after a store. -/
theorem Side.get_store (s : Side) (a m : Nat) (bs : List Byte) :
    (s.store a bs).mem.get m = if a ≤ m ∧ m < a + bs.length then bs.getD (m - a) 0 else s.mem.get m := by
  have h := get_cellsAfter_goodAt s.mem.cells a m bs
  rw [← s.cellsAfter_carried] at h
  exact h

/-- The memory of a side keeps its form through every write of a unit. -/
theorem Side.wf_scatter (s : Side) (owner : Nat) (ws : List (Nat × Byte × Bool)) (h : s.mem.wf = true) :
    (s.scatter owner ws).1.mem.wf = true := Store.wf_scatter _ _ h

theorem Side.wf_store (s : Side) (a : Nat) (bs : List Byte) (h : s.mem.wf = true) :
    (s.store a bs).mem.wf = true := Store.wf_scatter _ _ h

theorem Side.wf_ringEntry (s : Side) (owner a : Nat) (bs : List Byte) (h : s.mem.wf = true) :
    (s.ringEntry owner a bs).mem.wf = true := by
  unfold Side.ringEntry; dsimp only; split
  · exact Side.wf_store _ _ _ h
  · exact h

@[simp] theorem Side.markBad_cells (s : Side) (a : Nat) : (s.markBad a).mem.cells = s.mem.cells := by
  simp only [Side.markBad, Side.wr_mem]

/-- Marking a line bad keeps the form. -/
theorem Side.wf_markBad (s : Side) (a : Nat) (h : s.mem.wf = true) : (s.markBad a).mem.wf = true := by
  unfold Store.wf at h ⊢; rw [Side.markBad_cells]; exact h

/-- Where no extent is protected, a unit's writes meet none. -/
theorem Side.scatter_unguarded (s : Side) (owner : Nat) (ws : List (Nat × Byte × Bool)) (h : s.guards = []) : (s.scatter owner ws).2 = false := by
  simp [Side.scatter, Side.writeGuarded, h]

/-- A unit's writes leave every byte outside them. -/
theorem Side.scatter_other (s : Side) (owner : Nat) (ws : List (Nat × Byte × Bool)) (a : Nat) (h : ∀ w ∈ ws, w.1 ≠ a) :
    (s.scatter owner ws).1.mem.get a = s.mem.get a :=
  Store.get_scatter_other _ _ _ (fun w hw => by
    obtain ⟨v, hv, e⟩ := Side.mem_carried hw
    exact e ▸ h v (List.mem_filter.mp hv).1)

/-- Stored bytes leave every byte outside them. -/
theorem Side.store_other (s : Side) (a : Nat) (bs : List Byte) (b : Nat) (h : b < a ∨ a + bs.length ≤ b) :
    (s.store a bs).mem.get b = s.mem.get b :=
  Store.get_scatter_other _ _ _ (fun w hw => by
    obtain ⟨v, hv, e⟩ := Side.mem_carried hw
    have := goodAt_range a bs v hv; omega)

/-- A ring entry leaves every byte outside its slot. -/
theorem Side.ringEntry_other (s : Side) (owner a : Nat) (bs : List Byte) (b : Nat)
    (h : b < a % 2 ^ 46 ∨ a % 2 ^ 46 + bs.length ≤ b) : (s.ringEntry owner a bs).mem.get b = s.mem.get b := by
  unfold Side.ringEntry; dsimp only; split
  · exact Side.store_other _ _ _ _ h
  · rfl

/-! ### Registers -/

theorem rd_eq (s : Side) (k : Nat) : s.rd k = alGet (regDefault s.part s.id k) s.regs k := by
  unfold Side.rd
  generalize regDefault s.part s.id k = d
  induction s.regs with
  | nil => rfl
  | cons e r ih =>
    obtain ⟨a, v⟩ := e
    simp only [List.find?_cons, alGet]
    by_cases h : a = k
    · simp [h]
    · have h' : ¬ k = a := fun e => h e.symm
      have : (a == k) = false := by simp [h]
      simp only [this, h', if_false]; exact ih

/-- A register read after its write. -/
@[simp] theorem Side.rd_wr_same (s : Side) (k : Nat) (v : Word) : (s.wr k v).rd k = v := by
  rw [rd_eq]; exact alGet_alPut_same _ _ _ _

/-- A write leaves every other register. -/
theorem Side.rd_wr_other (s : Side) {k j : Nat} (v : Word) (h : j ≠ k) : (s.wr k v).rd j = s.rd j := by
  rw [rd_eq, rd_eq]; exact alGet_alPut_other _ _ _ _ h

theorem Side.rd_put_other (s : Side) {k j : Nat} (lo n v : Nat) (h : j ≠ k) : (s.put k lo n v).rd j = s.rd j :=
  Side.rd_wr_other s _ h

theorem Side.rd_count_other (s : Side) {k j : Nat} (lo n d : Nat) (h : j ≠ k) : (s.count k lo n d).rd j = s.rd j :=
  Side.rd_wr_other s _ h

theorem Side.rd_signal_other (s : Side) (t n : Nat) {j : Nat} (h : j ≠ Reg.TE_VALUE t) : (s.signal t n).rd j = s.rd j :=
  Side.rd_wr_other s _ h

theorem Side.fld_put_same (s : Side) (k : Nat) {lo n : Nat} (v : Nat) (h : lo + n ≤ 64) : (s.put k lo n v).fld k lo n = v % 2 ^ n := by
  unfold Side.fld Side.put; rw [Side.rd_wr_same, Word.fld_put_same _ _ h]

theorem Side.fld_put_field (s : Side) (k : Nat) {lo n lo' n' : Nat} (v : Nat) (h : lo + n ≤ 64) (hd : lo + n ≤ lo' ∨ lo' + n' ≤ lo) :
    (s.put k lo n v).fld k lo' n' = s.fld k lo' n' := by
  unfold Side.fld Side.put; rw [Side.rd_wr_same, Word.fld_put_other _ _ h hd]

theorem Side.fld_put_reg (s : Side) {k j : Nat} (lo n v lo' n' : Nat) (h : j ≠ k) : (s.put k lo n v).fld j lo' n' = s.fld j lo' n' := by
  unfold Side.fld; rw [Side.rd_put_other s lo n v h]

theorem Side.flag_put_same (s : Side) (k : Nat) {i : Nat} (v : Nat) (h : i < 64) : (s.put k i 1 v).flag k i = (v % 2 == 1) := by
  unfold Side.flag Side.put; rw [Side.rd_wr_same, Word.flag_put_same _ _ h]

theorem Side.flag_put_field (s : Side) (k : Nat) {lo n i : Nat} (v : Nat) (h : lo + n ≤ 64) (hd : lo + n ≤ i ∨ i < lo) :
    (s.put k lo n v).flag k i = s.flag k i := by
  unfold Side.flag Side.put; rw [Side.rd_wr_same, Word.flag_put_other _ _ h hd]

theorem Side.flag_put_reg (s : Side) {k j : Nat} (lo n v i : Nat) (h : j ≠ k) : (s.put k lo n v).flag j i = s.flag j i := by
  unfold Side.flag; rw [Side.rd_put_other s lo n v h]

/-- A saturating counter raised. -/
theorem Side.fld_count_same (s : Side) (k : Nat) {lo n : Nat} (d : Nat) (h : lo + n ≤ 64) :
    (s.count k lo n d).fld k lo n = min (2 ^ n - 1) (s.fld k lo n + d) := by
  unfold Side.count
  rw [Side.fld_put_same _ _ _ h, Nat.mod_eq_of_lt]
  have := Nat.two_pow_pos n; omega

/-- A signal adds its amount modulo 2^64. -/
@[simp] theorem Side.rd_signal_same (s : Side) (t n : Nat) :
    (s.signal t n).rd (Reg.TE_VALUE t) = s.rd (Reg.TE_VALUE t) + BitVec.ofNat 64 n := Side.rd_wr_same ..

/-- A register write keeps the canonical form of the register file. -/
theorem Side.regsWf_wr (s : Side) (k : Nat) (v : Word) (h : s.regsWf = true) : (s.wr k v).regsWf = true :=
  alWf_alPut (regDefault s.part s.id) s.regs k v h

/-- Memory right after reset has the canonical form. -/
theorem reset_mem_wf (id : Nat) (p : Part) : (Side.reset id p).mem.wf = true := rfl

/-- The register file right after reset has the canonical form. -/
theorem reset_regs_wf (id : Nat) (p : Part) : (Side.reset id p).regsWf = true := rfl

/-! ### A Groom's registers -/

@[simp] theorem Groom.rx_zero (r : Groom) : r.rx 0 = 0 := rfl

theorem Groom.rx_wx_other (r : Groom) {i j : Nat} (v : Word) (h : j ≠ i) : (r.wx i v).rx j = r.rx j := by
  unfold Groom.wx; split
  · rfl
  · by_cases hj : j = 0
    · simp [Groom.rx, hj]
    · simp only [Groom.rx, hj, if_false, setAt]
      rw [List.getD_eq_getElem?_getD, List.getD_eq_getElem?_getD, List.getElem?_set_ne (fun e => h e.symm)]

theorem Groom.rx_wx_same (r : Groom) {i : Nat} (v : Word) (h : i ≠ 0) (hl : i < r.x.length) : (r.wx i v).rx i = v := by
  simp [Groom.wx, Groom.rx, h, setAt, List.getD_eq_getElem?_getD, hl]

@[simp] theorem Groom.wx_zero (r : Groom) (v : Word) : r.wx 0 v = r := rfl

@[simp] theorem Groom.wx_pc (r : Groom) (i : Nat) (v : Word) : (r.wx i v).pc = r.pc := by unfold Groom.wx; split <;> rfl
@[simp] theorem Groom.wx_v (r : Groom) (i : Nat) (v : Word) : (r.wx i v).v = r.v := by unfold Groom.wx; split <;> rfl
@[simp] theorem Groom.wx_p (r : Groom) (i : Nat) (v : Word) : (r.wx i v).p = r.p := by unfold Groom.wx; split <;> rfl
@[simp] theorem Groom.wx_ctl (r : Groom) (i : Nat) (v : Word) : (r.wx i v).ctl = r.ctl := by unfold Groom.wx; split <;> rfl
@[simp] theorem Groom.wx_lmem (r : Groom) (i : Nat) (v : Word) : (r.wx i v).lmem = r.lmem := by unfold Groom.wx; split <;> rfl
@[simp] theorem Groom.wx_wait (r : Groom) (i : Nat) (v : Word) : (r.wx i v).wait = r.wait := by unfold Groom.wx; split <;> rfl
@[simp] theorem Groom.wx_halted (r : Groom) (i : Nat) (v : Word) : (r.wx i v).halted = r.halted := by
  unfold Groom.wx; split <;> rfl

end Sys2Proof.Machine
end

