-- ==== Sys2Proof/Laws/Frame.lean ====
section
/-!
SUPPORT. Laws/Frame.lean: what the shared operations leave as it was, as frames that compose, and how a command on one side
answers.
-/
namespace Sys2Proof.Machine

/-! ### Frames compose -/

theorem Side.keptBut_refl (x : Side) (ps : List Piece) (rs : Nat → Prop) : x.keptBut x ps rs :=
  ⟨rfl, rfl, fun p _ => by cases p <;> rfl, fun _ _ => rfl⟩

theorem Side.keeps_trans {x y z : Side} {p : Piece} (h : x.keeps y p) (h' : y.keeps z p) : x.keeps z p := by
  cases p <;> exact Eq.trans h' h

theorem Side.keptBut_trans {x y z : Side} {ps : List Piece} {rs : Nat → Prop} (h : x.keptBut y ps rs) (h' : y.keptBut z ps rs) :
    x.keptBut z ps rs :=
  ⟨h'.1.trans h.1, h'.2.1.trans h.2.1, fun p hp => Side.keeps_trans (h.2.2.1 p hp) (h'.2.2.1 p hp),
    fun k hk => (h'.2.2.2 k hk).trans (h.2.2.2 k hk)⟩

theorem Side.keptBut_mono {x y : Side} {ps qs : List Piece} {rs ts : Nat → Prop} (h : x.keptBut y ps rs)
    (hp : ∀ p, p ∈ ps → p ∈ qs) (hr : ∀ k, rs k → ts k) : x.keptBut y qs ts :=
  ⟨h.1, h.2.1, fun p hq => h.2.2.1 p (fun e => hq (hp p e)), fun k hk => h.2.2.2 k (fun e => hk (hr k e))⟩

/-! ### What settles by itself -/

@[simp] theorem Groom.plain_x (r : Groom) : r.plain.x = r.x := by unfold Groom.plain; split <;> rfl
@[simp] theorem Groom.plain_v (r : Groom) : r.plain.v = r.v := by unfold Groom.plain; split <;> rfl
@[simp] theorem Groom.plain_p (r : Groom) : r.plain.p = r.p := by unfold Groom.plain; split <;> rfl
@[simp] theorem Groom.plain_pc (r : Groom) : r.plain.pc = r.pc := by unfold Groom.plain; split <;> rfl
@[simp] theorem Groom.plain_ctl (r : Groom) : r.plain.ctl = r.ctl := by unfold Groom.plain; split <;> rfl
@[simp] theorem Groom.plain_lmem (r : Groom) : r.plain.lmem = r.lmem := by unfold Groom.plain; split <;> rfl
@[simp] theorem Groom.plain_halted (r : Groom) : r.plain.halted = r.halted := by unfold Groom.plain; split <;> rfl
@[simp] theorem Groom.plain_cause (r : Groom) : r.plain.cause = r.cause := by unfold Groom.plain; split <;> rfl
@[simp] theorem Groom.plain_stale (r : Groom) : r.plain.stale = r.stale := by unfold Groom.plain; split <;> rfl
@[simp] theorem Groom.plain_sendQ (r : Groom) : r.plain.sendQ = r.sendQ := by unfold Groom.plain; split <;> rfl
@[simp] theorem Groom.plain_recvQ (r : Groom) : r.plain.recvQ = r.recvQ := by unfold Groom.plain; split <;> rfl
@[simp] theorem Groom.plain_errQ (r : Groom) : r.plain.errQ = r.errQ := by unfold Groom.plain; split <;> rfl

/-- Latching a blocked TWAIT leaves the plain Groom. -/
theorem latchTwaits_plain (s : Side) : s.latchTwaits.grooms.map Groom.plain = s.grooms.map Groom.plain := by
  simp only [Side.latchTwaits, List.map_map]
  apply List.map_congr_left
  intro r _
  simp only [Function.comp]
  split
  · split
    · rename_i h _; simp [Groom.plain, h]
    · rfl
  · rfl

theorem latchWaits_plain (s : Side) : s.latchWaits.ops.map Op.plain = s.ops.map Op.plain := by
  simp only [Side.latchWaits, List.map_map]
  apply List.map_congr_left
  intro o _
  simp only [Function.comp]; split <;> rfl

theorem latchReady_plain (s : Side) : s.latchReady.ops.map Op.plain = s.ops.map Op.plain := by
  simp only [Side.latchReady, List.map_map]
  apply List.map_congr_left
  intro o _
  simp only [Function.comp]; split <;> rfl

theorem settle_plain_ops (s : Side) : s.settle.ops.map Op.plain = s.ops.map Op.plain := by
  have h : s.settle.ops = s.latchWaits.latchReady.ops := rfl
  rw [h, latchReady_plain, latchWaits_plain]

theorem settle_plain_grooms (s : Side) : s.settle.grooms.map Groom.plain = s.grooms.map Groom.plain := by
  have h : s.settle = s.latchWaits.latchReady.latchTwaits := rfl
  rw [h, latchTwaits_plain]; rfl

/-- What is seen of one Groom follows from what is seen of all. -/
theorem groom_plain_of_map {x y : Side} (h : y.grooms.map Groom.plain = x.grooms.map Groom.plain) (g : Nat) :
    (y.groom g).plain = (x.groom g).plain := by
  have := congrArg (fun l => l.getD g Groom.reset.plain) h
  simpa [Side.groom, List.getD_eq_getElem?_getD, Option.getD_map] using this

/-! ### A side after an effect -/

/-- An effect that keeps the side's identity is followed only by what settles. -/
theorem Side.after_keptBut {x : Side} {f : Side → Side} {ps : List Piece} {rs : Nat → Prop} (h : x.keptBut (f x) ps rs) :
    x.keptBut (x.after f) ps rs := by
  refine Side.keptBut_trans h ⟨h.1.symm, h.2.1.symm, fun p _ => ?_, fun k _ => ?_⟩
  · cases p <;> first | rfl | exact settle_plain_grooms _ | exact settle_plain_ops _
  · simp only [Side.rd, Side.after, Side.settle_regs, h.1, h.2.1]

/-- Two effects that agree on a side lead to the same. -/
theorem Side.after_congr {x : Side} {f k : Side → Side} (h : f x = k x) : x.after f = x.after k := by
  unfold Side.after; rw [h]

/-- What a register reads after an effect that keeps the side's identity. -/
theorem Side.after_rd {x : Side} {f : Side → Side} (hi : (f x).id = x.id) (hp : (f x).part = x.part) (k : Nat) :
    (x.after f).rd k = (f x).rd k := by
  simp only [Side.rd, Side.after, Side.settle_regs, hi, hp]

@[simp] theorem Side.after_phase (x : Side) (f : Side → Side) : (x.after f).phase = (f x).phase := rfl
@[simp] theorem Side.after_mem (x : Side) (f : Side → Side) : (x.after f).mem = (f x).mem := rfl
@[simp] theorem Side.after_guards (x : Side) (f : Side → Side) : (x.after f).guards = (f x).guards := rfl
@[simp] theorem Side.after_returns (x : Side) (f : Side → Side) : (x.after f).returns = (f x).returns := rfl
@[simp] theorem Side.after_rr (x : Side) (f : Side → Side) : (x.after f).rr = (f x).rr := rfl
@[simp] theorem Side.after_datum (x : Side) (f : Side → Side) : (x.after f).datum = (f x).datum := rfl
@[simp] theorem Side.after_lg (x : Side) (f : Side → Side) : (x.after f).lg = (f x).lg := rfl
@[simp] theorem Side.after_ing (x : Side) (f : Side → Side) : (x.after f).ing = (f x).ing := rfl
@[simp] theorem Side.after_tr (x : Side) (f : Side → Side) : (x.after f).tr = (f x).tr := rfl
@[simp] theorem Side.after_gt (x : Side) (f : Side → Side) : (x.after f).gt = (f x).gt := rfl
@[simp] theorem Side.after_pl (x : Side) (f : Side → Side) : (x.after f).pl = (f x).pl := rfl
@[simp] theorem Side.after_pt (x : Side) (f : Side → Side) : (x.after f).pt = (f x).pt := rfl
@[simp] theorem Side.after_tv (x : Side) (f : Side → Side) : (x.after f).tv = (f x).tv := rfl
@[simp] theorem Side.after_br (x : Side) (f : Side → Side) : (x.after f).br = (f x).br := rfl
@[simp] theorem Side.after_mangers (x : Side) (f : Side → Side) : (x.after f).mangers = (f x).mangers := rfl
@[simp] theorem Side.after_outriders (x : Side) (f : Side → Side) : (x.after f).outriders = (f x).outriders := rfl
@[simp] theorem Side.after_scrubLine (x : Side) (f : Side → Side) : (x.after f).scrubLine = (f x).scrubLine := rfl
@[simp] theorem Side.after_xout (x : Side) (f : Side → Side) : (x.after f).xout = (f x).xout := rfl
@[simp] theorem Side.after_egress (x : Side) (f : Side → Side) : (x.after f).egress = (f x).egress := rfl
@[simp] theorem Side.after_events (x : Side) (f : Side → Side) : (x.after f).events = (f x).events := rfl
@[simp] theorem Side.after_unver (x : Side) (f : Side → Side) : (x.after f).unver = (f x).unver := rfl
@[simp] theorem Side.after_sw (x : Side) (f : Side → Side) : (x.after f).sw = (f x).sw := rfl
@[simp] theorem Side.after_kp (x : Side) (f : Side → Side) : (x.after f).kp = (f x).kp := rfl
@[simp] theorem Side.after_pm (x : Side) (f : Side → Side) : (x.after f).pm = (f x).pm := rfl
@[simp] theorem Side.after_power (x : Side) (f : Side → Side) : (x.after f).power = (f x).power := rfl
@[simp] theorem Side.after_host (x : Side) (f : Side → Side) : (x.after f).host = (f x).host := rfl
@[simp] theorem Side.after_fresh (x : Side) (f : Side → Side) : (x.after f).fresh = (f x).fresh := rfl

theorem Side.after_plain_ops (x : Side) (f : Side → Side) : (x.after f).ops.map Op.plain = (f x).ops.map Op.plain :=
  settle_plain_ops (f x)

theorem Side.after_plain_groom (x : Side) (f : Side → Side) (g : Nat) : ((x.after f).groom g).plain = ((f x).groom g).plain :=
  groom_plain_of_map (settle_plain_grooms (f x)) g

/-- A command on a live side answers with that side after its effect. -/
theorem onSide_does {i : Instr} {s : State} {sd : SideId} {f : Side → Side} {P : Side → Side → Prop}
    (he : exec i s = onSide sd f s) (hl : (s.side sd).live = true) (hP : P (s.side sd) ((s.side sd).after f)) :
    s.does i sd P := by
  refine ⟨s.onLive sd f, he, by simp, by simp, ?_⟩
  rw [State.onLive_side s sd f hl]; exact hP

/-- A command that a side meets in any phase answers with that side after its effect. -/
theorem onPins_does {i : Instr} {s : State} {sd : SideId} {f : Side → Side} {P : Side → Side → Prop}
    (he : exec i s = onPins sd f s) (hP : P (s.side sd) ((s.side sd).after f)) : s.does i sd P := by
  refine ⟨s.onAny sd f, he, by cases sd <;> rfl, by simp, ?_⟩
  rw [State.onAny_side]; exact hP

/-! ### Frames of the shared operations -/

theorem Side.wr_keptBut (s : Side) (k : Nat) (v : Word) : s.keptBut (s.wr k v) [] (fun j => j = k) :=
  ⟨rfl, rfl, fun p _ => by cases p <;> rfl, fun _ h => Side.rd_wr_other s v h⟩

theorem Side.put_keptBut (s : Side) (k lo n v : Nat) : s.keptBut (s.put k lo n v) [] (fun j => j = k) := Side.wr_keptBut ..

theorem Side.count_keptBut (s : Side) (k lo n d : Nat) : s.keptBut (s.count k lo n d) [] (fun j => j = k) := Side.wr_keptBut ..

theorem Side.signal_keptBut (s : Side) (t n : Nat) : s.keptBut (s.signal t n) [] (fun j => j = Reg.TE_VALUE t) := Side.wr_keptBut ..

/-- A change of pieces alone, register file, identity and part kept. -/
theorem Side.keptBut_of_regs {x y : Side} {ps : List Piece} (rs : Nat → Prop) (hi : y.id = x.id) (hp : y.part = x.part)
    (hr : y.regs = x.regs) (hk : ∀ p, p ∉ ps → x.keeps y p) : x.keptBut y ps rs :=
  ⟨hi, hp, hk, fun k _ => by simp only [Side.rd, hi, hp, hr]⟩

theorem Side.raise_keptBut (s : Side) (c u i : Nat) (cm : Option (Nat × Nat)) (d f : Nat) (p : Option (Nat × Nat)) (rs : Nat → Prop) :
    s.keptBut (s.raise c u i cm d f p) [.events] rs :=
  Side.keptBut_of_regs _ rfl rfl rfl (fun p hp => by cases p <;> first | rfl | simp at hp)

theorem Side.scatter_keptBut (s : Side) (o : Nat) (ws : List (Nat × Byte × Bool)) (rs : Nat → Prop) :
    s.keptBut (s.scatter o ws).1 [.cells, .poison] rs :=
  Side.keptBut_of_regs _ rfl rfl rfl (fun p hp => by cases p <;> first | rfl | simp at hp)

theorem Side.setGroom_keptBut (s : Side) (g : Nat) (r : Groom) (rs : Nat → Prop) : s.keptBut (s.setGroom g r) [.grooms] rs :=
  Side.keptBut_of_regs _ rfl rfl rfl (fun p hp => by cases p <;> first | rfl | simp at hp)

theorem Side.onTag_keptBut (s : Side) (m : Nat) (f : PmTag → PmTag) (rs : Nat → Prop) : s.keptBut (s.onTag m f) [.pm] rs :=
  Side.keptBut_of_regs _ rfl rfl rfl (fun p hp => by cases p <;> first | rfl | simp at hp)

theorem Side.draw_keptBut (s : Side) (rs : Nat → Prop) : s.keptBut s.draw.2 [.fresh] rs :=
  Side.keptBut_of_regs _ rfl rfl rfl (fun p hp => by cases p <;> first | rfl | simp at hp)

theorem Side.keptBut_foldl {α : Type} (f : Side → α → Side) (ps : List Piece) (rs : Nat → Prop)
    (h : ∀ (s : Side) (a : α), s.keptBut (f s a) ps rs) (l : List α) (s : Side) : s.keptBut (l.foldl f s) ps rs := by
  induction l generalizing s with
  | nil => exact Side.keptBut_refl ..
  | cons a l ih => exact Side.keptBut_trans (h s a) (ih _)

end Sys2Proof.Machine
end

