-- ==== Sys2Proof/Laws/Bus.lean ====
section
/-!
SUPPORT. Laws/Bus.lean: the register map at a known register, and what a write that is performed becomes.
-/
namespace Sys2Proof.Machine

/-- A write that is performed is its unit's write. -/
theorem wreg_takes {x : Side} {level k : Nat} {v : Word} (h : x.takes level k v) :
    ∃ r, specOf k = some r ∧ wreg level k v x = x.regWrite level k r v := by
  obtain ⟨_, h0, h1, r, h2, h3⟩ := h
  refine ⟨r, h2, ?_⟩
  unfold wreg Side.busWrite
  rw [if_neg (by omega), if_pos h1, h2]
  simp only [h3, ne_eq, not_true_eq_false, if_false]

/-- A write at level 0 does nothing (R61). -/
@[simp] theorem wreg_zero (k : Nat) (v : Word) (x : Side) : wreg 0 k v x = x := rfl

/-- A command that writes a register: what it leaves is what its unit's write leaves. -/
theorem write_does {i : Instr} {s : State} {sd : SideId} {k : Nat} {v : Word} {P : Side → Side → Prop} {r : RegSpec} {level : Nat}
    (h : (s.side sd).takes level k v) (he : exec i s = onSide sd (wreg level k v) s) (hr : specOf k = some r)
    (hP : P (s.side sd) ((s.side sd).after (fun x => x.regWrite level k r v))) : s.does i sd P := by
  obtain ⟨r', h2, h3⟩ := wreg_takes h
  rw [hr] at h2; cases h2
  refine onSide_does he h.1 ?_
  rw [Side.after_congr (k := fun x => x.regWrite level k r v) h3]
  exact hP

/-! ### The register map at a register -/

theorem specOf_TR_CTRL : specOf Reg.TR_CTRL = some ⟨"TR_CTRL", 0, 0, 0x0, 0x0, 1, 0x1, 0x0, 0x8, 0x0, 0x0, 0x0, 0x0⟩ := rfl

theorem specOf_GT_CTRL : specOf Reg.GT_CTRL = some ⟨"GT_CTRL", 0, 0, 0x0, 0x0, 1, 0x1, 0x0, 0x4, 0x0, 0x0, 0x0, 0x0⟩ := rfl

theorem specOf_LG_RPT_CFG : specOf Reg.LG_RPT_CFG = some ⟨"LG_RPT_CFG", 0, 0, 0x18, 0x0, 1, 0x3FFF0F, 0x0, 0x0, 0x0, 0x0, 0x0, 0x0⟩ := rfl

theorem specOf_LG_CTRL : specOf Reg.LG_CTRL = some ⟨"LG_CTRL", 0, 0, 0x0, 0x0, 1, 0x1, 0x0, 0x8, 0x0, 0x0, 0x6, 0x0⟩ := rfl

theorem specOf_PL_CTRL : specOf Reg.PL_CTRL = some ⟨"PL_CTRL", 0, 0, 0x0, 0x0, 1, 0x1, 0x0, 0x2, 0x0, 0x0, 0x4, 0x0⟩ := rfl

theorem specOf_PT_CTRL : specOf Reg.PT_CTRL = some ⟨"PT_CTRL", 0, 0, 0x0, 0x0, 1, 0x1, 0x0, 0x8, 0x0, 0x0, 0x6, 0x0⟩ := rfl

theorem specOf_TV_CTRL : specOf Reg.TV_CTRL = some ⟨"TV_CTRL", 0, 0, 0x0, 0x0, 1, 0x1, 0x0, 0x8, 0x0, 0x0, 0x6, 0x0⟩ := rfl

theorem specOf_BR_CTRL : specOf Reg.BR_CTRL = some ⟨"BR_CTRL", 0, 0, 0x0, 0x0, 1, 0x1, 0x0, 0x4, 0x0, 0x0, 0x2, 0x0⟩ := rfl

theorem specOf_NT_MAP : specOf Reg.NT_MAP = some ⟨"NT_MAP", 0, 0, 0x18, 0x0, 1, 0xFF, 0x0, 0x20000, 0x10000, 0x0, 0x0, 0x0⟩ := rfl

theorem specOf_SW_CTRL : specOf Reg.SW_CTRL = some ⟨"SW_CTRL", 0, 0, 0x8, 0x0, 1, 0x0, 0x3, 0x0, 0x0, 0x0, 0x0, 0x0⟩ := rfl

theorem specOf_SW_VERDICT : specOf Reg.SW_VERDICT = some ⟨"SW_VERDICT", 0, 0, 0x38, 0x0, 1, 0x0, 0x1FF0000FFFF, 0x0, 0x0, 0x0, 0x0, 0x0⟩ := rfl

theorem specOf_PW_REQ : specOf Reg.PW_REQ = some ⟨"PW_REQ", 0, 0, 0x0, 0x0, 1, 0x3, 0x0, 0x0, 0x0, 0x0, 0x0, 0x0⟩ := rfl

theorem specOf_KP_VREQ : specOf Reg.KP_VREQ = some ⟨"KP_VREQ", 0, 0, 0x8, 0x0, 1, 0x0, 0xFF, 0x0, 0x0, 0x0, 0x0, 0x0⟩ := rfl

theorem specOf_KP_ROLL : specOf Reg.KP_ROLL = some ⟨"KP_ROLL", 0, 0, 0x20, 0x0, 1, 0x0, 0xFFFF, 0x0, 0x0, 0x0, 0x0, 0x0⟩ := rfl

theorem specOf_KP_QREQ : specOf Reg.KP_QREQ = some ⟨"KP_QREQ", 0, 0, 0x170, 0x0, 1, 0x0, 0xFFFFFFFFFFFFFFC0, 0x0, 0x0, 0x0, 0x0, 0x0⟩ := rfl

theorem specOf_KP_HOBBLE : specOf Reg.KP_HOBBLE = some ⟨"KP_HOBBLE", 0, 0, 0x218, 0x0, 1, 0x0, 0xFFFF, 0x0, 0x0, 0x0, 0x0, 0x0⟩ := rfl

theorem specOf_DT_TOD : specOf Reg.DT_TOD = some ⟨"DT_TOD", 0, 0, 0x68, 0x0, 1, 0xFFFFFFFFFFFFFFFF, 0x0, 0x0, 0x0, 0x0, 0x0, 0x0⟩ := rfl

theorem specOf_DT_NOW : specOf Reg.DT_NOW = some ⟨"DT_NOW", 0, 0, 0x0, 0x0, 1, 0x0, 0x0, 0x0, 0x0, 0x0, 0xFFFFFFFFFFFFFFFF, 0x0⟩ := rfl

theorem specOf_KP_OWNER7 : specOf (Reg.KP_OWNER 7) = some ⟨"KP_OWNER_w", 0, 0, 0x90, 0x8, 8, 0x0, 0xFFFFFFFFFFFFFFFF, 0x0, 0x0, 0x0, 0x0, 0x0⟩ := rfl

theorem specOf_KP_DTOK14 : specOf (Reg.KP_DTOK 14) = some ⟨"KP_DTOK_w", 0, 0, 0x1A0, 0x8, 15, 0x0, 0xFFFFFFFFFFFFFFFF, 0x0, 0x0, 0x0, 0x0, 0x0⟩ := rfl

theorem specOf_CQ_CFG {i : Nat} (h : i < 64) : specOf (Reg.CQ_CFG i) = some ⟨"CQ_CFG", 0, 63, 0x0, 0x0, 1, 0xF0F, 0x0, 0x0, 0x0, 0x0, 0x0, 0x7⟩ := by
  have a : Reg.CQ_CFG i / 0x1000000 = 0x12 := by unfold Reg.CQ_CFG; omega
  have b : Reg.CQ_CFG i / 0x10000 % 0x100 = i := by unfold Reg.CQ_CFG; omega
  have c : Reg.CQ_CFG i % 0x10000 = 0x0 := by unfold Reg.CQ_CFG; omega
  have d : i ≤ 64-1 := by omega
  unfold specOf
  simp only [a, b, c]
  simp [regTable, regTable12, d]

theorem specOf_CQ_RING {i : Nat} (h : i < 64) : specOf (Reg.CQ_RING i) = some ⟨"CQ_RING", 0, 63, 0x8, 0x0, 1, 0xFFFFFFFFFFFFFFC0, 0x0, 0x0, 0x0, 0x0, 0x0, 0x0⟩ := by
  have a : Reg.CQ_RING i / 0x1000000 = 0x12 := by unfold Reg.CQ_RING; omega
  have b : Reg.CQ_RING i / 0x10000 % 0x100 = i := by unfold Reg.CQ_RING; omega
  have c : Reg.CQ_RING i % 0x10000 = 0x8 := by unfold Reg.CQ_RING; omega
  have d : i ≤ 64-1 := by omega
  unfold specOf
  simp only [a, b, c]
  simp [regTable, regTable12, d]

theorem specOf_CQ_CPL {i : Nat} (h : i < 64) : specOf (Reg.CQ_CPL i) = some ⟨"CQ_CPL", 0, 63, 0x10, 0x0, 1, 0xFFFFFFFFFFFFFFE0, 0x0, 0x0, 0x0, 0x0, 0x0, 0x0⟩ := by
  have a : Reg.CQ_CPL i / 0x1000000 = 0x12 := by unfold Reg.CQ_CPL; omega
  have b : Reg.CQ_CPL i / 0x10000 % 0x100 = i := by unfold Reg.CQ_CPL; omega
  have c : Reg.CQ_CPL i % 0x10000 = 0x10 := by unfold Reg.CQ_CPL; omega
  have d : i ≤ 64-1 := by omega
  unfold specOf
  simp only [a, b, c]
  simp [regTable, regTable12, d]

theorem specOf_CQ_TAIL {i : Nat} (h : i < 64) : specOf (Reg.CQ_TAIL i) = some ⟨"CQ_TAIL", 0, 63, 0x18, 0x0, 1, 0xFFFFFFFF, 0x0, 0x0, 0x0, 0x0, 0x0, 0x0⟩ := by
  have a : Reg.CQ_TAIL i / 0x1000000 = 0x12 := by unfold Reg.CQ_TAIL; omega
  have b : Reg.CQ_TAIL i / 0x10000 % 0x100 = i := by unfold Reg.CQ_TAIL; omega
  have c : Reg.CQ_TAIL i % 0x10000 = 0x18 := by unfold Reg.CQ_TAIL; omega
  have d : i ≤ 64-1 := by omega
  unfold specOf
  simp only [a, b, c]
  simp [regTable, regTable12, d]

theorem specOf_GR_CTRL {i : Nat} (h : i < 112) : specOf (Reg.GR_CTRL i) = some ⟨"GR_CTRL", 0, 111, 0x10, 0x0, 1, 0x0, 0x3, 0x0, 0x0, 0x0, 0x0, 0x0⟩ := by
  have a : Reg.GR_CTRL i / 0x1000000 = 0x10 := by unfold Reg.GR_CTRL; omega
  have b : Reg.GR_CTRL i / 0x10000 % 0x100 = i := by unfold Reg.GR_CTRL; omega
  have c : Reg.GR_CTRL i % 0x10000 = 0x10 := by unfold Reg.GR_CTRL; omega
  have d : i ≤ 112-1 := by omega
  unfold specOf
  simp only [a, b, c]
  simp [regTable, regTable10, d]

theorem specOf_OR_CTRL {i : Nat} (h : i < 2) : specOf (Reg.OR_CTRL i) = some ⟨"OR_CTRL", 0, 1, 0x0, 0x0, 1, 0x1, 0x0, 0x2, 0x0, 0x0, 0x0, 0x0⟩ := by
  have a : Reg.OR_CTRL i / 0x1000000 = 0x0C := by unfold Reg.OR_CTRL; omega
  have b : Reg.OR_CTRL i / 0x10000 % 0x100 = i := by unfold Reg.OR_CTRL; omega
  have c : Reg.OR_CTRL i % 0x10000 = 0x0 := by unfold Reg.OR_CTRL; omega
  have d : i ≤ 2-1 := by omega
  unfold specOf
  simp only [a, b, c]
  simp [regTable, regTable0C, d]

theorem specOf_IN_SCFG {i : Nat} (h : i < 32) : specOf (Reg.IN_SCFG i) = some ⟨"IN_SCFG_s", 0, 0, 0x1000, 0x80, 32, 0xFFFE0001, 0x0, 0x0, 0x0, 0x0, 0x0, 0x0⟩ := by
  exact (by decide : ∀ i < 32, specOf (Reg.IN_SCFG i) = some ⟨"IN_SCFG_s", 0, 0, 0x1000, 0x80, 32, 0xFFFE0001, 0x0, 0x0, 0x0, 0x0, 0x0, 0x0⟩) i h

theorem specOf_IN_LPTR {i : Nat} (h : i < 32) : specOf (Reg.IN_LPTR i) = some ⟨"IN_LPTR_s", 0, 0, 0x1048, 0x80, 32, 0xFFFFFFFF00000000, 0x0, 0x0, 0x0, 0x0, 0xFFFFFFFF, 0x0⟩ := by
  exact (by decide : ∀ i < 32, specOf (Reg.IN_LPTR i) = some ⟨"IN_LPTR_s", 0, 0, 0x1048, 0x80, 32, 0xFFFFFFFF00000000, 0x0, 0x0, 0x0, 0x0, 0xFFFFFFFF, 0x0⟩) i h

theorem specOf_TR_SCFG {i : Nat} (h : i < 32) : specOf (Reg.TR_SCFG i) = some ⟨"TR_SCFG_s", 0, 0, 0x1000, 0x40, 32, 0xF01F03, 0x0, 0x0, 0x0, 0x0, 0x0, 0x0⟩ := by
  exact (by decide : ∀ i < 32, specOf (Reg.TR_SCFG i) = some ⟨"TR_SCFG_s", 0, 0, 0x1000, 0x40, 32, 0xF01F03, 0x0, 0x0, 0x0, 0x0, 0x0, 0x0⟩) i h

theorem specOf_TP_BASE {i : Nat} (h : i < 2) : specOf (Reg.TP_BASE i) = some ⟨"TP_BASE_a", 3, 3, 0x40, 0x8, 2, 0xFFFFFFFFFFFFF000, 0x0, 0x0, 0x0, 0x0, 0x3, 0x0⟩ := by
  exact (by decide : ∀ i < 2, specOf (Reg.TP_BASE i) = some ⟨"TP_BASE_a", 3, 3, 0x40, 0x8, 2, 0xFFFFFFFFFFFFF000, 0x0, 0x0, 0x0, 0x0, 0x3, 0x0⟩) i h

theorem specOf_OR_NPUSH {i c : Nat} (h : i < 2) (k : c < 4) : specOf (Reg.OR_NPUSH i c) = some ⟨"OR_NPUSH_c", 0, 1, 0x118, 0x40, 4, 0x0, 0xFFFFFFFFFFFFFFFF, 0x0, 0x0, 0x0, 0x0, 0x0⟩ := by
  exact (by decide : ∀ i < 2, ∀ c < 4, specOf (Reg.OR_NPUSH i c) = some ⟨"OR_NPUSH_c", 0, 1, 0x118, 0x40, 4, 0x0, 0xFFFFFFFFFFFFFFFF, 0x0, 0x0, 0x0, 0x0, 0x0⟩) i h c k

theorem specOf_OR_FPUSH {i c : Nat} (h : i < 2) (k : c < 4) : specOf (Reg.OR_FPUSH i c) = some ⟨"OR_FPUSH_c", 0, 1, 0x120, 0x40, 4, 0x0, 0xFFFFFFFFFFFFFFFF, 0x0, 0x0, 0x0, 0x0, 0x0⟩ := by
  exact (by decide : ∀ i < 2, ∀ c < 4, specOf (Reg.OR_FPUSH i c) = some ⟨"OR_FPUSH_c", 0, 1, 0x120, 0x40, 4, 0x0, 0xFFFFFFFFFFFFFFFF, 0x0, 0x0, 0x0, 0x0, 0x0⟩) i h c k

theorem specOf_TE_VALUE {t : Nat} (h : t ≤ 8191) : specOf (Reg.TE_VALUE t) = some ⟨"TE_VALUE_t", 0, 0, 0x0, 0x8, 8192, 0xFFFFFFFFFFFFFFFF, 0x0, 0x0, 0x0, 0x0, 0x0, 0x0⟩ := by
  have a : Reg.TE_VALUE t / 0x1000000 = 0x11 := by unfold Reg.TE_VALUE; omega
  have b : Reg.TE_VALUE t / 0x10000 % 0x100 = 0 := by unfold Reg.TE_VALUE; omega
  have c : Reg.TE_VALUE t % 0x10000 = 8 * t := by unfold Reg.TE_VALUE; omega
  unfold specOf
  simp only [a, b, c]
  simp [regTable, regTable11]
  omega

theorem specOf_TE_ADD {t : Nat} (h : t ≤ 8191) : specOf (Reg.TE_ADD t) = some ⟨"TE_ADD_t", 1, 1, 0x0, 0x8, 8192, 0x0, 0xFFFFFFFFFFFFFFFF, 0x0, 0x0, 0x0, 0x0, 0x0⟩ := by
  have a : Reg.TE_ADD t / 0x1000000 = 0x11 := by unfold Reg.TE_ADD; omega
  have b : Reg.TE_ADD t / 0x10000 % 0x100 = 1 := by unfold Reg.TE_ADD; omega
  have c : Reg.TE_ADD t % 0x10000 = 8 * t := by unfold Reg.TE_ADD; omega
  unfold specOf
  simp only [a, b, c]
  simp [regTable, regTable11]
  omega

end Sys2Proof.Machine
end

