-- ==== Sys2Proof/Laws/Fields.lean ====
section
/-!
SUPPORT. Laws/Fields.lean: what each named change of one piece of a side leaves of its other fields and registers.
-/
namespace Sys2Proof.Machine

variable (s : Side)
@[simp] theorem Side.inSet_id (f : Ingress → Ingress) : (s.inSet f).id = s.id := (rfl)
@[simp] theorem Side.inSet_part (f : Ingress → Ingress) : (s.inSet f).part = s.part := (rfl)
@[simp] theorem Side.inSet_phase (f : Ingress → Ingress) : (s.inSet f).phase = s.phase := (rfl)
@[simp] theorem Side.inSet_regs (f : Ingress → Ingress) : (s.inSet f).regs = s.regs := (rfl)
@[simp] theorem Side.inSet_mem (f : Ingress → Ingress) : (s.inSet f).mem = s.mem := (rfl)
@[simp] theorem Side.inSet_guards (f : Ingress → Ingress) : (s.inSet f).guards = s.guards := (rfl)
@[simp] theorem Side.inSet_grooms (f : Ingress → Ingress) : (s.inSet f).grooms = s.grooms := (rfl)
@[simp] theorem Side.inSet_returns (f : Ingress → Ingress) : (s.inSet f).returns = s.returns := (rfl)
@[simp] theorem Side.inSet_ops (f : Ingress → Ingress) : (s.inSet f).ops = s.ops := (rfl)
@[simp] theorem Side.inSet_rr (f : Ingress → Ingress) : (s.inSet f).rr = s.rr := (rfl)
@[simp] theorem Side.inSet_datum (f : Ingress → Ingress) : (s.inSet f).datum = s.datum := (rfl)
@[simp] theorem Side.inSet_lg (f : Ingress → Ingress) : (s.inSet f).lg = s.lg := (rfl)
@[simp] theorem Side.inSet_tr (f : Ingress → Ingress) : (s.inSet f).tr = s.tr := (rfl)
@[simp] theorem Side.inSet_gt (f : Ingress → Ingress) : (s.inSet f).gt = s.gt := (rfl)
@[simp] theorem Side.inSet_pl (f : Ingress → Ingress) : (s.inSet f).pl = s.pl := (rfl)
@[simp] theorem Side.inSet_pt (f : Ingress → Ingress) : (s.inSet f).pt = s.pt := (rfl)
@[simp] theorem Side.inSet_tv (f : Ingress → Ingress) : (s.inSet f).tv = s.tv := (rfl)
@[simp] theorem Side.inSet_br (f : Ingress → Ingress) : (s.inSet f).br = s.br := (rfl)
@[simp] theorem Side.inSet_mangers (f : Ingress → Ingress) : (s.inSet f).mangers = s.mangers := (rfl)
@[simp] theorem Side.inSet_outriders (f : Ingress → Ingress) : (s.inSet f).outriders = s.outriders := (rfl)
@[simp] theorem Side.inSet_scrubLine (f : Ingress → Ingress) : (s.inSet f).scrubLine = s.scrubLine := (rfl)
@[simp] theorem Side.inSet_xout (f : Ingress → Ingress) : (s.inSet f).xout = s.xout := (rfl)
@[simp] theorem Side.inSet_egress (f : Ingress → Ingress) : (s.inSet f).egress = s.egress := (rfl)
@[simp] theorem Side.inSet_events (f : Ingress → Ingress) : (s.inSet f).events = s.events := (rfl)
@[simp] theorem Side.inSet_unver (f : Ingress → Ingress) : (s.inSet f).unver = s.unver := (rfl)
@[simp] theorem Side.inSet_sw (f : Ingress → Ingress) : (s.inSet f).sw = s.sw := (rfl)
@[simp] theorem Side.inSet_kp (f : Ingress → Ingress) : (s.inSet f).kp = s.kp := (rfl)
@[simp] theorem Side.inSet_pm (f : Ingress → Ingress) : (s.inSet f).pm = s.pm := (rfl)
@[simp] theorem Side.inSet_power (f : Ingress → Ingress) : (s.inSet f).power = s.power := (rfl)
@[simp] theorem Side.inSet_acts (f : Ingress → Ingress) : (s.inSet f).acts = s.acts := (rfl)
@[simp] theorem Side.inSet_host (f : Ingress → Ingress) : (s.inSet f).host = s.host := (rfl)
@[simp] theorem Side.inSet_fresh (f : Ingress → Ingress) : (s.inSet f).fresh = s.fresh := (rfl)
@[simp] theorem Side.trSet_id (f : Transit → Transit) : (s.trSet f).id = s.id := (rfl)
@[simp] theorem Side.trSet_part (f : Transit → Transit) : (s.trSet f).part = s.part := (rfl)
@[simp] theorem Side.trSet_phase (f : Transit → Transit) : (s.trSet f).phase = s.phase := (rfl)
@[simp] theorem Side.trSet_regs (f : Transit → Transit) : (s.trSet f).regs = s.regs := (rfl)
@[simp] theorem Side.trSet_mem (f : Transit → Transit) : (s.trSet f).mem = s.mem := (rfl)
@[simp] theorem Side.trSet_guards (f : Transit → Transit) : (s.trSet f).guards = s.guards := (rfl)
@[simp] theorem Side.trSet_grooms (f : Transit → Transit) : (s.trSet f).grooms = s.grooms := (rfl)
@[simp] theorem Side.trSet_returns (f : Transit → Transit) : (s.trSet f).returns = s.returns := (rfl)
@[simp] theorem Side.trSet_ops (f : Transit → Transit) : (s.trSet f).ops = s.ops := (rfl)
@[simp] theorem Side.trSet_rr (f : Transit → Transit) : (s.trSet f).rr = s.rr := (rfl)
@[simp] theorem Side.trSet_datum (f : Transit → Transit) : (s.trSet f).datum = s.datum := (rfl)
@[simp] theorem Side.trSet_lg (f : Transit → Transit) : (s.trSet f).lg = s.lg := (rfl)
@[simp] theorem Side.trSet_ing (f : Transit → Transit) : (s.trSet f).ing = s.ing := (rfl)
@[simp] theorem Side.trSet_gt (f : Transit → Transit) : (s.trSet f).gt = s.gt := (rfl)
@[simp] theorem Side.trSet_pl (f : Transit → Transit) : (s.trSet f).pl = s.pl := (rfl)
@[simp] theorem Side.trSet_pt (f : Transit → Transit) : (s.trSet f).pt = s.pt := (rfl)
@[simp] theorem Side.trSet_tv (f : Transit → Transit) : (s.trSet f).tv = s.tv := (rfl)
@[simp] theorem Side.trSet_br (f : Transit → Transit) : (s.trSet f).br = s.br := (rfl)
@[simp] theorem Side.trSet_mangers (f : Transit → Transit) : (s.trSet f).mangers = s.mangers := (rfl)
@[simp] theorem Side.trSet_outriders (f : Transit → Transit) : (s.trSet f).outriders = s.outriders := (rfl)
@[simp] theorem Side.trSet_scrubLine (f : Transit → Transit) : (s.trSet f).scrubLine = s.scrubLine := (rfl)
@[simp] theorem Side.trSet_xout (f : Transit → Transit) : (s.trSet f).xout = s.xout := (rfl)
@[simp] theorem Side.trSet_egress (f : Transit → Transit) : (s.trSet f).egress = s.egress := (rfl)
@[simp] theorem Side.trSet_events (f : Transit → Transit) : (s.trSet f).events = s.events := (rfl)
@[simp] theorem Side.trSet_unver (f : Transit → Transit) : (s.trSet f).unver = s.unver := (rfl)
@[simp] theorem Side.trSet_sw (f : Transit → Transit) : (s.trSet f).sw = s.sw := (rfl)
@[simp] theorem Side.trSet_kp (f : Transit → Transit) : (s.trSet f).kp = s.kp := (rfl)
@[simp] theorem Side.trSet_pm (f : Transit → Transit) : (s.trSet f).pm = s.pm := (rfl)
@[simp] theorem Side.trSet_power (f : Transit → Transit) : (s.trSet f).power = s.power := (rfl)
@[simp] theorem Side.trSet_acts (f : Transit → Transit) : (s.trSet f).acts = s.acts := (rfl)
@[simp] theorem Side.trSet_host (f : Transit → Transit) : (s.trSet f).host = s.host := (rfl)
@[simp] theorem Side.trSet_fresh (f : Transit → Transit) : (s.trSet f).fresh = s.fresh := (rfl)
@[simp] theorem Side.gtSet_id (f : Gait → Gait) : (s.gtSet f).id = s.id := (rfl)
@[simp] theorem Side.gtSet_part (f : Gait → Gait) : (s.gtSet f).part = s.part := (rfl)
@[simp] theorem Side.gtSet_phase (f : Gait → Gait) : (s.gtSet f).phase = s.phase := (rfl)
@[simp] theorem Side.gtSet_regs (f : Gait → Gait) : (s.gtSet f).regs = s.regs := (rfl)
@[simp] theorem Side.gtSet_mem (f : Gait → Gait) : (s.gtSet f).mem = s.mem := (rfl)
@[simp] theorem Side.gtSet_guards (f : Gait → Gait) : (s.gtSet f).guards = s.guards := (rfl)
@[simp] theorem Side.gtSet_grooms (f : Gait → Gait) : (s.gtSet f).grooms = s.grooms := (rfl)
@[simp] theorem Side.gtSet_returns (f : Gait → Gait) : (s.gtSet f).returns = s.returns := (rfl)
@[simp] theorem Side.gtSet_ops (f : Gait → Gait) : (s.gtSet f).ops = s.ops := (rfl)
@[simp] theorem Side.gtSet_rr (f : Gait → Gait) : (s.gtSet f).rr = s.rr := (rfl)
@[simp] theorem Side.gtSet_datum (f : Gait → Gait) : (s.gtSet f).datum = s.datum := (rfl)
@[simp] theorem Side.gtSet_lg (f : Gait → Gait) : (s.gtSet f).lg = s.lg := (rfl)
@[simp] theorem Side.gtSet_ing (f : Gait → Gait) : (s.gtSet f).ing = s.ing := (rfl)
@[simp] theorem Side.gtSet_tr (f : Gait → Gait) : (s.gtSet f).tr = s.tr := (rfl)
@[simp] theorem Side.gtSet_pl (f : Gait → Gait) : (s.gtSet f).pl = s.pl := (rfl)
@[simp] theorem Side.gtSet_pt (f : Gait → Gait) : (s.gtSet f).pt = s.pt := (rfl)
@[simp] theorem Side.gtSet_tv (f : Gait → Gait) : (s.gtSet f).tv = s.tv := (rfl)
@[simp] theorem Side.gtSet_br (f : Gait → Gait) : (s.gtSet f).br = s.br := (rfl)
@[simp] theorem Side.gtSet_mangers (f : Gait → Gait) : (s.gtSet f).mangers = s.mangers := (rfl)
@[simp] theorem Side.gtSet_outriders (f : Gait → Gait) : (s.gtSet f).outriders = s.outriders := (rfl)
@[simp] theorem Side.gtSet_scrubLine (f : Gait → Gait) : (s.gtSet f).scrubLine = s.scrubLine := (rfl)
@[simp] theorem Side.gtSet_xout (f : Gait → Gait) : (s.gtSet f).xout = s.xout := (rfl)
@[simp] theorem Side.gtSet_egress (f : Gait → Gait) : (s.gtSet f).egress = s.egress := (rfl)
@[simp] theorem Side.gtSet_events (f : Gait → Gait) : (s.gtSet f).events = s.events := (rfl)
@[simp] theorem Side.gtSet_unver (f : Gait → Gait) : (s.gtSet f).unver = s.unver := (rfl)
@[simp] theorem Side.gtSet_sw (f : Gait → Gait) : (s.gtSet f).sw = s.sw := (rfl)
@[simp] theorem Side.gtSet_kp (f : Gait → Gait) : (s.gtSet f).kp = s.kp := (rfl)
@[simp] theorem Side.gtSet_pm (f : Gait → Gait) : (s.gtSet f).pm = s.pm := (rfl)
@[simp] theorem Side.gtSet_power (f : Gait → Gait) : (s.gtSet f).power = s.power := (rfl)
@[simp] theorem Side.gtSet_acts (f : Gait → Gait) : (s.gtSet f).acts = s.acts := (rfl)
@[simp] theorem Side.gtSet_host (f : Gait → Gait) : (s.gtSet f).host = s.host := (rfl)
@[simp] theorem Side.gtSet_fresh (f : Gait → Gait) : (s.gtSet f).fresh = s.fresh := (rfl)
@[simp] theorem Side.ptSet_id (f : Plat → Plat) : (s.ptSet f).id = s.id := (rfl)
@[simp] theorem Side.ptSet_part (f : Plat → Plat) : (s.ptSet f).part = s.part := (rfl)
@[simp] theorem Side.ptSet_phase (f : Plat → Plat) : (s.ptSet f).phase = s.phase := (rfl)
@[simp] theorem Side.ptSet_regs (f : Plat → Plat) : (s.ptSet f).regs = s.regs := (rfl)
@[simp] theorem Side.ptSet_mem (f : Plat → Plat) : (s.ptSet f).mem = s.mem := (rfl)
@[simp] theorem Side.ptSet_guards (f : Plat → Plat) : (s.ptSet f).guards = s.guards := (rfl)
@[simp] theorem Side.ptSet_grooms (f : Plat → Plat) : (s.ptSet f).grooms = s.grooms := (rfl)
@[simp] theorem Side.ptSet_returns (f : Plat → Plat) : (s.ptSet f).returns = s.returns := (rfl)
@[simp] theorem Side.ptSet_ops (f : Plat → Plat) : (s.ptSet f).ops = s.ops := (rfl)
@[simp] theorem Side.ptSet_rr (f : Plat → Plat) : (s.ptSet f).rr = s.rr := (rfl)
@[simp] theorem Side.ptSet_datum (f : Plat → Plat) : (s.ptSet f).datum = s.datum := (rfl)
@[simp] theorem Side.ptSet_lg (f : Plat → Plat) : (s.ptSet f).lg = s.lg := (rfl)
@[simp] theorem Side.ptSet_ing (f : Plat → Plat) : (s.ptSet f).ing = s.ing := (rfl)
@[simp] theorem Side.ptSet_tr (f : Plat → Plat) : (s.ptSet f).tr = s.tr := (rfl)
@[simp] theorem Side.ptSet_gt (f : Plat → Plat) : (s.ptSet f).gt = s.gt := (rfl)
@[simp] theorem Side.ptSet_pl (f : Plat → Plat) : (s.ptSet f).pl = s.pl := (rfl)
@[simp] theorem Side.ptSet_tv (f : Plat → Plat) : (s.ptSet f).tv = s.tv := (rfl)
@[simp] theorem Side.ptSet_br (f : Plat → Plat) : (s.ptSet f).br = s.br := (rfl)
@[simp] theorem Side.ptSet_mangers (f : Plat → Plat) : (s.ptSet f).mangers = s.mangers := (rfl)
@[simp] theorem Side.ptSet_outriders (f : Plat → Plat) : (s.ptSet f).outriders = s.outriders := (rfl)
@[simp] theorem Side.ptSet_scrubLine (f : Plat → Plat) : (s.ptSet f).scrubLine = s.scrubLine := (rfl)
@[simp] theorem Side.ptSet_xout (f : Plat → Plat) : (s.ptSet f).xout = s.xout := (rfl)
@[simp] theorem Side.ptSet_egress (f : Plat → Plat) : (s.ptSet f).egress = s.egress := (rfl)
@[simp] theorem Side.ptSet_events (f : Plat → Plat) : (s.ptSet f).events = s.events := (rfl)
@[simp] theorem Side.ptSet_unver (f : Plat → Plat) : (s.ptSet f).unver = s.unver := (rfl)
@[simp] theorem Side.ptSet_sw (f : Plat → Plat) : (s.ptSet f).sw = s.sw := (rfl)
@[simp] theorem Side.ptSet_kp (f : Plat → Plat) : (s.ptSet f).kp = s.kp := (rfl)
@[simp] theorem Side.ptSet_pm (f : Plat → Plat) : (s.ptSet f).pm = s.pm := (rfl)
@[simp] theorem Side.ptSet_power (f : Plat → Plat) : (s.ptSet f).power = s.power := (rfl)
@[simp] theorem Side.ptSet_acts (f : Plat → Plat) : (s.ptSet f).acts = s.acts := (rfl)
@[simp] theorem Side.ptSet_host (f : Plat → Plat) : (s.ptSet f).host = s.host := (rfl)
@[simp] theorem Side.ptSet_fresh (f : Plat → Plat) : (s.ptSet f).fresh = s.fresh := (rfl)
@[simp] theorem Side.tvSet_id (f : Traverse → Traverse) : (s.tvSet f).id = s.id := (rfl)
@[simp] theorem Side.tvSet_part (f : Traverse → Traverse) : (s.tvSet f).part = s.part := (rfl)
@[simp] theorem Side.tvSet_phase (f : Traverse → Traverse) : (s.tvSet f).phase = s.phase := (rfl)
@[simp] theorem Side.tvSet_regs (f : Traverse → Traverse) : (s.tvSet f).regs = s.regs := (rfl)
@[simp] theorem Side.tvSet_mem (f : Traverse → Traverse) : (s.tvSet f).mem = s.mem := (rfl)
@[simp] theorem Side.tvSet_guards (f : Traverse → Traverse) : (s.tvSet f).guards = s.guards := (rfl)
@[simp] theorem Side.tvSet_grooms (f : Traverse → Traverse) : (s.tvSet f).grooms = s.grooms := (rfl)
@[simp] theorem Side.tvSet_returns (f : Traverse → Traverse) : (s.tvSet f).returns = s.returns := (rfl)
@[simp] theorem Side.tvSet_ops (f : Traverse → Traverse) : (s.tvSet f).ops = s.ops := (rfl)
@[simp] theorem Side.tvSet_rr (f : Traverse → Traverse) : (s.tvSet f).rr = s.rr := (rfl)
@[simp] theorem Side.tvSet_datum (f : Traverse → Traverse) : (s.tvSet f).datum = s.datum := (rfl)
@[simp] theorem Side.tvSet_lg (f : Traverse → Traverse) : (s.tvSet f).lg = s.lg := (rfl)
@[simp] theorem Side.tvSet_ing (f : Traverse → Traverse) : (s.tvSet f).ing = s.ing := (rfl)
@[simp] theorem Side.tvSet_tr (f : Traverse → Traverse) : (s.tvSet f).tr = s.tr := (rfl)
@[simp] theorem Side.tvSet_gt (f : Traverse → Traverse) : (s.tvSet f).gt = s.gt := (rfl)
@[simp] theorem Side.tvSet_pl (f : Traverse → Traverse) : (s.tvSet f).pl = s.pl := (rfl)
@[simp] theorem Side.tvSet_pt (f : Traverse → Traverse) : (s.tvSet f).pt = s.pt := (rfl)
@[simp] theorem Side.tvSet_br (f : Traverse → Traverse) : (s.tvSet f).br = s.br := (rfl)
@[simp] theorem Side.tvSet_mangers (f : Traverse → Traverse) : (s.tvSet f).mangers = s.mangers := (rfl)
@[simp] theorem Side.tvSet_outriders (f : Traverse → Traverse) : (s.tvSet f).outriders = s.outriders := (rfl)
@[simp] theorem Side.tvSet_scrubLine (f : Traverse → Traverse) : (s.tvSet f).scrubLine = s.scrubLine := (rfl)
@[simp] theorem Side.tvSet_xout (f : Traverse → Traverse) : (s.tvSet f).xout = s.xout := (rfl)
@[simp] theorem Side.tvSet_egress (f : Traverse → Traverse) : (s.tvSet f).egress = s.egress := (rfl)
@[simp] theorem Side.tvSet_events (f : Traverse → Traverse) : (s.tvSet f).events = s.events := (rfl)
@[simp] theorem Side.tvSet_unver (f : Traverse → Traverse) : (s.tvSet f).unver = s.unver := (rfl)
@[simp] theorem Side.tvSet_sw (f : Traverse → Traverse) : (s.tvSet f).sw = s.sw := (rfl)
@[simp] theorem Side.tvSet_kp (f : Traverse → Traverse) : (s.tvSet f).kp = s.kp := (rfl)
@[simp] theorem Side.tvSet_pm (f : Traverse → Traverse) : (s.tvSet f).pm = s.pm := (rfl)
@[simp] theorem Side.tvSet_power (f : Traverse → Traverse) : (s.tvSet f).power = s.power := (rfl)
@[simp] theorem Side.tvSet_acts (f : Traverse → Traverse) : (s.tvSet f).acts = s.acts := (rfl)
@[simp] theorem Side.tvSet_host (f : Traverse → Traverse) : (s.tvSet f).host = s.host := (rfl)
@[simp] theorem Side.tvSet_fresh (f : Traverse → Traverse) : (s.tvSet f).fresh = s.fresh := (rfl)
@[simp] theorem Side.brSet_id (f : Bridle → Bridle) : (s.brSet f).id = s.id := (rfl)
@[simp] theorem Side.brSet_part (f : Bridle → Bridle) : (s.brSet f).part = s.part := (rfl)
@[simp] theorem Side.brSet_phase (f : Bridle → Bridle) : (s.brSet f).phase = s.phase := (rfl)
@[simp] theorem Side.brSet_regs (f : Bridle → Bridle) : (s.brSet f).regs = s.regs := (rfl)
@[simp] theorem Side.brSet_mem (f : Bridle → Bridle) : (s.brSet f).mem = s.mem := (rfl)
@[simp] theorem Side.brSet_guards (f : Bridle → Bridle) : (s.brSet f).guards = s.guards := (rfl)
@[simp] theorem Side.brSet_grooms (f : Bridle → Bridle) : (s.brSet f).grooms = s.grooms := (rfl)
@[simp] theorem Side.brSet_returns (f : Bridle → Bridle) : (s.brSet f).returns = s.returns := (rfl)
@[simp] theorem Side.brSet_ops (f : Bridle → Bridle) : (s.brSet f).ops = s.ops := (rfl)
@[simp] theorem Side.brSet_rr (f : Bridle → Bridle) : (s.brSet f).rr = s.rr := (rfl)
@[simp] theorem Side.brSet_datum (f : Bridle → Bridle) : (s.brSet f).datum = s.datum := (rfl)
@[simp] theorem Side.brSet_lg (f : Bridle → Bridle) : (s.brSet f).lg = s.lg := (rfl)
@[simp] theorem Side.brSet_ing (f : Bridle → Bridle) : (s.brSet f).ing = s.ing := (rfl)
@[simp] theorem Side.brSet_tr (f : Bridle → Bridle) : (s.brSet f).tr = s.tr := (rfl)
@[simp] theorem Side.brSet_gt (f : Bridle → Bridle) : (s.brSet f).gt = s.gt := (rfl)
@[simp] theorem Side.brSet_pl (f : Bridle → Bridle) : (s.brSet f).pl = s.pl := (rfl)
@[simp] theorem Side.brSet_pt (f : Bridle → Bridle) : (s.brSet f).pt = s.pt := (rfl)
@[simp] theorem Side.brSet_tv (f : Bridle → Bridle) : (s.brSet f).tv = s.tv := (rfl)
@[simp] theorem Side.brSet_mangers (f : Bridle → Bridle) : (s.brSet f).mangers = s.mangers := (rfl)
@[simp] theorem Side.brSet_outriders (f : Bridle → Bridle) : (s.brSet f).outriders = s.outriders := (rfl)
@[simp] theorem Side.brSet_scrubLine (f : Bridle → Bridle) : (s.brSet f).scrubLine = s.scrubLine := (rfl)
@[simp] theorem Side.brSet_xout (f : Bridle → Bridle) : (s.brSet f).xout = s.xout := (rfl)
@[simp] theorem Side.brSet_egress (f : Bridle → Bridle) : (s.brSet f).egress = s.egress := (rfl)
@[simp] theorem Side.brSet_events (f : Bridle → Bridle) : (s.brSet f).events = s.events := (rfl)
@[simp] theorem Side.brSet_unver (f : Bridle → Bridle) : (s.brSet f).unver = s.unver := (rfl)
@[simp] theorem Side.brSet_sw (f : Bridle → Bridle) : (s.brSet f).sw = s.sw := (rfl)
@[simp] theorem Side.brSet_kp (f : Bridle → Bridle) : (s.brSet f).kp = s.kp := (rfl)
@[simp] theorem Side.brSet_pm (f : Bridle → Bridle) : (s.brSet f).pm = s.pm := (rfl)
@[simp] theorem Side.brSet_power (f : Bridle → Bridle) : (s.brSet f).power = s.power := (rfl)
@[simp] theorem Side.brSet_acts (f : Bridle → Bridle) : (s.brSet f).acts = s.acts := (rfl)
@[simp] theorem Side.brSet_host (f : Bridle → Bridle) : (s.brSet f).host = s.host := (rfl)
@[simp] theorem Side.brSet_fresh (f : Bridle → Bridle) : (s.brSet f).fresh = s.fresh := (rfl)
@[simp] theorem Side.haSet_id (f : HostAgent → HostAgent) : (s.haSet f).id = s.id := (rfl)
@[simp] theorem Side.haSet_part (f : HostAgent → HostAgent) : (s.haSet f).part = s.part := (rfl)
@[simp] theorem Side.haSet_phase (f : HostAgent → HostAgent) : (s.haSet f).phase = s.phase := (rfl)
@[simp] theorem Side.haSet_regs (f : HostAgent → HostAgent) : (s.haSet f).regs = s.regs := (rfl)
@[simp] theorem Side.haSet_mem (f : HostAgent → HostAgent) : (s.haSet f).mem = s.mem := (rfl)
@[simp] theorem Side.haSet_guards (f : HostAgent → HostAgent) : (s.haSet f).guards = s.guards := (rfl)
@[simp] theorem Side.haSet_grooms (f : HostAgent → HostAgent) : (s.haSet f).grooms = s.grooms := (rfl)
@[simp] theorem Side.haSet_returns (f : HostAgent → HostAgent) : (s.haSet f).returns = s.returns := (rfl)
@[simp] theorem Side.haSet_ops (f : HostAgent → HostAgent) : (s.haSet f).ops = s.ops := (rfl)
@[simp] theorem Side.haSet_rr (f : HostAgent → HostAgent) : (s.haSet f).rr = s.rr := (rfl)
@[simp] theorem Side.haSet_datum (f : HostAgent → HostAgent) : (s.haSet f).datum = s.datum := (rfl)
@[simp] theorem Side.haSet_lg (f : HostAgent → HostAgent) : (s.haSet f).lg = s.lg := (rfl)
@[simp] theorem Side.haSet_ing (f : HostAgent → HostAgent) : (s.haSet f).ing = s.ing := (rfl)
@[simp] theorem Side.haSet_tr (f : HostAgent → HostAgent) : (s.haSet f).tr = s.tr := (rfl)
@[simp] theorem Side.haSet_gt (f : HostAgent → HostAgent) : (s.haSet f).gt = s.gt := (rfl)
@[simp] theorem Side.haSet_pl (f : HostAgent → HostAgent) : (s.haSet f).pl = s.pl := (rfl)
@[simp] theorem Side.haSet_pt (f : HostAgent → HostAgent) : (s.haSet f).pt = s.pt := (rfl)
@[simp] theorem Side.haSet_tv (f : HostAgent → HostAgent) : (s.haSet f).tv = s.tv := (rfl)
@[simp] theorem Side.haSet_br (f : HostAgent → HostAgent) : (s.haSet f).br = s.br := (rfl)
@[simp] theorem Side.haSet_mangers (f : HostAgent → HostAgent) : (s.haSet f).mangers = s.mangers := (rfl)
@[simp] theorem Side.haSet_outriders (f : HostAgent → HostAgent) : (s.haSet f).outriders = s.outriders := (rfl)
@[simp] theorem Side.haSet_scrubLine (f : HostAgent → HostAgent) : (s.haSet f).scrubLine = s.scrubLine := (rfl)
@[simp] theorem Side.haSet_xout (f : HostAgent → HostAgent) : (s.haSet f).xout = s.xout := (rfl)
@[simp] theorem Side.haSet_egress (f : HostAgent → HostAgent) : (s.haSet f).egress = s.egress := (rfl)
@[simp] theorem Side.haSet_events (f : HostAgent → HostAgent) : (s.haSet f).events = s.events := (rfl)
@[simp] theorem Side.haSet_unver (f : HostAgent → HostAgent) : (s.haSet f).unver = s.unver := (rfl)
@[simp] theorem Side.haSet_sw (f : HostAgent → HostAgent) : (s.haSet f).sw = s.sw := (rfl)
@[simp] theorem Side.haSet_kp (f : HostAgent → HostAgent) : (s.haSet f).kp = s.kp := (rfl)
@[simp] theorem Side.haSet_pm (f : HostAgent → HostAgent) : (s.haSet f).pm = s.pm := (rfl)
@[simp] theorem Side.haSet_power (f : HostAgent → HostAgent) : (s.haSet f).power = s.power := (rfl)
@[simp] theorem Side.haSet_acts (f : HostAgent → HostAgent) : (s.haSet f).acts = s.acts := (rfl)
@[simp] theorem Side.haSet_fresh (f : HostAgent → HostAgent) : (s.haSet f).fresh = s.fresh := (rfl)
@[simp] theorem Side.kpSet_id (f : Keeper → Keeper) : (s.kpSet f).id = s.id := (rfl)
@[simp] theorem Side.kpSet_part (f : Keeper → Keeper) : (s.kpSet f).part = s.part := (rfl)
@[simp] theorem Side.kpSet_phase (f : Keeper → Keeper) : (s.kpSet f).phase = s.phase := (rfl)
@[simp] theorem Side.kpSet_regs (f : Keeper → Keeper) : (s.kpSet f).regs = s.regs := (rfl)
@[simp] theorem Side.kpSet_mem (f : Keeper → Keeper) : (s.kpSet f).mem = s.mem := (rfl)
@[simp] theorem Side.kpSet_guards (f : Keeper → Keeper) : (s.kpSet f).guards = s.guards := (rfl)
@[simp] theorem Side.kpSet_grooms (f : Keeper → Keeper) : (s.kpSet f).grooms = s.grooms := (rfl)
@[simp] theorem Side.kpSet_returns (f : Keeper → Keeper) : (s.kpSet f).returns = s.returns := (rfl)
@[simp] theorem Side.kpSet_ops (f : Keeper → Keeper) : (s.kpSet f).ops = s.ops := (rfl)
@[simp] theorem Side.kpSet_rr (f : Keeper → Keeper) : (s.kpSet f).rr = s.rr := (rfl)
@[simp] theorem Side.kpSet_datum (f : Keeper → Keeper) : (s.kpSet f).datum = s.datum := (rfl)
@[simp] theorem Side.kpSet_lg (f : Keeper → Keeper) : (s.kpSet f).lg = s.lg := (rfl)
@[simp] theorem Side.kpSet_ing (f : Keeper → Keeper) : (s.kpSet f).ing = s.ing := (rfl)
@[simp] theorem Side.kpSet_tr (f : Keeper → Keeper) : (s.kpSet f).tr = s.tr := (rfl)
@[simp] theorem Side.kpSet_gt (f : Keeper → Keeper) : (s.kpSet f).gt = s.gt := (rfl)
@[simp] theorem Side.kpSet_pl (f : Keeper → Keeper) : (s.kpSet f).pl = s.pl := (rfl)
@[simp] theorem Side.kpSet_pt (f : Keeper → Keeper) : (s.kpSet f).pt = s.pt := (rfl)
@[simp] theorem Side.kpSet_tv (f : Keeper → Keeper) : (s.kpSet f).tv = s.tv := (rfl)
@[simp] theorem Side.kpSet_br (f : Keeper → Keeper) : (s.kpSet f).br = s.br := (rfl)
@[simp] theorem Side.kpSet_mangers (f : Keeper → Keeper) : (s.kpSet f).mangers = s.mangers := (rfl)
@[simp] theorem Side.kpSet_outriders (f : Keeper → Keeper) : (s.kpSet f).outriders = s.outriders := (rfl)
@[simp] theorem Side.kpSet_scrubLine (f : Keeper → Keeper) : (s.kpSet f).scrubLine = s.scrubLine := (rfl)
@[simp] theorem Side.kpSet_xout (f : Keeper → Keeper) : (s.kpSet f).xout = s.xout := (rfl)
@[simp] theorem Side.kpSet_egress (f : Keeper → Keeper) : (s.kpSet f).egress = s.egress := (rfl)
@[simp] theorem Side.kpSet_events (f : Keeper → Keeper) : (s.kpSet f).events = s.events := (rfl)
@[simp] theorem Side.kpSet_unver (f : Keeper → Keeper) : (s.kpSet f).unver = s.unver := (rfl)
@[simp] theorem Side.kpSet_sw (f : Keeper → Keeper) : (s.kpSet f).sw = s.sw := (rfl)
@[simp] theorem Side.kpSet_pm (f : Keeper → Keeper) : (s.kpSet f).pm = s.pm := (rfl)
@[simp] theorem Side.kpSet_power (f : Keeper → Keeper) : (s.kpSet f).power = s.power := (rfl)
@[simp] theorem Side.kpSet_acts (f : Keeper → Keeper) : (s.kpSet f).acts = s.acts := (rfl)
@[simp] theorem Side.kpSet_host (f : Keeper → Keeper) : (s.kpSet f).host = s.host := (rfl)
@[simp] theorem Side.kpSet_fresh (f : Keeper → Keeper) : (s.kpSet f).fresh = s.fresh := (rfl)
@[simp] theorem Side.pmSet_id (f : Pm → Pm) : (s.pmSet f).id = s.id := (rfl)
@[simp] theorem Side.pmSet_part (f : Pm → Pm) : (s.pmSet f).part = s.part := (rfl)
@[simp] theorem Side.pmSet_phase (f : Pm → Pm) : (s.pmSet f).phase = s.phase := (rfl)
@[simp] theorem Side.pmSet_regs (f : Pm → Pm) : (s.pmSet f).regs = s.regs := (rfl)
@[simp] theorem Side.pmSet_mem (f : Pm → Pm) : (s.pmSet f).mem = s.mem := (rfl)
@[simp] theorem Side.pmSet_guards (f : Pm → Pm) : (s.pmSet f).guards = s.guards := (rfl)
@[simp] theorem Side.pmSet_grooms (f : Pm → Pm) : (s.pmSet f).grooms = s.grooms := (rfl)
@[simp] theorem Side.pmSet_returns (f : Pm → Pm) : (s.pmSet f).returns = s.returns := (rfl)
@[simp] theorem Side.pmSet_ops (f : Pm → Pm) : (s.pmSet f).ops = s.ops := (rfl)
@[simp] theorem Side.pmSet_rr (f : Pm → Pm) : (s.pmSet f).rr = s.rr := (rfl)
@[simp] theorem Side.pmSet_datum (f : Pm → Pm) : (s.pmSet f).datum = s.datum := (rfl)
@[simp] theorem Side.pmSet_lg (f : Pm → Pm) : (s.pmSet f).lg = s.lg := (rfl)
@[simp] theorem Side.pmSet_ing (f : Pm → Pm) : (s.pmSet f).ing = s.ing := (rfl)
@[simp] theorem Side.pmSet_tr (f : Pm → Pm) : (s.pmSet f).tr = s.tr := (rfl)
@[simp] theorem Side.pmSet_gt (f : Pm → Pm) : (s.pmSet f).gt = s.gt := (rfl)
@[simp] theorem Side.pmSet_pl (f : Pm → Pm) : (s.pmSet f).pl = s.pl := (rfl)
@[simp] theorem Side.pmSet_pt (f : Pm → Pm) : (s.pmSet f).pt = s.pt := (rfl)
@[simp] theorem Side.pmSet_tv (f : Pm → Pm) : (s.pmSet f).tv = s.tv := (rfl)
@[simp] theorem Side.pmSet_br (f : Pm → Pm) : (s.pmSet f).br = s.br := (rfl)
@[simp] theorem Side.pmSet_mangers (f : Pm → Pm) : (s.pmSet f).mangers = s.mangers := (rfl)
@[simp] theorem Side.pmSet_outriders (f : Pm → Pm) : (s.pmSet f).outriders = s.outriders := (rfl)
@[simp] theorem Side.pmSet_scrubLine (f : Pm → Pm) : (s.pmSet f).scrubLine = s.scrubLine := (rfl)
@[simp] theorem Side.pmSet_xout (f : Pm → Pm) : (s.pmSet f).xout = s.xout := (rfl)
@[simp] theorem Side.pmSet_egress (f : Pm → Pm) : (s.pmSet f).egress = s.egress := (rfl)
@[simp] theorem Side.pmSet_events (f : Pm → Pm) : (s.pmSet f).events = s.events := (rfl)
@[simp] theorem Side.pmSet_unver (f : Pm → Pm) : (s.pmSet f).unver = s.unver := (rfl)
@[simp] theorem Side.pmSet_sw (f : Pm → Pm) : (s.pmSet f).sw = s.sw := (rfl)
@[simp] theorem Side.pmSet_kp (f : Pm → Pm) : (s.pmSet f).kp = s.kp := (rfl)
@[simp] theorem Side.pmSet_power (f : Pm → Pm) : (s.pmSet f).power = s.power := (rfl)
@[simp] theorem Side.pmSet_acts (f : Pm → Pm) : (s.pmSet f).acts = s.acts := (rfl)
@[simp] theorem Side.pmSet_host (f : Pm → Pm) : (s.pmSet f).host = s.host := (rfl)
@[simp] theorem Side.pmSet_fresh (f : Pm → Pm) : (s.pmSet f).fresh = s.fresh := (rfl)
@[simp] theorem Side.onSlot_id (i : Nat) (f : Slot → Slot) : (s.onSlot i f).id = s.id := (rfl)
@[simp] theorem Side.onSlot_part (i : Nat) (f : Slot → Slot) : (s.onSlot i f).part = s.part := (rfl)
@[simp] theorem Side.onSlot_phase (i : Nat) (f : Slot → Slot) : (s.onSlot i f).phase = s.phase := (rfl)
@[simp] theorem Side.onSlot_regs (i : Nat) (f : Slot → Slot) : (s.onSlot i f).regs = s.regs := (rfl)
@[simp] theorem Side.onSlot_mem (i : Nat) (f : Slot → Slot) : (s.onSlot i f).mem = s.mem := (rfl)
@[simp] theorem Side.onSlot_guards (i : Nat) (f : Slot → Slot) : (s.onSlot i f).guards = s.guards := (rfl)
@[simp] theorem Side.onSlot_grooms (i : Nat) (f : Slot → Slot) : (s.onSlot i f).grooms = s.grooms := (rfl)
@[simp] theorem Side.onSlot_returns (i : Nat) (f : Slot → Slot) : (s.onSlot i f).returns = s.returns := (rfl)
@[simp] theorem Side.onSlot_ops (i : Nat) (f : Slot → Slot) : (s.onSlot i f).ops = s.ops := (rfl)
@[simp] theorem Side.onSlot_rr (i : Nat) (f : Slot → Slot) : (s.onSlot i f).rr = s.rr := (rfl)
@[simp] theorem Side.onSlot_datum (i : Nat) (f : Slot → Slot) : (s.onSlot i f).datum = s.datum := (rfl)
@[simp] theorem Side.onSlot_lg (i : Nat) (f : Slot → Slot) : (s.onSlot i f).lg = s.lg := (rfl)
@[simp] theorem Side.onSlot_tr (i : Nat) (f : Slot → Slot) : (s.onSlot i f).tr = s.tr := (rfl)
@[simp] theorem Side.onSlot_gt (i : Nat) (f : Slot → Slot) : (s.onSlot i f).gt = s.gt := (rfl)
@[simp] theorem Side.onSlot_pl (i : Nat) (f : Slot → Slot) : (s.onSlot i f).pl = s.pl := (rfl)
@[simp] theorem Side.onSlot_pt (i : Nat) (f : Slot → Slot) : (s.onSlot i f).pt = s.pt := (rfl)
@[simp] theorem Side.onSlot_tv (i : Nat) (f : Slot → Slot) : (s.onSlot i f).tv = s.tv := (rfl)
@[simp] theorem Side.onSlot_br (i : Nat) (f : Slot → Slot) : (s.onSlot i f).br = s.br := (rfl)
@[simp] theorem Side.onSlot_mangers (i : Nat) (f : Slot → Slot) : (s.onSlot i f).mangers = s.mangers := (rfl)
@[simp] theorem Side.onSlot_outriders (i : Nat) (f : Slot → Slot) : (s.onSlot i f).outriders = s.outriders := (rfl)
@[simp] theorem Side.onSlot_scrubLine (i : Nat) (f : Slot → Slot) : (s.onSlot i f).scrubLine = s.scrubLine := (rfl)
@[simp] theorem Side.onSlot_xout (i : Nat) (f : Slot → Slot) : (s.onSlot i f).xout = s.xout := (rfl)
@[simp] theorem Side.onSlot_egress (i : Nat) (f : Slot → Slot) : (s.onSlot i f).egress = s.egress := (rfl)
@[simp] theorem Side.onSlot_events (i : Nat) (f : Slot → Slot) : (s.onSlot i f).events = s.events := (rfl)
@[simp] theorem Side.onSlot_unver (i : Nat) (f : Slot → Slot) : (s.onSlot i f).unver = s.unver := (rfl)
@[simp] theorem Side.onSlot_sw (i : Nat) (f : Slot → Slot) : (s.onSlot i f).sw = s.sw := (rfl)
@[simp] theorem Side.onSlot_kp (i : Nat) (f : Slot → Slot) : (s.onSlot i f).kp = s.kp := (rfl)
@[simp] theorem Side.onSlot_pm (i : Nat) (f : Slot → Slot) : (s.onSlot i f).pm = s.pm := (rfl)
@[simp] theorem Side.onSlot_power (i : Nat) (f : Slot → Slot) : (s.onSlot i f).power = s.power := (rfl)
@[simp] theorem Side.onSlot_acts (i : Nat) (f : Slot → Slot) : (s.onSlot i f).acts = s.acts := (rfl)
@[simp] theorem Side.onSlot_host (i : Nat) (f : Slot → Slot) : (s.onSlot i f).host = s.host := (rfl)
@[simp] theorem Side.onSlot_fresh (i : Nat) (f : Slot → Slot) : (s.onSlot i f).fresh = s.fresh := (rfl)
@[simp] theorem Side.onStream_id (i : Nat) (f : TrStream → TrStream) : (s.onStream i f).id = s.id := (rfl)
@[simp] theorem Side.onStream_part (i : Nat) (f : TrStream → TrStream) : (s.onStream i f).part = s.part := (rfl)
@[simp] theorem Side.onStream_phase (i : Nat) (f : TrStream → TrStream) : (s.onStream i f).phase = s.phase := (rfl)
@[simp] theorem Side.onStream_regs (i : Nat) (f : TrStream → TrStream) : (s.onStream i f).regs = s.regs := (rfl)
@[simp] theorem Side.onStream_mem (i : Nat) (f : TrStream → TrStream) : (s.onStream i f).mem = s.mem := (rfl)
@[simp] theorem Side.onStream_guards (i : Nat) (f : TrStream → TrStream) : (s.onStream i f).guards = s.guards := (rfl)
@[simp] theorem Side.onStream_grooms (i : Nat) (f : TrStream → TrStream) : (s.onStream i f).grooms = s.grooms := (rfl)
@[simp] theorem Side.onStream_returns (i : Nat) (f : TrStream → TrStream) : (s.onStream i f).returns = s.returns := (rfl)
@[simp] theorem Side.onStream_ops (i : Nat) (f : TrStream → TrStream) : (s.onStream i f).ops = s.ops := (rfl)
@[simp] theorem Side.onStream_rr (i : Nat) (f : TrStream → TrStream) : (s.onStream i f).rr = s.rr := (rfl)
@[simp] theorem Side.onStream_datum (i : Nat) (f : TrStream → TrStream) : (s.onStream i f).datum = s.datum := (rfl)
@[simp] theorem Side.onStream_lg (i : Nat) (f : TrStream → TrStream) : (s.onStream i f).lg = s.lg := (rfl)
@[simp] theorem Side.onStream_ing (i : Nat) (f : TrStream → TrStream) : (s.onStream i f).ing = s.ing := (rfl)
@[simp] theorem Side.onStream_gt (i : Nat) (f : TrStream → TrStream) : (s.onStream i f).gt = s.gt := (rfl)
@[simp] theorem Side.onStream_pl (i : Nat) (f : TrStream → TrStream) : (s.onStream i f).pl = s.pl := (rfl)
@[simp] theorem Side.onStream_pt (i : Nat) (f : TrStream → TrStream) : (s.onStream i f).pt = s.pt := (rfl)
@[simp] theorem Side.onStream_tv (i : Nat) (f : TrStream → TrStream) : (s.onStream i f).tv = s.tv := (rfl)
@[simp] theorem Side.onStream_br (i : Nat) (f : TrStream → TrStream) : (s.onStream i f).br = s.br := (rfl)
@[simp] theorem Side.onStream_mangers (i : Nat) (f : TrStream → TrStream) : (s.onStream i f).mangers = s.mangers := (rfl)
@[simp] theorem Side.onStream_outriders (i : Nat) (f : TrStream → TrStream) : (s.onStream i f).outriders = s.outriders := (rfl)
@[simp] theorem Side.onStream_scrubLine (i : Nat) (f : TrStream → TrStream) : (s.onStream i f).scrubLine = s.scrubLine := (rfl)
@[simp] theorem Side.onStream_xout (i : Nat) (f : TrStream → TrStream) : (s.onStream i f).xout = s.xout := (rfl)
@[simp] theorem Side.onStream_egress (i : Nat) (f : TrStream → TrStream) : (s.onStream i f).egress = s.egress := (rfl)
@[simp] theorem Side.onStream_events (i : Nat) (f : TrStream → TrStream) : (s.onStream i f).events = s.events := (rfl)
@[simp] theorem Side.onStream_unver (i : Nat) (f : TrStream → TrStream) : (s.onStream i f).unver = s.unver := (rfl)
@[simp] theorem Side.onStream_sw (i : Nat) (f : TrStream → TrStream) : (s.onStream i f).sw = s.sw := (rfl)
@[simp] theorem Side.onStream_kp (i : Nat) (f : TrStream → TrStream) : (s.onStream i f).kp = s.kp := (rfl)
@[simp] theorem Side.onStream_pm (i : Nat) (f : TrStream → TrStream) : (s.onStream i f).pm = s.pm := (rfl)
@[simp] theorem Side.onStream_power (i : Nat) (f : TrStream → TrStream) : (s.onStream i f).power = s.power := (rfl)
@[simp] theorem Side.onStream_acts (i : Nat) (f : TrStream → TrStream) : (s.onStream i f).acts = s.acts := (rfl)
@[simp] theorem Side.onStream_host (i : Nat) (f : TrStream → TrStream) : (s.onStream i f).host = s.host := (rfl)
@[simp] theorem Side.onStream_fresh (i : Nat) (f : TrStream → TrStream) : (s.onStream i f).fresh = s.fresh := (rfl)
@[simp] theorem Side.onTrot_id (u i : Nat) (f : TrotUnit → TrotUnit) : (s.onTrot u i f).id = s.id := (rfl)
@[simp] theorem Side.onTrot_part (u i : Nat) (f : TrotUnit → TrotUnit) : (s.onTrot u i f).part = s.part := (rfl)
@[simp] theorem Side.onTrot_phase (u i : Nat) (f : TrotUnit → TrotUnit) : (s.onTrot u i f).phase = s.phase := (rfl)
@[simp] theorem Side.onTrot_regs (u i : Nat) (f : TrotUnit → TrotUnit) : (s.onTrot u i f).regs = s.regs := (rfl)
@[simp] theorem Side.onTrot_mem (u i : Nat) (f : TrotUnit → TrotUnit) : (s.onTrot u i f).mem = s.mem := (rfl)
@[simp] theorem Side.onTrot_guards (u i : Nat) (f : TrotUnit → TrotUnit) : (s.onTrot u i f).guards = s.guards := (rfl)
@[simp] theorem Side.onTrot_grooms (u i : Nat) (f : TrotUnit → TrotUnit) : (s.onTrot u i f).grooms = s.grooms := (rfl)
@[simp] theorem Side.onTrot_returns (u i : Nat) (f : TrotUnit → TrotUnit) : (s.onTrot u i f).returns = s.returns := (rfl)
@[simp] theorem Side.onTrot_ops (u i : Nat) (f : TrotUnit → TrotUnit) : (s.onTrot u i f).ops = s.ops := (rfl)
@[simp] theorem Side.onTrot_rr (u i : Nat) (f : TrotUnit → TrotUnit) : (s.onTrot u i f).rr = s.rr := (rfl)
@[simp] theorem Side.onTrot_datum (u i : Nat) (f : TrotUnit → TrotUnit) : (s.onTrot u i f).datum = s.datum := (rfl)
@[simp] theorem Side.onTrot_lg (u i : Nat) (f : TrotUnit → TrotUnit) : (s.onTrot u i f).lg = s.lg := (rfl)
@[simp] theorem Side.onTrot_ing (u i : Nat) (f : TrotUnit → TrotUnit) : (s.onTrot u i f).ing = s.ing := (rfl)
@[simp] theorem Side.onTrot_tr (u i : Nat) (f : TrotUnit → TrotUnit) : (s.onTrot u i f).tr = s.tr := (rfl)
@[simp] theorem Side.onTrot_gt (u i : Nat) (f : TrotUnit → TrotUnit) : (s.onTrot u i f).gt = s.gt := (rfl)
@[simp] theorem Side.onTrot_pl (u i : Nat) (f : TrotUnit → TrotUnit) : (s.onTrot u i f).pl = s.pl := (rfl)
@[simp] theorem Side.onTrot_pt (u i : Nat) (f : TrotUnit → TrotUnit) : (s.onTrot u i f).pt = s.pt := (rfl)
@[simp] theorem Side.onTrot_tv (u i : Nat) (f : TrotUnit → TrotUnit) : (s.onTrot u i f).tv = s.tv := (rfl)
@[simp] theorem Side.onTrot_br (u i : Nat) (f : TrotUnit → TrotUnit) : (s.onTrot u i f).br = s.br := (rfl)
@[simp] theorem Side.onTrot_mangers (u i : Nat) (f : TrotUnit → TrotUnit) : (s.onTrot u i f).mangers = s.mangers := (rfl)
@[simp] theorem Side.onTrot_outriders (u i : Nat) (f : TrotUnit → TrotUnit) : (s.onTrot u i f).outriders = s.outriders := (rfl)
@[simp] theorem Side.onTrot_scrubLine (u i : Nat) (f : TrotUnit → TrotUnit) : (s.onTrot u i f).scrubLine = s.scrubLine := (rfl)
@[simp] theorem Side.onTrot_xout (u i : Nat) (f : TrotUnit → TrotUnit) : (s.onTrot u i f).xout = s.xout := (rfl)
@[simp] theorem Side.onTrot_egress (u i : Nat) (f : TrotUnit → TrotUnit) : (s.onTrot u i f).egress = s.egress := (rfl)
@[simp] theorem Side.onTrot_events (u i : Nat) (f : TrotUnit → TrotUnit) : (s.onTrot u i f).events = s.events := (rfl)
@[simp] theorem Side.onTrot_unver (u i : Nat) (f : TrotUnit → TrotUnit) : (s.onTrot u i f).unver = s.unver := (rfl)
@[simp] theorem Side.onTrot_kp (u i : Nat) (f : TrotUnit → TrotUnit) : (s.onTrot u i f).kp = s.kp := (rfl)
@[simp] theorem Side.onTrot_pm (u i : Nat) (f : TrotUnit → TrotUnit) : (s.onTrot u i f).pm = s.pm := (rfl)
@[simp] theorem Side.onTrot_power (u i : Nat) (f : TrotUnit → TrotUnit) : (s.onTrot u i f).power = s.power := (rfl)
@[simp] theorem Side.onTrot_acts (u i : Nat) (f : TrotUnit → TrotUnit) : (s.onTrot u i f).acts = s.acts := (rfl)
@[simp] theorem Side.onTrot_host (u i : Nat) (f : TrotUnit → TrotUnit) : (s.onTrot u i f).host = s.host := (rfl)
@[simp] theorem Side.onTrot_fresh (u i : Nat) (f : TrotUnit → TrotUnit) : (s.onTrot u i f).fresh = s.fresh := (rfl)
@[simp] theorem Side.onManger_id (e : Nat) (f : Manger → Manger) : (s.onManger e f).id = s.id := (rfl)
@[simp] theorem Side.onManger_part (e : Nat) (f : Manger → Manger) : (s.onManger e f).part = s.part := (rfl)
@[simp] theorem Side.onManger_phase (e : Nat) (f : Manger → Manger) : (s.onManger e f).phase = s.phase := (rfl)
@[simp] theorem Side.onManger_regs (e : Nat) (f : Manger → Manger) : (s.onManger e f).regs = s.regs := (rfl)
@[simp] theorem Side.onManger_mem (e : Nat) (f : Manger → Manger) : (s.onManger e f).mem = s.mem := (rfl)
@[simp] theorem Side.onManger_guards (e : Nat) (f : Manger → Manger) : (s.onManger e f).guards = s.guards := (rfl)
@[simp] theorem Side.onManger_grooms (e : Nat) (f : Manger → Manger) : (s.onManger e f).grooms = s.grooms := (rfl)
@[simp] theorem Side.onManger_returns (e : Nat) (f : Manger → Manger) : (s.onManger e f).returns = s.returns := (rfl)
@[simp] theorem Side.onManger_ops (e : Nat) (f : Manger → Manger) : (s.onManger e f).ops = s.ops := (rfl)
@[simp] theorem Side.onManger_rr (e : Nat) (f : Manger → Manger) : (s.onManger e f).rr = s.rr := (rfl)
@[simp] theorem Side.onManger_datum (e : Nat) (f : Manger → Manger) : (s.onManger e f).datum = s.datum := (rfl)
@[simp] theorem Side.onManger_lg (e : Nat) (f : Manger → Manger) : (s.onManger e f).lg = s.lg := (rfl)
@[simp] theorem Side.onManger_ing (e : Nat) (f : Manger → Manger) : (s.onManger e f).ing = s.ing := (rfl)
@[simp] theorem Side.onManger_tr (e : Nat) (f : Manger → Manger) : (s.onManger e f).tr = s.tr := (rfl)
@[simp] theorem Side.onManger_gt (e : Nat) (f : Manger → Manger) : (s.onManger e f).gt = s.gt := (rfl)
@[simp] theorem Side.onManger_pl (e : Nat) (f : Manger → Manger) : (s.onManger e f).pl = s.pl := (rfl)
@[simp] theorem Side.onManger_pt (e : Nat) (f : Manger → Manger) : (s.onManger e f).pt = s.pt := (rfl)
@[simp] theorem Side.onManger_tv (e : Nat) (f : Manger → Manger) : (s.onManger e f).tv = s.tv := (rfl)
@[simp] theorem Side.onManger_br (e : Nat) (f : Manger → Manger) : (s.onManger e f).br = s.br := (rfl)
@[simp] theorem Side.onManger_outriders (e : Nat) (f : Manger → Manger) : (s.onManger e f).outriders = s.outriders := (rfl)
@[simp] theorem Side.onManger_scrubLine (e : Nat) (f : Manger → Manger) : (s.onManger e f).scrubLine = s.scrubLine := (rfl)
@[simp] theorem Side.onManger_xout (e : Nat) (f : Manger → Manger) : (s.onManger e f).xout = s.xout := (rfl)
@[simp] theorem Side.onManger_egress (e : Nat) (f : Manger → Manger) : (s.onManger e f).egress = s.egress := (rfl)
@[simp] theorem Side.onManger_events (e : Nat) (f : Manger → Manger) : (s.onManger e f).events = s.events := (rfl)
@[simp] theorem Side.onManger_unver (e : Nat) (f : Manger → Manger) : (s.onManger e f).unver = s.unver := (rfl)
@[simp] theorem Side.onManger_sw (e : Nat) (f : Manger → Manger) : (s.onManger e f).sw = s.sw := (rfl)
@[simp] theorem Side.onManger_kp (e : Nat) (f : Manger → Manger) : (s.onManger e f).kp = s.kp := (rfl)
@[simp] theorem Side.onManger_pm (e : Nat) (f : Manger → Manger) : (s.onManger e f).pm = s.pm := (rfl)
@[simp] theorem Side.onManger_power (e : Nat) (f : Manger → Manger) : (s.onManger e f).power = s.power := (rfl)
@[simp] theorem Side.onManger_acts (e : Nat) (f : Manger → Manger) : (s.onManger e f).acts = s.acts := (rfl)
@[simp] theorem Side.onManger_host (e : Nat) (f : Manger → Manger) : (s.onManger e f).host = s.host := (rfl)
@[simp] theorem Side.onManger_fresh (e : Nat) (f : Manger → Manger) : (s.onManger e f).fresh = s.fresh := (rfl)
@[simp] theorem Side.onOutrider_id (i : Nat) (f : Outrider → Outrider) : (s.onOutrider i f).id = s.id := (rfl)
@[simp] theorem Side.onOutrider_part (i : Nat) (f : Outrider → Outrider) : (s.onOutrider i f).part = s.part := (rfl)
@[simp] theorem Side.onOutrider_phase (i : Nat) (f : Outrider → Outrider) : (s.onOutrider i f).phase = s.phase := (rfl)
@[simp] theorem Side.onOutrider_regs (i : Nat) (f : Outrider → Outrider) : (s.onOutrider i f).regs = s.regs := (rfl)
@[simp] theorem Side.onOutrider_mem (i : Nat) (f : Outrider → Outrider) : (s.onOutrider i f).mem = s.mem := (rfl)
@[simp] theorem Side.onOutrider_guards (i : Nat) (f : Outrider → Outrider) : (s.onOutrider i f).guards = s.guards := (rfl)
@[simp] theorem Side.onOutrider_grooms (i : Nat) (f : Outrider → Outrider) : (s.onOutrider i f).grooms = s.grooms := (rfl)
@[simp] theorem Side.onOutrider_returns (i : Nat) (f : Outrider → Outrider) : (s.onOutrider i f).returns = s.returns := (rfl)
@[simp] theorem Side.onOutrider_ops (i : Nat) (f : Outrider → Outrider) : (s.onOutrider i f).ops = s.ops := (rfl)
@[simp] theorem Side.onOutrider_rr (i : Nat) (f : Outrider → Outrider) : (s.onOutrider i f).rr = s.rr := (rfl)
@[simp] theorem Side.onOutrider_datum (i : Nat) (f : Outrider → Outrider) : (s.onOutrider i f).datum = s.datum := (rfl)
@[simp] theorem Side.onOutrider_lg (i : Nat) (f : Outrider → Outrider) : (s.onOutrider i f).lg = s.lg := (rfl)
@[simp] theorem Side.onOutrider_ing (i : Nat) (f : Outrider → Outrider) : (s.onOutrider i f).ing = s.ing := (rfl)
@[simp] theorem Side.onOutrider_tr (i : Nat) (f : Outrider → Outrider) : (s.onOutrider i f).tr = s.tr := (rfl)
@[simp] theorem Side.onOutrider_gt (i : Nat) (f : Outrider → Outrider) : (s.onOutrider i f).gt = s.gt := (rfl)
@[simp] theorem Side.onOutrider_pl (i : Nat) (f : Outrider → Outrider) : (s.onOutrider i f).pl = s.pl := (rfl)
@[simp] theorem Side.onOutrider_pt (i : Nat) (f : Outrider → Outrider) : (s.onOutrider i f).pt = s.pt := (rfl)
@[simp] theorem Side.onOutrider_tv (i : Nat) (f : Outrider → Outrider) : (s.onOutrider i f).tv = s.tv := (rfl)
@[simp] theorem Side.onOutrider_br (i : Nat) (f : Outrider → Outrider) : (s.onOutrider i f).br = s.br := (rfl)
@[simp] theorem Side.onOutrider_mangers (i : Nat) (f : Outrider → Outrider) : (s.onOutrider i f).mangers = s.mangers := (rfl)
@[simp] theorem Side.onOutrider_scrubLine (i : Nat) (f : Outrider → Outrider) : (s.onOutrider i f).scrubLine = s.scrubLine := (rfl)
@[simp] theorem Side.onOutrider_xout (i : Nat) (f : Outrider → Outrider) : (s.onOutrider i f).xout = s.xout := (rfl)
@[simp] theorem Side.onOutrider_egress (i : Nat) (f : Outrider → Outrider) : (s.onOutrider i f).egress = s.egress := (rfl)
@[simp] theorem Side.onOutrider_events (i : Nat) (f : Outrider → Outrider) : (s.onOutrider i f).events = s.events := (rfl)
@[simp] theorem Side.onOutrider_unver (i : Nat) (f : Outrider → Outrider) : (s.onOutrider i f).unver = s.unver := (rfl)
@[simp] theorem Side.onOutrider_sw (i : Nat) (f : Outrider → Outrider) : (s.onOutrider i f).sw = s.sw := (rfl)
@[simp] theorem Side.onOutrider_kp (i : Nat) (f : Outrider → Outrider) : (s.onOutrider i f).kp = s.kp := (rfl)
@[simp] theorem Side.onOutrider_pm (i : Nat) (f : Outrider → Outrider) : (s.onOutrider i f).pm = s.pm := (rfl)
@[simp] theorem Side.onOutrider_power (i : Nat) (f : Outrider → Outrider) : (s.onOutrider i f).power = s.power := (rfl)
@[simp] theorem Side.onOutrider_acts (i : Nat) (f : Outrider → Outrider) : (s.onOutrider i f).acts = s.acts := (rfl)
@[simp] theorem Side.onOutrider_host (i : Nat) (f : Outrider → Outrider) : (s.onOutrider i f).host = s.host := (rfl)
@[simp] theorem Side.onOutrider_fresh (i : Nat) (f : Outrider → Outrider) : (s.onOutrider i f).fresh = s.fresh := (rfl)
@[simp] theorem Side.onRings_id (i c : Nat) (f : OrRings → OrRings) : (s.onRings i c f).id = s.id := (rfl)
@[simp] theorem Side.onRings_part (i c : Nat) (f : OrRings → OrRings) : (s.onRings i c f).part = s.part := (rfl)
@[simp] theorem Side.onRings_phase (i c : Nat) (f : OrRings → OrRings) : (s.onRings i c f).phase = s.phase := (rfl)
@[simp] theorem Side.onRings_regs (i c : Nat) (f : OrRings → OrRings) : (s.onRings i c f).regs = s.regs := (rfl)
@[simp] theorem Side.onRings_mem (i c : Nat) (f : OrRings → OrRings) : (s.onRings i c f).mem = s.mem := (rfl)
@[simp] theorem Side.onRings_guards (i c : Nat) (f : OrRings → OrRings) : (s.onRings i c f).guards = s.guards := (rfl)
@[simp] theorem Side.onRings_grooms (i c : Nat) (f : OrRings → OrRings) : (s.onRings i c f).grooms = s.grooms := (rfl)
@[simp] theorem Side.onRings_returns (i c : Nat) (f : OrRings → OrRings) : (s.onRings i c f).returns = s.returns := (rfl)
@[simp] theorem Side.onRings_ops (i c : Nat) (f : OrRings → OrRings) : (s.onRings i c f).ops = s.ops := (rfl)
@[simp] theorem Side.onRings_rr (i c : Nat) (f : OrRings → OrRings) : (s.onRings i c f).rr = s.rr := (rfl)
@[simp] theorem Side.onRings_datum (i c : Nat) (f : OrRings → OrRings) : (s.onRings i c f).datum = s.datum := (rfl)
@[simp] theorem Side.onRings_lg (i c : Nat) (f : OrRings → OrRings) : (s.onRings i c f).lg = s.lg := (rfl)
@[simp] theorem Side.onRings_ing (i c : Nat) (f : OrRings → OrRings) : (s.onRings i c f).ing = s.ing := (rfl)
@[simp] theorem Side.onRings_tr (i c : Nat) (f : OrRings → OrRings) : (s.onRings i c f).tr = s.tr := (rfl)
@[simp] theorem Side.onRings_gt (i c : Nat) (f : OrRings → OrRings) : (s.onRings i c f).gt = s.gt := (rfl)
@[simp] theorem Side.onRings_pl (i c : Nat) (f : OrRings → OrRings) : (s.onRings i c f).pl = s.pl := (rfl)
@[simp] theorem Side.onRings_pt (i c : Nat) (f : OrRings → OrRings) : (s.onRings i c f).pt = s.pt := (rfl)
@[simp] theorem Side.onRings_tv (i c : Nat) (f : OrRings → OrRings) : (s.onRings i c f).tv = s.tv := (rfl)
@[simp] theorem Side.onRings_br (i c : Nat) (f : OrRings → OrRings) : (s.onRings i c f).br = s.br := (rfl)
@[simp] theorem Side.onRings_mangers (i c : Nat) (f : OrRings → OrRings) : (s.onRings i c f).mangers = s.mangers := (rfl)
@[simp] theorem Side.onRings_scrubLine (i c : Nat) (f : OrRings → OrRings) : (s.onRings i c f).scrubLine = s.scrubLine := (rfl)
@[simp] theorem Side.onRings_xout (i c : Nat) (f : OrRings → OrRings) : (s.onRings i c f).xout = s.xout := (rfl)
@[simp] theorem Side.onRings_egress (i c : Nat) (f : OrRings → OrRings) : (s.onRings i c f).egress = s.egress := (rfl)
@[simp] theorem Side.onRings_events (i c : Nat) (f : OrRings → OrRings) : (s.onRings i c f).events = s.events := (rfl)
@[simp] theorem Side.onRings_unver (i c : Nat) (f : OrRings → OrRings) : (s.onRings i c f).unver = s.unver := (rfl)
@[simp] theorem Side.onRings_sw (i c : Nat) (f : OrRings → OrRings) : (s.onRings i c f).sw = s.sw := (rfl)
@[simp] theorem Side.onRings_kp (i c : Nat) (f : OrRings → OrRings) : (s.onRings i c f).kp = s.kp := (rfl)
@[simp] theorem Side.onRings_pm (i c : Nat) (f : OrRings → OrRings) : (s.onRings i c f).pm = s.pm := (rfl)
@[simp] theorem Side.onRings_power (i c : Nat) (f : OrRings → OrRings) : (s.onRings i c f).power = s.power := (rfl)
@[simp] theorem Side.onRings_acts (i c : Nat) (f : OrRings → OrRings) : (s.onRings i c f).acts = s.acts := (rfl)
@[simp] theorem Side.onRings_host (i c : Nat) (f : OrRings → OrRings) : (s.onRings i c f).host = s.host := (rfl)
@[simp] theorem Side.onRings_fresh (i c : Nat) (f : OrRings → OrRings) : (s.onRings i c f).fresh = s.fresh := (rfl)
@[simp] theorem Side.send_id (p : Nat) (bs : List Byte) : (s.send p bs).id = s.id := (rfl)
@[simp] theorem Side.send_part (p : Nat) (bs : List Byte) : (s.send p bs).part = s.part := (rfl)
@[simp] theorem Side.send_phase (p : Nat) (bs : List Byte) : (s.send p bs).phase = s.phase := (rfl)
@[simp] theorem Side.send_regs (p : Nat) (bs : List Byte) : (s.send p bs).regs = s.regs := (rfl)
@[simp] theorem Side.send_mem (p : Nat) (bs : List Byte) : (s.send p bs).mem = s.mem := (rfl)
@[simp] theorem Side.send_guards (p : Nat) (bs : List Byte) : (s.send p bs).guards = s.guards := (rfl)
@[simp] theorem Side.send_grooms (p : Nat) (bs : List Byte) : (s.send p bs).grooms = s.grooms := (rfl)
@[simp] theorem Side.send_returns (p : Nat) (bs : List Byte) : (s.send p bs).returns = s.returns := (rfl)
@[simp] theorem Side.send_ops (p : Nat) (bs : List Byte) : (s.send p bs).ops = s.ops := (rfl)
@[simp] theorem Side.send_rr (p : Nat) (bs : List Byte) : (s.send p bs).rr = s.rr := (rfl)
@[simp] theorem Side.send_datum (p : Nat) (bs : List Byte) : (s.send p bs).datum = s.datum := (rfl)
@[simp] theorem Side.send_lg (p : Nat) (bs : List Byte) : (s.send p bs).lg = s.lg := (rfl)
@[simp] theorem Side.send_ing (p : Nat) (bs : List Byte) : (s.send p bs).ing = s.ing := (rfl)
@[simp] theorem Side.send_tr (p : Nat) (bs : List Byte) : (s.send p bs).tr = s.tr := (rfl)
@[simp] theorem Side.send_gt (p : Nat) (bs : List Byte) : (s.send p bs).gt = s.gt := (rfl)
@[simp] theorem Side.send_pl (p : Nat) (bs : List Byte) : (s.send p bs).pl = s.pl := (rfl)
@[simp] theorem Side.send_pt (p : Nat) (bs : List Byte) : (s.send p bs).pt = s.pt := (rfl)
@[simp] theorem Side.send_tv (p : Nat) (bs : List Byte) : (s.send p bs).tv = s.tv := (rfl)
@[simp] theorem Side.send_br (p : Nat) (bs : List Byte) : (s.send p bs).br = s.br := (rfl)
@[simp] theorem Side.send_mangers (p : Nat) (bs : List Byte) : (s.send p bs).mangers = s.mangers := (rfl)
@[simp] theorem Side.send_outriders (p : Nat) (bs : List Byte) : (s.send p bs).outriders = s.outriders := (rfl)
@[simp] theorem Side.send_scrubLine (p : Nat) (bs : List Byte) : (s.send p bs).scrubLine = s.scrubLine := (rfl)
@[simp] theorem Side.send_xout (p : Nat) (bs : List Byte) : (s.send p bs).xout = s.xout := (rfl)
@[simp] theorem Side.send_events (p : Nat) (bs : List Byte) : (s.send p bs).events = s.events := (rfl)
@[simp] theorem Side.send_unver (p : Nat) (bs : List Byte) : (s.send p bs).unver = s.unver := (rfl)
@[simp] theorem Side.send_sw (p : Nat) (bs : List Byte) : (s.send p bs).sw = s.sw := (rfl)
@[simp] theorem Side.send_kp (p : Nat) (bs : List Byte) : (s.send p bs).kp = s.kp := (rfl)
@[simp] theorem Side.send_pm (p : Nat) (bs : List Byte) : (s.send p bs).pm = s.pm := (rfl)
@[simp] theorem Side.send_power (p : Nat) (bs : List Byte) : (s.send p bs).power = s.power := (rfl)
@[simp] theorem Side.send_acts (p : Nat) (bs : List Byte) : (s.send p bs).acts = s.acts := (rfl)
@[simp] theorem Side.send_host (p : Nat) (bs : List Byte) : (s.send p bs).host = s.host := (rfl)
@[simp] theorem Side.send_fresh (p : Nat) (bs : List Byte) : (s.send p bs).fresh = s.fresh := (rfl)
@[simp] theorem Side.inSet_rd (f : Ingress → Ingress) (k : Nat) : (s.inSet f).rd k = s.rd k := (rfl)
@[simp] theorem Side.inSet_fld (f : Ingress → Ingress) (k lo w : Nat) : (s.inSet f).fld k lo w = s.fld k lo w := (rfl)
@[simp] theorem Side.inSet_flag (f : Ingress → Ingress) (k j : Nat) : (s.inSet f).flag k j = s.flag k j := (rfl)
@[simp] theorem Side.trSet_rd (f : Transit → Transit) (k : Nat) : (s.trSet f).rd k = s.rd k := (rfl)
@[simp] theorem Side.trSet_fld (f : Transit → Transit) (k lo w : Nat) : (s.trSet f).fld k lo w = s.fld k lo w := (rfl)
@[simp] theorem Side.trSet_flag (f : Transit → Transit) (k j : Nat) : (s.trSet f).flag k j = s.flag k j := (rfl)
@[simp] theorem Side.gtSet_rd (f : Gait → Gait) (k : Nat) : (s.gtSet f).rd k = s.rd k := (rfl)
@[simp] theorem Side.gtSet_fld (f : Gait → Gait) (k lo w : Nat) : (s.gtSet f).fld k lo w = s.fld k lo w := (rfl)
@[simp] theorem Side.gtSet_flag (f : Gait → Gait) (k j : Nat) : (s.gtSet f).flag k j = s.flag k j := (rfl)
@[simp] theorem Side.ptSet_rd (f : Plat → Plat) (k : Nat) : (s.ptSet f).rd k = s.rd k := (rfl)
@[simp] theorem Side.ptSet_fld (f : Plat → Plat) (k lo w : Nat) : (s.ptSet f).fld k lo w = s.fld k lo w := (rfl)
@[simp] theorem Side.ptSet_flag (f : Plat → Plat) (k j : Nat) : (s.ptSet f).flag k j = s.flag k j := (rfl)
@[simp] theorem Side.tvSet_rd (f : Traverse → Traverse) (k : Nat) : (s.tvSet f).rd k = s.rd k := (rfl)
@[simp] theorem Side.tvSet_fld (f : Traverse → Traverse) (k lo w : Nat) : (s.tvSet f).fld k lo w = s.fld k lo w := (rfl)
@[simp] theorem Side.tvSet_flag (f : Traverse → Traverse) (k j : Nat) : (s.tvSet f).flag k j = s.flag k j := (rfl)
@[simp] theorem Side.brSet_rd (f : Bridle → Bridle) (k : Nat) : (s.brSet f).rd k = s.rd k := (rfl)
@[simp] theorem Side.brSet_fld (f : Bridle → Bridle) (k lo w : Nat) : (s.brSet f).fld k lo w = s.fld k lo w := (rfl)
@[simp] theorem Side.brSet_flag (f : Bridle → Bridle) (k j : Nat) : (s.brSet f).flag k j = s.flag k j := (rfl)
@[simp] theorem Side.haSet_rd (f : HostAgent → HostAgent) (k : Nat) : (s.haSet f).rd k = s.rd k := (rfl)
@[simp] theorem Side.haSet_fld (f : HostAgent → HostAgent) (k lo w : Nat) : (s.haSet f).fld k lo w = s.fld k lo w := (rfl)
@[simp] theorem Side.haSet_flag (f : HostAgent → HostAgent) (k j : Nat) : (s.haSet f).flag k j = s.flag k j := (rfl)
@[simp] theorem Side.kpSet_rd (f : Keeper → Keeper) (k : Nat) : (s.kpSet f).rd k = s.rd k := (rfl)
@[simp] theorem Side.kpSet_fld (f : Keeper → Keeper) (k lo w : Nat) : (s.kpSet f).fld k lo w = s.fld k lo w := (rfl)
@[simp] theorem Side.kpSet_flag (f : Keeper → Keeper) (k j : Nat) : (s.kpSet f).flag k j = s.flag k j := (rfl)
@[simp] theorem Side.pmSet_rd (f : Pm → Pm) (k : Nat) : (s.pmSet f).rd k = s.rd k := (rfl)
@[simp] theorem Side.pmSet_fld (f : Pm → Pm) (k lo w : Nat) : (s.pmSet f).fld k lo w = s.fld k lo w := (rfl)
@[simp] theorem Side.pmSet_flag (f : Pm → Pm) (k j : Nat) : (s.pmSet f).flag k j = s.flag k j := (rfl)
@[simp] theorem Side.onSlot_rd (i : Nat) (f : Slot → Slot) (k : Nat) : (s.onSlot i f).rd k = s.rd k := (rfl)
@[simp] theorem Side.onSlot_fld (i : Nat) (f : Slot → Slot) (k lo w : Nat) : (s.onSlot i f).fld k lo w = s.fld k lo w := (rfl)
@[simp] theorem Side.onSlot_flag (i : Nat) (f : Slot → Slot) (k j : Nat) : (s.onSlot i f).flag k j = s.flag k j := (rfl)
@[simp] theorem Side.onStream_rd (i : Nat) (f : TrStream → TrStream) (k : Nat) : (s.onStream i f).rd k = s.rd k := (rfl)
@[simp] theorem Side.onStream_fld (i : Nat) (f : TrStream → TrStream) (k lo w : Nat) : (s.onStream i f).fld k lo w = s.fld k lo w := (rfl)
@[simp] theorem Side.onStream_flag (i : Nat) (f : TrStream → TrStream) (k j : Nat) : (s.onStream i f).flag k j = s.flag k j := (rfl)
@[simp] theorem Side.onTrot_rd (u i : Nat) (f : TrotUnit → TrotUnit) (k : Nat) : (s.onTrot u i f).rd k = s.rd k := (rfl)
@[simp] theorem Side.onTrot_fld (u i : Nat) (f : TrotUnit → TrotUnit) (k lo w : Nat) : (s.onTrot u i f).fld k lo w = s.fld k lo w := (rfl)
@[simp] theorem Side.onTrot_flag (u i : Nat) (f : TrotUnit → TrotUnit) (k j : Nat) : (s.onTrot u i f).flag k j = s.flag k j := (rfl)
@[simp] theorem Side.onManger_rd (e : Nat) (f : Manger → Manger) (k : Nat) : (s.onManger e f).rd k = s.rd k := (rfl)
@[simp] theorem Side.onManger_fld (e : Nat) (f : Manger → Manger) (k lo w : Nat) : (s.onManger e f).fld k lo w = s.fld k lo w := (rfl)
@[simp] theorem Side.onManger_flag (e : Nat) (f : Manger → Manger) (k j : Nat) : (s.onManger e f).flag k j = s.flag k j := (rfl)
@[simp] theorem Side.onOutrider_rd (i : Nat) (f : Outrider → Outrider) (k : Nat) : (s.onOutrider i f).rd k = s.rd k := (rfl)
@[simp] theorem Side.onOutrider_fld (i : Nat) (f : Outrider → Outrider) (k lo w : Nat) : (s.onOutrider i f).fld k lo w = s.fld k lo w := (rfl)
@[simp] theorem Side.onOutrider_flag (i : Nat) (f : Outrider → Outrider) (k j : Nat) : (s.onOutrider i f).flag k j = s.flag k j := (rfl)
@[simp] theorem Side.onRings_rd (i c : Nat) (f : OrRings → OrRings) (k : Nat) : (s.onRings i c f).rd k = s.rd k := (rfl)
@[simp] theorem Side.onRings_fld (i c : Nat) (f : OrRings → OrRings) (k lo w : Nat) : (s.onRings i c f).fld k lo w = s.fld k lo w := (rfl)
@[simp] theorem Side.onRings_flag (i c : Nat) (f : OrRings → OrRings) (k j : Nat) : (s.onRings i c f).flag k j = s.flag k j := (rfl)
@[simp] theorem Side.send_rd (p : Nat) (bs : List Byte) (k : Nat) : (s.send p bs).rd k = s.rd k := (rfl)
@[simp] theorem Side.send_fld (p : Nat) (bs : List Byte) (k lo w : Nat) : (s.send p bs).fld k lo w = s.fld k lo w := (rfl)
@[simp] theorem Side.send_flag (p : Nat) (bs : List Byte) (k j : Nat) : (s.send p bs).flag k j = s.flag k j := (rfl)
@[simp] theorem Side.raise_rd (c u i : Nat) (cm : Option (Nat × Nat)) (d f : Nat) (p : Option (Nat × Nat)) (k : Nat) : (s.raise c u i cm d f p).rd k = s.rd k := (rfl)
@[simp] theorem Side.raise_fld (c u i : Nat) (cm : Option (Nat × Nat)) (d f : Nat) (p : Option (Nat × Nat)) (k lo w : Nat) : (s.raise c u i cm d f p).fld k lo w = s.fld k lo w := (rfl)
@[simp] theorem Side.raise_flag (c u i : Nat) (cm : Option (Nat × Nat)) (d f : Nat) (p : Option (Nat × Nat)) (k j : Nat) : (s.raise c u i cm d f p).flag k j = s.flag k j := (rfl)
@[simp] theorem Side.onTag_rd (m : Nat) (f : PmTag → PmTag) (k : Nat) : (s.onTag m f).rd k = s.rd k := (rfl)
@[simp] theorem Side.onTag_fld (m : Nat) (f : PmTag → PmTag) (k lo w : Nat) : (s.onTag m f).fld k lo w = s.fld k lo w := (rfl)
@[simp] theorem Side.onTag_flag (m : Nat) (f : PmTag → PmTag) (k j : Nat) : (s.onTag m f).flag k j = s.flag k j := (rfl)
@[simp] theorem Side.setGroom_rd (g : Nat) (r : Groom) (k : Nat) : (s.setGroom g r).rd k = s.rd k := (rfl)
@[simp] theorem Side.setGroom_fld (g : Nat) (r : Groom) (k lo w : Nat) : (s.setGroom g r).fld k lo w = s.fld k lo w := (rfl)
@[simp] theorem Side.setGroom_flag (g : Nat) (r : Groom) (k j : Nat) : (s.setGroom g r).flag k j = s.flag k j := (rfl)
@[simp] theorem Side.onGroom_rd (g : Nat) (f : Groom → Groom) (k : Nat) : (s.onGroom g f).rd k = s.rd k := (rfl)
@[simp] theorem Side.onGroom_fld (g : Nat) (f : Groom → Groom) (k lo w : Nat) : (s.onGroom g f).fld k lo w = s.fld k lo w := (rfl)
@[simp] theorem Side.onGroom_flag (g : Nat) (f : Groom → Groom) (k j : Nat) : (s.onGroom g f).flag k j = s.flag k j := (rfl)
@[simp] theorem Side.scatter_rd (w : Nat) (ws : List (Nat × Byte × Bool)) (k : Nat) : ((s.scatter w ws).1).rd k = s.rd k := (rfl)
@[simp] theorem Side.scatter_fld (o : Nat) (ws : List (Nat × Byte × Bool)) (k lo w : Nat) : ((s.scatter o ws).1).fld k lo w = s.fld k lo w := (rfl)
@[simp] theorem Side.scatter_flag (w : Nat) (ws : List (Nat × Byte × Bool)) (k j : Nat) : ((s.scatter w ws).1).flag k j = s.flag k j := (rfl)
@[simp] theorem Side.store_rd (a : Nat) (bs : List Byte) (k : Nat) : (s.store a bs).rd k = s.rd k := (rfl)
@[simp] theorem Side.store_fld (a : Nat) (bs : List Byte) (k lo w : Nat) : (s.store a bs).fld k lo w = s.fld k lo w := (rfl)
@[simp] theorem Side.store_flag (a : Nat) (bs : List Byte) (k j : Nat) : (s.store a bs).flag k j = s.flag k j := (rfl)
@[simp] theorem Side.draw_rd  (k : Nat) : ((s.draw).2).rd k = s.rd k := (rfl)
@[simp] theorem Side.draw_fld  (k lo w : Nat) : ((s.draw).2).fld k lo w = s.fld k lo w := (rfl)
@[simp] theorem Side.draw_flag  (k j : Nat) : ((s.draw).2).flag k j = s.flag k j := (rfl)
@[simp] theorem Side.leave_rd (o : Op) (k : Nat) : (s.leave o).rd k = s.rd k := (rfl)
@[simp] theorem Side.leave_fld (o : Op) (k lo w : Nat) : (s.leave o).fld k lo w = s.fld k lo w := (rfl)
@[simp] theorem Side.leave_flag (o : Op) (k j : Nat) : (s.leave o).flag k j = s.flag k j := (rfl)
@[simp] theorem Side.setOp_rd (o : Op) (k : Nat) : (s.setOp o).rd k = s.rd k := (rfl)
@[simp] theorem Side.setOp_fld (o : Op) (k lo w : Nat) : (s.setOp o).fld k lo w = s.fld k lo w := (rfl)
@[simp] theorem Side.setOp_flag (o : Op) (k j : Nat) : (s.setOp o).flag k j = s.flag k j := (rfl)
@[simp] theorem Side.dt_rd (f : Datum → Datum) (k : Nat) : (s.dt f).rd k = s.rd k := (rfl)
@[simp] theorem Side.dt_fld (f : Datum → Datum) (k lo w : Nat) : (s.dt f).fld k lo w = s.fld k lo w := (rfl)
@[simp] theorem Side.dt_flag (f : Datum → Datum) (k j : Nat) : (s.dt f).flag k j = s.flag k j := (rfl)
@[simp] theorem Side.lgSet_rd (f : Launch → Launch) (k : Nat) : (s.lgSet f).rd k = s.rd k := (rfl)
@[simp] theorem Side.lgSet_fld (f : Launch → Launch) (k lo w : Nat) : (s.lgSet f).fld k lo w = s.fld k lo w := (rfl)
@[simp] theorem Side.lgSet_flag (f : Launch → Launch) (k j : Nat) : (s.lgSet f).flag k j = s.flag k j := (rfl)
@[simp] theorem Side.swSet_rd (f : Steward → Steward) (k : Nat) : (s.swSet f).rd k = s.rd k := (rfl)
@[simp] theorem Side.swSet_fld (f : Steward → Steward) (k lo w : Nat) : (s.swSet f).fld k lo w = s.fld k lo w := (rfl)
@[simp] theorem Side.swSet_flag (f : Steward → Steward) (k j : Nat) : (s.swSet f).flag k j = s.flag k j := (rfl)
@[simp] theorem Side.pwSet_rd (f : Power → Power) (k : Nat) : (s.pwSet f).rd k = s.rd k := (rfl)
@[simp] theorem Side.pwSet_fld (f : Power → Power) (k lo w : Nat) : (s.pwSet f).fld k lo w = s.fld k lo w := (rfl)
@[simp] theorem Side.pwSet_flag (f : Power → Power) (k j : Nat) : (s.pwSet f).flag k j = s.flag k j := (rfl)
@[simp] theorem Side.addGuard_rd (g : Guard) (k : Nat) : (s.addGuard g).rd k = s.rd k := (rfl)
@[simp] theorem Side.addGuard_fld (g : Guard) (k lo w : Nat) : (s.addGuard g).fld k lo w = s.fld k lo w := (rfl)
@[simp] theorem Side.addGuard_flag (g : Guard) (k j : Nat) : (s.addGuard g).flag k j = s.flag k j := (rfl)
@[simp] theorem Side.dropGuard_rd (d : Nat) (k : Nat) : (s.dropGuard d).rd k = s.rd k := (rfl)
@[simp] theorem Side.dropGuard_fld (d : Nat) (k lo w : Nat) : (s.dropGuard d).fld k lo w = s.fld k lo w := (rfl)
@[simp] theorem Side.dropGuard_flag (d : Nat) (k j : Nat) : (s.dropGuard d).flag k j = s.flag k j := (rfl)

end Sys2Proof.Machine
end

