-- ==== Sys2Proof/Laws/Groom.lean ====
section
/-!
SUPPORT. Laws/Groom.lean: what a Groom's row does once its instruction is known, and what it leaves.
-/
namespace Sys2Proof.Machine

/-! ### Memory errors -/

/-- The registers that memory errors count in (R455 to R457) and mark lines in. -/
def errRegs (k : Nat) : Prop := k / 0x1000000 = 0x02 ∨ k / 0x1000000 = 0x15 ∨ k / 0x1000000 = 0x16

/-- SPLIT leaves the stacks of a part equal shares (R434, R435). -/
theorem split_even (s : Side) : (s.part.nearGB * 2 ^ 30 - s.split) % s.part.stacks = 0 := by
  unfold Side.split
  rw [← Nat.sub_mul]
  generalize s.part.nearGB - s.fld Reg.NT_MAP 0 8 = k
  cases s.part <;> simp only [Part.stacks] <;> omega

theorem Part.stacks_bounds (p : Part) : 0 < p.stacks ∧ p.stacks ≤ 4 := by cases p <;> decide

/-- A near-tier address lands on a stack of the part, where the stacks share what is above SPLIT evenly (R434). -/
theorem Part.nearStack_lt (p : Part) (k a : Nat) (he : (p.nearGB * 2 ^ 30 - k) % p.stacks = 0) (h : a < p.nearGB * 2 ^ 30) :
    p.nearStack k a < p.stacks := by
  unfold Part.nearStack Part.nearShare
  have hn := (Part.stacks_bounds p).1
  generalize p.nearGB * 2 ^ 30 = N at *
  generalize p.stacks = n at *
  split
  · exact Nat.mod_lt _ hn
  · refine Nat.div_lt_of_lt_mul ?_
    have := Nat.div_add_mod (N - k) n
    rw [he, Nat.add_zero, Nat.mul_comm] at this
    omega

/-- A populated near-tier address lands on a stack of the side (R434). -/
theorem stackOf_lt (s : Side) (a : Nat) (h : a < s.part.nearGB * 2 ^ 30) : s.stackOf a < 4 :=
  Nat.lt_of_lt_of_le (Part.nearStack_lt s.part s.split a (split_even s) h) (Part.stacks_bounds s.part).2

/-- Below the far tier only the near tier is populated (R48). -/
theorem region_near (p : Part) (a : Nat) (h : a < 0x2000_0000_0000) (hr : ¬ a < p.nearGB * 2 ^ 30) : p.region a = none := by
  unfold Part.region
  rw [if_neg hr, if_neg (by omega), if_neg (by omega), if_neg (by omega), if_neg (by omega)]

theorem populated_near (p : Part) (a : Nat) (h : a < 0x2000_0000_0000) (hp : p.populated a 64 = true) : a < p.nearGB * 2 ^ 30 := by
  by_cases hr : a < p.nearGB * 2 ^ 30
  · exact hr
  · unfold Part.populated at hp
    rw [region_near p a h hr] at hp
    simp at hp

/-- The counters of a populated line's controller are its error registers. -/
theorem controller_errRegs (s : Side) (a : Nat) (hp : s.part.populated (a / 64 * 64) 64 = true) :
    errRegs (s.controller a).2.2.1 ∧ errRegs (s.controller a).2.2.2 := by
  unfold Side.controller
  split
  · rename_i h
    have h1 := populated_near s.part (a / 64 * 64) (by omega) hp
    have hlt : s.stackOf a < 4 := stackOf_lt s a (by
      revert h1; cases s.part <;> simp only [Part.nearGB] <;> omega)
    generalize s.stackOf a = k at hlt
    simp only [errRegs, Reg.NT_ERR, Reg.NT_BAD]; omega
  · split
    · exact ⟨.inr (.inl (by decide)), .inr (.inl (by decide))⟩
    · split
      · exact ⟨.inl (by decide), .inl (by decide)⟩
      · split <;> exact ⟨.inl (by decide), .inl (by decide)⟩

theorem Side.markBad_keptBut (s : Side) (a : Nat) (h : errRegs (s.controller a).2.2.2) :
    s.keptBut (s.markBad a) [.poison] errRegs := by
  unfold Side.markBad
  refine Side.keptBut_trans (y := { s with mem := { s.mem with bad := nsAdd s.mem.bad (a / 64) } }) ?_ ?_
  · exact Side.keptBut_of_regs _ rfl rfl rfl (fun p hp => by cases p <;> first | rfl | simp at hp)
  · exact Side.keptBut_mono (Side.wr_keptBut _ _ _) (by simp) (fun k hk => by subst hk; exact h)

/-- One memory error changes no more than its counter, the line's poison and the events (R444). -/
theorem Side.lineError_keptBut (s : Side) (c : Option (Nat × Nat)) (e : LineErr) : s.keptBut (s.lineError c e) [.poison, .events] errRegs := by
  unfold Side.lineError
  split
  · unfold Side.lineCut; dsimp only
    split
    · split <;> exact Side.keptBut_of_regs _ rfl rfl rfl (fun p hp => by cases p <;> first | rfl | simp at hp)
    · exact Side.keptBut_refl ..
  split
  · rename_i hp
    obtain ⟨h1, h2⟩ := controller_errRegs s e.line hp
    rcases hc : s.controller e.line with ⟨u, i, cnt, bad⟩
    rw [hc] at h1 h2
    dsimp only
    have h0 : s.keptBut (if u = 0x02 ∧ e.kind = .retry then s else s.count cnt (errField u e.kind) 16) [.poison, .events] errRegs := by
      split
      · exact Side.keptBut_refl ..
      · exact Side.keptBut_mono (Side.count_keptBut _ _ _ _ _) (by simp) (fun k hk => by subst hk; exact h1)
    generalize (if u = 0x02 ∧ e.kind = .retry then s else s.count cnt (errField u e.kind) 16) = s1 at h0
    have hm : s1.keptBut ((s1.markBad e.line).raise 0x06 u i c (s1.device (e.line / 64 * 64))) [.poison, .events] errRegs := by
      have hc' : errRegs (s1.controller e.line).2.2.2 := by
        have := (controller_errRegs s1 e.line (by rw [h0.2.1]; exact hp)).2
        exact this
      refine Side.keptBut_trans (y := s1.markBad e.line) ?_ ?_
      · exact Side.keptBut_mono (Side.markBad_keptBut s1 e.line hc') (by simp) (fun _ h => h)
      · exact Side.keptBut_mono (Side.raise_keptBut _ _ _ _ _ _ _ _ errRegs) (by simp) (fun _ h => h)
    cases e.kind <;> dsimp only <;> first | exact h0 | exact Side.keptBut_trans h0 hm
  · exact Side.keptBut_refl ..

theorem Side.lineErrors_keptBut (s : Side) (c : Option (Nat × Nat)) (es : List LineErr) (w : Bool) :
    s.keptBut (s.lineErrors c es w) [.poison, .events] errRegs :=
  Side.keptBut_foldl _ _ _ (fun s e => Side.lineError_keptBut s c e) _ _

@[simp] theorem Side.lineErrors_nil (s : Side) (c : Option (Nat × Nat)) (w : Bool) : s.lineErrors c [] w = s := rfl

@[simp] theorem Side.lineError_grooms (s : Side) (c : Option (Nat × Nat)) (e : LineErr) : (s.lineError c e).grooms = s.grooms := by
  unfold Side.lineError
  split
  · unfold Side.lineCut; dsimp only; split
    · split <;> rfl
    · rfl
  split
  · rcases s.controller e.line with ⟨u, i, cnt, bad⟩
    dsimp only
    cases e.kind <;> dsimp only <;> split <;> simp only [Side.raise_grooms, Side.markBad, Side.wr_grooms, Side.count_grooms]
  · rfl

@[simp] theorem Side.lineErrors_grooms (s : Side) (c : Option (Nat × Nat)) (es : List LineErr) (w : Bool) : (s.lineErrors c es w).grooms = s.grooms := by
  unfold Side.lineErrors
  generalize es.filter _ = l
  induction l generalizing s with
  | nil => rfl
  | cons e l ih => simp only [List.foldl_cons]; rw [ih]; simp

@[simp] theorem Side.lineErrors_groom (s : Side) (c : Option (Nat × Nat)) (es : List LineErr) (w : Bool) (g : Nat) :
    (s.lineErrors c es w).groom g = s.groom g := by simp [Side.groom]

/-! ### The Groom's monitor -/

/-- The monitors' registers. -/
def pmRegs (k : Nat) : Prop := k / 0x1000000 = 0x13

theorem Side.pmCount_keptBut (s : Side) (m ev n : Nat) (a : PmAttr) (h : m ≤ 255) : s.keptBut (s.pmCount m ev n a) [.pm] pmRegs := by
  unfold Side.pmCount
  split
  · have hf : s.fld (Reg.PM_CTRL m) 12 4 < 16 := by
      unfold Side.fld Word.fld bits; exact Nat.mod_lt _ (by decide)
    have : ∀ (l : List Nat) (s : Side), (∀ i ∈ l, i < 16) → s.keptBut (l.foldl (fun (s : Side) i =>
        if s.fld (Reg.PM_EVSEL m (i + 1)) 0 16 = ev ∧ s.pmPass m (s.fld (Reg.PM_EVSEL m (i + 1)) 16 4) a then
          s.wr (Reg.PM_COUNT m (i + 1)) (s.rd (Reg.PM_COUNT m (i + 1)) + BitVec.ofNat 64 n) else s) s) [.pm] pmRegs := by
      intro l
      induction l with
      | nil => intro s _; exact Side.keptBut_refl ..
      | cons i l ih =>
        intro s hl
        rw [List.foldl_cons]
        refine Side.keptBut_trans ?_ (ih _ (fun j hj => hl j (List.mem_cons_of_mem _ hj)))
        split
        · refine Side.keptBut_mono (Side.wr_keptBut _ _ _) (by simp) (fun k hk => ?_)
          have := hl i (List.mem_cons_self ..)
          subst hk; unfold pmRegs Reg.PM_COUNT; omega
        · exact Side.keptBut_refl ..
    exact this _ s (fun i hi => by simp [upTo] at hi; omega)
  · exact Side.keptBut_refl ..

theorem Side.pmCount_grooms (s : Side) (m ev n : Nat) (a : PmAttr) : (s.pmCount m ev n a).grooms = s.grooms := by
  unfold Side.pmCount
  split
  · generalize upTo _ = l
    revert s
    suffices h : ∀ s : Side, (l.foldl (fun (s : Side) i =>
        if s.fld (Reg.PM_EVSEL m (i + 1)) 0 16 = ev ∧ s.pmPass m (s.fld (Reg.PM_EVSEL m (i + 1)) 16 4) a then
          s.wr (Reg.PM_COUNT m (i + 1)) (s.rd (Reg.PM_COUNT m (i + 1)) + BitVec.ofNat 64 n) else s) s).grooms = s.grooms from
      fun s _ => h s
    induction l with
    | nil => intro s; rfl
    | cons i l ih => intro s; rw [List.foldl_cons, ih]; split <;> simp only [Side.wr_grooms]
  · rfl

theorem Side.tagGap_keptBut (s : Side) (m : Nat) (rs : Nat → Prop) : s.keptBut (s.tagGap m) [.pm] rs := Side.onTag_keptBut ..

theorem Side.tagItem_keptBut (s : Side) (m : Nat) (a : PmAttr) : s.keptBut (s.tagItem m a).2 [.pm] pmRegs := by
  unfold Side.tagItem
  split
  · exact Side.keptBut_refl ..
  · split
    · exact Side.keptBut_refl ..
    · split
      · exact Side.onTag_keptBut ..
      · split
        · refine Side.keptBut_trans (y := s.count Reg.PM_TCNT 48 16) ?_ (Side.tagGap_keptBut ..)
          exact Side.keptBut_mono (Side.count_keptBut _ _ _ _ _) (by simp) (fun k hk => by subst hk; unfold pmRegs Reg.PM_TCNT; omega)
        · exact Side.tagGap_keptBut ..

theorem Side.tagItem_grooms (s : Side) (m : Nat) (a : PmAttr) : (s.tagItem m a).2.grooms = s.grooms := by
  unfold Side.tagItem Side.tagGap
  split
  · rfl
  · split
    · rfl
    · split
      · simp only [Side.onTag_grooms]
      · split <;> simp only [Side.onTag_grooms, Side.count_grooms]

theorem Side.tagInstr_keptBut (s : Side) (g pc word pl : Nat) (ret : Bool) : s.keptBut (s.tagInstr g pc word pl ret) [.pm] pmRegs := by
  unfold Side.tagInstr
  dsimp only
  split
  · exact Side.keptBut_trans (Side.tagItem_keptBut s _ _) (Side.onTag_keptBut _ _ _ _)
  · exact Side.tagItem_keptBut s _ _

@[simp] theorem Side.tagInstr_grooms (s : Side) (g pc word pl : Nat) (ret : Bool) : (s.tagInstr g pc word pl ret).grooms = s.grooms := by
  unfold Side.tagInstr
  dsimp only
  split
  · rw [Side.onTag_grooms, Side.tagItem_grooms]
  · rw [Side.tagItem_grooms]

/-- The Groom's monitor sees an instruction: the monitors' registers and tags may change, nothing else. -/
theorem Side.leftFlight_keptBut (s : Side) (g pc word pl : Nat) (ret : Bool) (h : g ≤ 254) :
    s.keptBut (s.leftFlight g pc word pl ret) [.pm] pmRegs := by
  unfold Side.leftFlight
  dsimp only
  refine Side.keptBut_trans ?_ (Side.tagInstr_keptBut _ _ _ _ _ _)
  split
  · exact Side.pmCount_keptBut _ _ _ _ _ (by omega)
  · exact Side.keptBut_refl ..

@[simp] theorem Side.leftFlight_grooms (s : Side) (g pc word pl : Nat) (ret : Bool) :
    (s.leftFlight g pc word pl ret).grooms = s.grooms := by
  unfold Side.leftFlight
  dsimp only
  rw [Side.tagInstr_grooms]
  split
  · exact Side.pmCount_grooms ..
  · rfl

@[simp] theorem Side.leftFlight_groom (s : Side) (g pc word pl : Nat) (ret : Bool) (h : Nat) :
    (s.leftFlight g pc word pl ret).groom h = s.groom h := by simp [Side.groom]

/-! ### A row whose instruction is known -/

/-- What a Groom's row may change beside what its instruction does. -/
def groomPieces (env : Env) (ps : List Piece) : List Piece :=
  [.grooms, .pm, .fresh] ++ ps ++ (if env.errs = [] then [] else [.poison, .events])

@[inherit_doc groomPieces] def groomRegs (env : Env) (rs : Nat → Prop) (k : Nat) : Prop :=
  rs k ∨ k / 0x1000000 = 0x13 ∨ (env.errs ≠ [] ∧ (k / 0x1000000 = 0x02 ∨ k / 0x1000000 = 0x15 ∨ k / 0x1000000 = 0x16))

theorem Side.lineErrors_groomFrame (s : Side) (env : Env) (w : Bool) (ps : List Piece) (rs : Nat → Prop) :
    s.keptBut (s.lineErrors none env.errs w) (groomPieces env ps) (groomRegs env rs) := by
  by_cases h : env.errs = []
  · rw [h]; exact Side.keptBut_refl ..
  · refine Side.keptBut_mono (Side.lineErrors_keptBut s none env.errs w) (fun p hp => ?_) (fun k hk => .inr (.inr ⟨h, hk⟩))
    unfold groomPieces; rw [if_neg h]; exact List.mem_append_right _ hp

theorem Side.fetch_keptBut {s : Side} {g : Nat} {env : Env} {w : Nat} {s' : Side} (h : s.fetch g env = .ok (w, s')) :
    s.keptBut s' [.fresh] (fun _ => False) ∧ s'.grooms = s.grooms := by
  unfold Side.fetch at h
  dsimp only at h
  have pick : ∀ (v : Nat) (o : Option (Nat × Nat)), (match o with
      | none => (v, s)
      | some e => (if Config.freeBool s.draw.1 then e.2 else v, s.draw.2)) = (w, s') →
      s.keptBut s' [.fresh] (fun _ => False) ∧ s'.grooms = s.grooms := by
    intro v o ho
    cases o with
    | none => cases ho; exact ⟨Side.keptBut_refl .., rfl⟩
    | some e => cases ho; exact ⟨Side.draw_keptBut .., rfl⟩
  split at h
  · split at h
    · cases h
    · exact pick _ _ (by injection h)
  · split at h
    · cases h
    · split at h
      · cases h
      · exact pick _ _ (by injection h)
  · cases h

theorem Side.fetched_frame (s : Side) (g : Nat) (env : Env) (ps : List Piece) (rs : Nat → Prop) :
    s.keptBut (s.fetched g env) (groomPieces env ps) (groomRegs env rs) := by
  unfold Side.fetched
  dsimp only
  split
  · rename_i h
    refine Side.keptBut_trans (Side.lineErrors_groomFrame s env false ps rs) ?_
    exact Side.keptBut_mono (Side.fetch_keptBut h).1 (fun p hp => by simp [groomPieces] at hp ⊢; simp [hp]) (fun _ h => h.elim)
  · exact Side.lineErrors_groomFrame s env false ps rs

@[simp] theorem Side.fetched_grooms (s : Side) (g : Nat) (env : Env) : (s.fetched g env).grooms = s.grooms := by
  unfold Side.fetched
  dsimp only
  split
  · rename_i h; rw [(Side.fetch_keptBut h).2, Side.lineErrors_grooms]
  · rw [Side.lineErrors_grooms]

@[simp] theorem Side.fetched_groom (s : Side) (g : Nat) (env : Env) (h : Nat) : (s.fetched g env).groom h = s.groom h := by
  simp [Side.groom]

@[simp] theorem Side.fetched_part (s : Side) (g : Nat) (env : Env) : (s.fetched g env).part = s.part :=
  (Side.fetched_frame s g env [] (fun _ => False)).2.1

@[simp] theorem Side.fetched_id (s : Side) (g : Nat) (env : Env) : (s.fetched g env).id = s.id :=
  (Side.fetched_frame s g env [] (fun _ => False)).1

/-- A register that memory errors do not touch reads the same to the instruction as before its fetch. -/
theorem Side.fetched_rd (s : Side) (g : Nat) (env : Env) (k : Nat) (h1 : k / 0x1000000 ≠ 0x13)
    (h2 : k / 0x1000000 ≠ 0x02 ∧ k / 0x1000000 ≠ 0x15 ∧ k / 0x1000000 ≠ 0x16) : (s.fetched g env).rd k = s.rd k :=
  (Side.fetched_frame s g env [] (fun _ => False)).2.2.2 k (by unfold groomRegs; rintro (h | h | ⟨_, h | h | h⟩) <;> simp_all)

/-- The side as a Groom meets it differs only in who acts. -/
theorem Side.asGroom_keptBut (x : Side) (g : Nat) (ps : List Piece) (rs : Nat → Prop) : x.keptBut (x.asGroom g) ps rs :=
  ⟨rfl, rfl, fun p _ => by cases p <;> rfl, fun _ _ => rfl⟩

@[simp] theorem Side.asGroom_grooms (x : Side) (g : Nat) : (x.asGroom g).grooms = x.grooms := (rfl)
@[simp] theorem Side.asGroom_groom (x : Side) (g h : Nat) : (x.asGroom g).groom h = x.groom h := (rfl)
@[simp] theorem Side.asGroom_part (x : Side) (g : Nat) : (x.asGroom g).part = x.part := (rfl)
@[simp] theorem Side.asGroom_id (x : Side) (g : Nat) : (x.asGroom g).id = x.id := (rfl)
@[simp] theorem Side.asGroom_mem (x : Side) (g : Nat) : (x.asGroom g).mem = x.mem := (rfl)
@[simp] theorem Side.asGroom_guards (x : Side) (g : Nat) : (x.asGroom g).guards = x.guards := (rfl)
@[simp] theorem Side.asGroom_rd (x : Side) (g k : Nat) : (x.asGroom g).rd k = x.rd k := (rfl)

/-- The row of an instruction that retires. -/
theorem Side.groomRow_ok {x x' : Side} {g : Nat} {env : Env} {w : Nat} {i : GInstr}
    {f : GInstr → Nat → Option (Except Exc Side)} (h : x.fetches g env w i) (hf : f i w = some (.ok x')) :
    (x.asGroom g).groomRow g env f = (x'.lineErrors none env.errs true).leftFlight g (x.groom g).pc w (x.groom g).pl true := by
  obtain ⟨_, h1, _, h2, h3, ⟨x1, h4⟩, h5, h6⟩ := h
  unfold Side.groomRow
  rw [if_pos ⟨h1, h2, h3⟩]
  dsimp only
  rw [h4]
  dsimp only
  rw [h5]
  dsimp only
  rw [if_neg (by simp [h6]), hf]
  rfl

/-- The row of an instruction that raises an exception. -/
theorem Side.groomRow_exc {x : Side} {g : Nat} {env : Env} {w : Nat} {i : GInstr} {e : Exc}
    {f : GInstr → Nat → Option (Except Exc Side)} (h : x.fetches g env w i) (hf : f i w = some (.error e)) :
    (x.asGroom g).groomRow g env f =
      (((x.asGroom g).lineErrors none env.errs false).takeExc g e).leftFlight g (x.groom g).pc w (x.groom g).pl false := by
  obtain ⟨_, h1, _, h2, h3, ⟨x1, h4⟩, h5, h6⟩ := h
  unfold Side.groomRow
  rw [if_pos ⟨h1, h2, h3⟩]
  dsimp only
  rw [h4]
  dsimp only
  rw [h5]
  dsimp only
  rw [if_neg (by simp [h6]), hf]
  rfl

theorem Part.grooms_le (p : Part) : p.grooms ≤ 254 := by cases p <;> decide

theorem State.does_mono {s : State} {i : Instr} {sd : SideId} {P Q : Side → Side → Prop} (h : s.does i sd P)
    (hq : ∀ y, P (s.side sd) y → Q (s.side sd) y) : s.does i sd Q := by
  obtain ⟨t, h1, h2, h3, h4⟩ := h
  exact ⟨t, h1, h2, h3, hq _ h4⟩

/-- A Groom's instruction that retires: the Grooms, memory and the rest of the side are as the instruction left them. -/
theorem groomRow_leaves {c : Instr} {s : State} {sd : SideId} {g : Nat} {env : Env} {w : Nat} {i : GInstr}
    {f : Side → GInstr → Nat → Option (Except Exc Side)} {x' : Side} {ps : List Piece} {rs : Nat → Prop}
    (he : exec c s = byGroom sd g (fun x => x.groomRow g env (f x)) s) (h : (s.side sd).fetches g env w i)
    (hf : f ((s.side sd).asGroom g) i w = some (.ok x'))
    (hk : ((s.side sd).met g env).keptBut x' (groomPieces env ps) (groomRegs env rs)) :
    s.does c sd (fun x y => (∀ j, (y.groom j).plain = (x'.groom j).plain) ∧ y.mem.cells = x'.mem.cells ∧ x.keptByGroom y env ps rs) := by
  have hrow := Side.groomRow_ok h hf
  have hg : g < 254 := Nat.lt_of_lt_of_le h.2.1 (Part.grooms_le _)
  refine onSide_does he h.1 ⟨fun j => ?_, ?_, ?_⟩
  · rw [Side.after_plain_groom]
    show (((s.side sd).asGroom g).groomRow g env (f ((s.side sd).asGroom g)) |>.groom j).plain = _
    rw [hrow]; simp
  · rw [Side.after_mem]
    show (((s.side sd).asGroom g).groomRow g env (f ((s.side sd).asGroom g))).mem.cells = _
    rw [hrow]
    have h1 := (Side.leftFlight_keptBut (x'.lineErrors none env.errs true) g ((s.side sd).groom g).pc w ((s.side sd).groom g).pl true
      (by omega)).2.2.1 .cells (by simp)
    have h2 := (Side.lineErrors_keptBut x' none env.errs true).2.2.1 .cells (by simp)
    exact h1.trans h2
  · refine Side.after_keptBut (Side.keptBut_trans (Side.asGroom_keptBut _ g _ _) ?_)
    refine Side.keptBut_trans (y := ((s.side sd).asGroom g).groomRow g env (f ((s.side sd).asGroom g))) ?_
      ⟨rfl, rfl, fun p _ => by cases p <;> rfl, fun _ _ => rfl⟩
    show ((s.side sd).asGroom g).keptBut _ (groomPieces env ps) (groomRegs env rs)
    rw [hrow]
    refine Side.keptBut_trans (Side.fetched_frame _ g env ps rs) (Side.keptBut_trans hk ?_)
    refine Side.keptBut_trans (Side.lineErrors_groomFrame x' env true ps rs) ?_
    exact Side.keptBut_mono (Side.leftFlight_keptBut _ _ _ _ _ _ (by omega)) (fun p hp => by simp at hp; simp [groomPieces, hp])
      (fun k hk => .inr (.inl hk))

/-- A Groom's instruction that retires: its Groom is the new one, every other one and the rest of the side as the instruction
left them. -/
theorem groomRow_does {c : Instr} {s : State} {sd : SideId} {g : Nat} {env : Env} {w : Nat} {i : GInstr}
    {f : Side → GInstr → Nat → Option (Except Exc Side)} {x' : Side} {r : Groom} {ps : List Piece} {rs : Nat → Prop}
    (he : exec c s = byGroom sd g (fun x => x.groomRow g env (f x)) s) (h : (s.side sd).fetches g env w i)
    (hf : f ((s.side sd).asGroom g) i w = some (.ok x'))
    (hk : ((s.side sd).met g env).keptBut x' (groomPieces env ps) (groomRegs env rs))
    (hr : x'.groom g = r) (ho : ∀ j, j ≠ g → x'.groom j = (s.side sd).groom j) :
    s.does c sd (fun x y => x.onlyGroom y g r ∧ x.keptByGroom y env ps rs) :=
  State.does_mono (groomRow_leaves he h hf hk) (fun y hy => ⟨⟨by rw [hy.1 g, hr], fun j hj => by rw [hy.1 j, ho j hj]⟩, hy.2.2⟩)

@[simp] theorem Side.setGroom_groom_same (s : Side) (g : Nat) (r : Groom) (h : g < s.grooms.length) : (s.setGroom g r).groom g = r := by
  simp [Side.setGroom, Side.groom, setAt, List.getD_eq_getElem?_getD, h]

theorem Side.setGroom_groom_other (s : Side) {g j : Nat} (r : Groom) (h : j ≠ g) : (s.setGroom g r).groom j = s.groom j := by
  simp only [Side.setGroom, Side.groom, setAt, List.getD_eq_getElem?_getD]
  rw [List.getElem?_set_ne (fun e => h e.symm)]

/-- A Groom with a result written and its next instruction to follow. -/
theorem Side.retire_groom_same (s : Side) (g rd : Nat) (v : Word) (h : g < s.grooms.length) :
    (s.retire g rd v).groom g = ((s.groom g).wx rd v).next := by
  have h2 : g < (s.setGroom g ((s.groom g).wx rd v)).grooms.length := by simp [Side.setGroom, setAt, h]
  simp only [Side.retire, Side.advance, Side.onGroom]
  rw [Side.setGroom_groom_same _ _ _ h2, Side.setGroom_groom_same _ _ _ h]
  rfl

theorem Side.retire_groom_other (s : Side) {g j : Nat} (rd : Nat) (v : Word) (h : j ≠ g) : (s.retire g rd v).groom j = s.groom j := by
  simp only [Side.retire, Side.advance, Side.onGroom]
  rw [Side.setGroom_groom_other _ _ h, Side.setGroom_groom_other _ _ h]

theorem Side.advance_groom_same (s : Side) (g : Nat) (h : g < s.grooms.length) : (s.advance g).groom g = (s.groom g).next := by
  simp only [Side.advance, Side.onGroom]; rw [Side.setGroom_groom_same _ _ _ h]; rfl

theorem Side.advance_groom_other (s : Side) {g j : Nat} (h : j ≠ g) : (s.advance g).groom j = s.groom j := by
  simp only [Side.advance, Side.onGroom]; rw [Side.setGroom_groom_other _ _ h]

/-- A change of one Groom leaves the pieces beside the Grooms. -/
theorem Side.groom_frame {x y : Side} (env : Env) (ps : List Piece) (rs : Nat → Prop) (h : y = { x with grooms := y.grooms }) :
    x.keptBut y (groomPieces env ps) (groomRegs env rs) := by
  rw [h]
  exact Side.keptBut_of_regs _ rfl rfl rfl (fun p hp => by cases p <;> first | rfl | simp [groomPieces] at hp)

/-! ### What the instruction of a fetched word reads -/

theorem Store.bytes_congr {m n : Store} (h : m.cells = n.cells) (a k : Nat) : m.bytes a k = n.bytes a k := by
  induction k generalizing a with
  | zero => rfl
  | succ k ih => simp only [Store.bytes, Store.get, h, ih]

theorem fetched_num (x : Side) (g : Nat) (env : Env) (a n : Nat) : (x.fetched g env).num a n = x.num a n := by
  have h := (Side.fetched_frame x g env [] (fun _ => False)).2.2.1 .cells (by unfold groomPieces; split <;> simp)
  simp only [Side.num, Store.num]
  rw [Store.bytes_congr h]

theorem fetched_guards (x : Side) (g : Nat) (env : Env) : (x.fetched g env).guards = x.guards :=
  (Side.fetched_frame x g env [] (fun _ => False)).2.2.1 .guards (by unfold groomPieces; split <;> simp)

theorem fetched_now (x : Side) (g : Nat) (env : Env) : (x.fetched g env).now = x.now := by
  have h := (Side.fetched_frame x g env [] (fun _ => False)).2.2.1 .datum (by unfold groomPieces; split <;> simp)
  exact congrArg Datum.ns h

theorem fetched_readGuarded (x : Side) (g : Nat) (env : Env) (o a n : Nat) : (x.fetched g env).readGuarded o a n = x.readGuarded o a n := by
  simp only [Side.readGuarded, fetched_guards, fetched_now]

theorem fetched_writeGuarded (x : Side) (g : Nat) (env : Env) (o a n : Nat) : (x.fetched g env).writeGuarded o a n = x.writeGuarded o a n := by
  simp only [Side.writeGuarded, fetched_guards, fetched_now]

theorem fetched_place (x : Side) (g : Nat) (env : Env) (a n : Nat) : (x.fetched g env).place a n = x.place a n := by
  simp only [Side.place, Side.loc, Side.fetched_part, Side.fetched_id]

theorem place_mem_inRegs {x : Side} {a n l : Nat} (h : x.place a n = .mem l) : inRegs a = false := by
  unfold Side.place Side.loc at h
  split at h
  · split at h <;> cases h
  · split at h
    · cases h
    · rename_i h2
      split at h2
      · injection h2 with h2
        split at h
        · split at h <;> cases h
        · unfold inRegs; simp; omega
      · cases h2

theorem place_loc_inRegs {x : Side} {a n l : Nat} (h : x.place a n = .loc l) : inRegs a = false := by
  unfold Side.place Side.loc at h
  split at h
  · unfold inRegs; simp; omega
  · split at h
    · cases h
    · split at h
      · split at h <;> cases h
      · split at h <;> cases h

theorem gload_mem (x : Side) (g : Nat) (env : Env) (w a n l : Nat) (ha : a % n = 0) (hp : x.place a n = .mem l)
    (hr : x.readGuarded 0x10 l n = false) (hb : (x.fetched g env).poisoned l n = false) :
    (x.fetched g env).gload g w a n env = .ok (x.num l n, x.fetched g env) := by
  unfold Side.gload
  dsimp only
  rw [if_neg (by simp [place_mem_inRegs hp]), if_neg (by simp [ha]), fetched_place, hp]
  dsimp only
  rw [if_neg (by simp [fetched_readGuarded, hr]), if_neg (by simp [hb]), fetched_num]

theorem gload_loc (x : Side) (g : Nat) (env : Env) (w a n l : Nat) (ha : a % n = 0) (hp : x.place a n = .loc l)
    (he : env.eccData = false) :
    (x.fetched g env).gload g w a n env = .ok (fromBytes ((Store.mk (x.groom g).lmem []).bytes l n), x.fetched g env) := by
  unfold Side.gload
  dsimp only
  rw [if_neg (by simp [place_loc_inRegs hp]), if_neg (by simp [ha]), fetched_place, hp]
  dsimp only
  rw [if_neg (by simp [he]), Side.fetched_groom]

/-- A read of a register changes at most that register, or the fraction that a read of DT_NOW latches (R19, R190). -/
theorem Side.busRead_keptBut (s : Side) (k : Nat) :
    s.keptBut (s.busRead k).2 [.fresh] (fun j => j = k ∨ (k = Reg.DT_NOW ∧ j = Reg.DT_FRAC)) ∧ (s.busRead k).2.grooms = s.grooms := by
  have hv : s.keptBut s.inputView.2 [.fresh] (fun j => j = k ∨ (k = Reg.DT_NOW ∧ j = Reg.DT_FRAC)) ∧ s.inputView.2.grooms = s.grooms :=
    ⟨Side.keptBut_trans (Side.draw_keptBut _ _) (Side.keptBut_trans (Side.draw_keptBut _ _) (Side.draw_keptBut _ _)), rfl⟩
  unfold Side.busRead
  split
  · split
    · exact ⟨Side.keptBut_refl .., rfl⟩
    · split
      · rename_i hk
        exact ⟨Side.keptBut_mono (Side.wr_keptBut _ _ _) (by simp) (fun j hj => .inr ⟨hk, hj⟩), rfl⟩
      · split
        · exact hv
        · dsimp only; split
          · exact ⟨Side.keptBut_refl .., rfl⟩
          · exact ⟨Side.keptBut_mono (Side.wr_keptBut _ _ _) (by simp) (fun j hj => .inl hj), rfl⟩
  · exact ⟨Side.keptBut_refl .., rfl⟩

theorem gload_reg (x : Side) (g : Nat) (env : Env) (w a k : Nat) (ha : a % 8 = 0) (hp : x.place a 8 = .reg k)
    (hl : (x.groom g).pl ≠ 0) :
    (x.fetched g env).gload g w a 8 env = .ok (((x.fetched g env).busRead k).1.toNat, ((x.fetched g env).busRead k).2) := by
  unfold Side.gload
  dsimp only
  rw [if_neg (by simp only [Side.fetched_groom]; exact fun h => hl h.2), if_neg (by simp [ha]), fetched_place, hp]

/-! ### Stores -/

theorem keepWords_eq (r : Groom) (f : Nat → Nat) (a n : Nat) : ∃ st, keepWords r f a n = { r with stale := st } := by
  unfold keepWords
  generalize upTo _ = l
  induction l generalizing r with
  | nil => exact ⟨r.stale, rfl⟩
  | cons i l ih =>
    rw [List.foldl_cons]
    obtain ⟨st, h⟩ := ih (r.keepOld ((a / 4 + i) * 4) (f ((a / 4 + i) * 4)))
    rw [h]
    unfold Groom.keepOld
    split <;> exact ⟨_, rfl⟩

theorem plain_of_eq {a b : Groom} (h : a.plain = b.plain) : a.x = b.x ∧ a.v = b.v ∧ a.p = b.p ∧ a.ctl = b.ctl ∧ a.lmem = b.lmem ∧ a.pc = b.pc := by
  refine ⟨?_, ?_, ?_, ?_, ?_, ?_⟩
  · simpa using congrArg Groom.x h
  · simpa using congrArg Groom.v h
  · simpa using congrArg Groom.p h
  · simpa using congrArg Groom.ctl h
  · simpa using congrArg Groom.lmem h
  · simpa using congrArg Groom.pc h

theorem cells_get {m n : Store} (h : m.cells = n.cells) (a : Nat) : m.get a = n.get a := by simp [Store.get, h]

theorem gstore_mem (z : Side) (g w a n v l : Nat) (ha : a % n = 0) (hp : z.place a n = .mem l) (hw : z.writeGuarded 0x10 l n = false) :
    ∃ st, z.gstore g w a n v = .ok ((z.setGroom g { z.groom g with stale := st }).store l (toBytes n v)) := by
  obtain ⟨st, hst⟩ := keepWords_eq (z.groom g) (fun b => z.num (b % 2 ^ 46) 4) a n
  refine ⟨st, ?_⟩
  unfold Side.gstore
  dsimp only
  rw [if_neg (by simp [place_mem_inRegs hp]), if_neg (by simp [ha]), hp]
  dsimp only
  rw [if_neg (by simp [hw]), hst]

theorem gstore_loc (z : Side) (g w a n v l : Nat) (ha : a % n = 0) (hp : z.place a n = .loc l) :
    ∃ st, z.gstore g w a n v = .ok (z.setGroom g ({ z.groom g with stale := st }.lstore l (toBytes n v))) := by
  obtain ⟨st, hst⟩ := keepWords_eq (z.groom g) (fun b => fromBytes ((Store.mk (z.groom g).lmem []).bytes (b % 2 ^ 18) 4)) a n
  refine ⟨st, ?_⟩
  unfold Side.gstore
  dsimp only
  rw [if_neg (by simp [place_loc_inRegs hp]), if_neg (by simp [ha]), hp]
  dsimp only
  rw [hst]

theorem gstore_reg (z x' : Side) (g w a k v : Nat) (ha : a % 8 = 0) (hp : z.place a 8 = .reg k) (hl : (z.groom g).pl ≠ 0)
    (hb : z.busWrite (z.groom g).pl k (BitVec.ofNat 64 v) = (true, x')) : z.gstore g w a 8 v = .ok x' := by
  unfold Side.gstore
  dsimp only
  rw [if_neg (fun h => hl h.2), if_neg (by simp [ha]), hp]
  dsimp only
  rw [hb]

theorem get_lstore (r : Groom) (l m : Nat) (bs : List Byte) :
    (Store.mk (r.lstore l bs).lmem []).get m = if l ≤ m ∧ m < l + bs.length then bs.getD (m - l) 0 else (Store.mk r.lmem []).get m :=
  get_cellsAfter_goodAt r.lmem l m bs

theorem fetched_get (x : Side) (g : Nat) (env : Env) (m : Nat) : (x.fetched g env).mem.get m = x.mem.get m :=
  cells_get ((Side.fetched_frame x g env [] (fun _ => False)).2.2.1 .cells (by unfold groomPieces; split <;> simp)) m

@[simp] theorem Side.store_groom (s : Side) (a : Nat) (bs : List Byte) (g : Nat) : (s.store a bs).groom g = s.groom g := rfl
@[simp] theorem Side.advance_length (s : Side) (g : Nat) : (s.advance g).grooms.length = s.grooms.length := by
  simp [Side.advance, Side.onGroom, Side.setGroom, setAt]
@[simp] theorem Side.setGroom_length (s : Side) (g : Nat) (r : Groom) : (s.setGroom g r).grooms.length = s.grooms.length := by
  simp [Side.setGroom, setAt]
@[simp] theorem Side.fetched_length (s : Side) (g : Nat) (env : Env) : (s.fetched g env).grooms.length = s.grooms.length := by simp

end Sys2Proof.Machine
end

