-- ==== Sys2Proof/Laws/Settle.lean ====
section
/-!
SUPPORT. Laws/Settle.lean: from the effect of a command to the side after it: settling touches nothing of a side but how far its commands
and its Grooms' waits have come, and a frame is built up change by change (`keptBut.then…`).
-/
namespace Sys2Proof.Machine

/-- A side with other commands and Grooms, and with no agent's effect under way. -/
def Side.swap (z : Side) (o : List Op) (g : List Groom) : Side := { z with ops := o, grooms := g, acts := Agent.hub }

@[simp] theorem Side.swap_rd (z : Side) (o g) (k : Nat) : (z.swap o g).rd k = z.rd k := rfl
@[simp] theorem Side.swap_fld (z : Side) (o g) (k a b : Nat) : (z.swap o g).fld k a b = z.fld k a b := rfl
@[simp] theorem Side.swap_flag (z : Side) (o g) (k a : Nat) : (z.swap o g).flag k a = z.flag k a := rfl
@[simp] theorem Side.swap_phase (z : Side) (o g) : (z.swap o g).phase = z.phase := rfl
@[simp] theorem Side.swap_mem (z : Side) (o g) : (z.swap o g).mem = z.mem := rfl
@[simp] theorem Side.swap_guards (z : Side) (o g) : (z.swap o g).guards = z.guards := rfl
@[simp] theorem Side.swap_returns (z : Side) (o g) : (z.swap o g).returns = z.returns := rfl
@[simp] theorem Side.swap_rr (z : Side) (o g) : (z.swap o g).rr = z.rr := rfl
@[simp] theorem Side.swap_datum (z : Side) (o g) : (z.swap o g).datum = z.datum := rfl
@[simp] theorem Side.swap_lg (z : Side) (o g) : (z.swap o g).lg = z.lg := rfl
@[simp] theorem Side.swap_ing (z : Side) (o g) : (z.swap o g).ing = z.ing := rfl
@[simp] theorem Side.swap_tr (z : Side) (o g) : (z.swap o g).tr = z.tr := rfl
@[simp] theorem Side.swap_gt (z : Side) (o g) : (z.swap o g).gt = z.gt := rfl
@[simp] theorem Side.swap_pl (z : Side) (o g) : (z.swap o g).pl = z.pl := rfl
@[simp] theorem Side.swap_pt (z : Side) (o g) : (z.swap o g).pt = z.pt := rfl
@[simp] theorem Side.swap_tv (z : Side) (o g) : (z.swap o g).tv = z.tv := rfl
@[simp] theorem Side.swap_br (z : Side) (o g) : (z.swap o g).br = z.br := rfl
@[simp] theorem Side.swap_mangers (z : Side) (o g) : (z.swap o g).mangers = z.mangers := rfl
@[simp] theorem Side.swap_outriders (z : Side) (o g) : (z.swap o g).outriders = z.outriders := rfl
@[simp] theorem Side.swap_scrubLine (z : Side) (o g) : (z.swap o g).scrubLine = z.scrubLine := rfl
@[simp] theorem Side.swap_xout (z : Side) (o g) : (z.swap o g).xout = z.xout := rfl
@[simp] theorem Side.swap_egress (z : Side) (o g) : (z.swap o g).egress = z.egress := rfl
@[simp] theorem Side.swap_events (z : Side) (o g) : (z.swap o g).events = z.events := rfl
@[simp] theorem Side.swap_unver (z : Side) (o g) : (z.swap o g).unver = z.unver := rfl
@[simp] theorem Side.swap_sw (z : Side) (o g) : (z.swap o g).sw = z.sw := rfl
@[simp] theorem Side.swap_kp (z : Side) (o g) : (z.swap o g).kp = z.kp := rfl
@[simp] theorem Side.swap_pm (z : Side) (o g) : (z.swap o g).pm = z.pm := rfl
@[simp] theorem Side.swap_power (z : Side) (o g) : (z.swap o g).power = z.power := rfl
@[simp] theorem Side.swap_host (z : Side) (o g) : (z.swap o g).host = z.host := rfl
@[simp] theorem Side.swap_fresh (z : Side) (o g) : (z.swap o g).fresh = z.fresh := rfl
@[simp] theorem Side.swap_acts (z : Side) (o g) : (z.swap o g).acts = Agent.hub := rfl
@[simp] theorem Side.swap_ops (z : Side) (o g) : (z.swap o g).ops = o := rfl
@[simp] theorem Side.swap_grooms (z : Side) (o g) : (z.swap o g).grooms = g := rfl
@[simp] theorem Side.swap_id (z : Side) (o g) : (z.swap o g).id = z.id := rfl
@[simp] theorem Side.swap_part (z : Side) (o g) : (z.swap o g).part = z.part := rfl

theorem Side.after_swap {x : Side} {f : Side → Side} (hi : (f x).id = x.id) (hp : (f x).part = x.part) :
    x.after f = (f x).swap (f x).settle.ops (f x).settle.grooms := by
  unfold Side.after Side.swap
  rw [← hi, ← hp]; rfl

/-- A command of a working side: what it leaves is said of its effect with the commands and Grooms that settling may touch (`swap`) put in. -/
theorem onSide_settles {i : Instr} {s : State} {sd : SideId} {f : Side → Side} {z : Side} {ps : List Piece} {rs : Nat → Prop}
    {P : Side → Side → Prop}
    (he : exec i s = onSide sd f s) (hl : (s.side sd).live = true) (hz : f (s.side sd) = z) (hk : (s.side sd).keptBut z ps rs)
    (hQ : ∀ o g, o.map Op.plain = z.ops.map Op.plain → g.map Groom.plain = z.grooms.map Groom.plain →
      (s.side sd).keptBut (z.swap o g) ps rs → P (s.side sd) (z.swap o g)) : s.does i sd P := by
  refine onSide_does he hl ?_
  subst hz
  have h := Side.after_swap (x := s.side sd) (f := f) hk.1 hk.2.1
  have hb := Side.after_keptBut (x := s.side sd) (f := f) hk
  rw [h] at hb ⊢
  exact hQ _ _ (settle_plain_ops _) (settle_plain_grooms _) hb

/-- The same of a pin, which acts in every phase. -/
theorem onPins_settles {i : Instr} {s : State} {sd : SideId} {f : Side → Side} {z : Side} {ps : List Piece} {rs : Nat → Prop}
    {P : Side → Side → Prop}
    (he : exec i s = onPins sd f s) (hz : f (s.side sd) = z) (hk : (s.side sd).keptBut z ps rs)
    (hQ : ∀ o g, o.map Op.plain = z.ops.map Op.plain → g.map Groom.plain = z.grooms.map Groom.plain →
      (s.side sd).keptBut (z.swap o g) ps rs → P (s.side sd) (z.swap o g)) : s.does i sd P := by
  refine onPins_does he ?_
  subst hz
  have h := Side.after_swap (x := s.side sd) (f := f) hk.1 hk.2.1
  have hb := Side.after_keptBut (x := s.side sd) (f := f) hk
  rw [h] at hb ⊢
  exact hQ _ _ (settle_plain_ops _) (settle_plain_grooms _) hb

/-- The same of a register write that is performed. -/
theorem wreg_settles {i : Instr} {s : State} {sd : SideId} {k : Nat} {v : Word} {r : RegSpec} {z : Side} {ps : List Piece}
    {rs : Nat → Prop} {P : Side → Side → Prop} {level : Nat}
    (h : (s.side sd).takes level k v) (he : exec i s = onSide sd (wreg level k v) s) (hr : specOf k = some r)
    (hz : (s.side sd).regWrite level k r v = z) (hk : (s.side sd).keptBut z ps rs)
    (hQ : ∀ o g, o.map Op.plain = z.ops.map Op.plain → g.map Groom.plain = z.grooms.map Groom.plain →
      (s.side sd).keptBut (z.swap o g) ps rs → P (s.side sd) (z.swap o g)) : s.does i sd P := by
  obtain ⟨r', h2, h3⟩ := wreg_takes h
  rw [hr] at h2; cases h2
  exact onSide_settles he h.1 (h3.trans hz) hk hQ


theorem Side.keptBut.of {x y z : Side} {ps qs : List Piece} {rs ts : Nat → Prop} (h : x.keptBut y ps rs) (k : y.keptBut z qs ts)
    (hp : ∀ p, p ∈ qs → p ∈ ps) (hr : ∀ k, ts k → rs k) : x.keptBut z ps rs :=
  Side.keptBut_trans h (Side.keptBut_mono k hp hr)
theorem Side.keptBut.reg {x y z : Side} {ps : List Piece} {rs : Nat → Prop} {k : Nat} (h : x.keptBut y ps rs) (hk : y.keptBut z [] (fun j => j = k))
    (hr : rs k) : x.keptBut z ps rs := h.of hk (fun _ h => nomatch h) (fun _ e => e ▸ hr)
theorem Side.keptBut.thenWr {x y : Side} {ps : List Piece} {rs : Nat → Prop} {k : Nat} {v : Word} (h : x.keptBut y ps rs) (hr : rs k) :
    x.keptBut (y.wr k v) ps rs := h.reg (Side.wr_keptBut ..) hr
theorem Side.keptBut.thenPut {x y : Side} {ps : List Piece} {rs : Nat → Prop} {k a b c : Nat} (h : x.keptBut y ps rs) (hr : rs k) :
    x.keptBut (y.put k a b c) ps rs := h.reg (Side.put_keptBut ..) hr
theorem Side.keptBut.thenCount {x y : Side} {ps : List Piece} {rs : Nat → Prop} {k a b c : Nat} (h : x.keptBut y ps rs) (hr : rs k) :
    x.keptBut (y.count k a b c) ps rs := h.reg (Side.count_keptBut ..) hr
theorem Side.keptBut.thenSignal {x y : Side} {ps : List Piece} {rs : Nat → Prop} {t a : Nat} (h : x.keptBut y ps rs) (hr : rs (Reg.TE_VALUE t)) :
    x.keptBut (y.signal t a) ps rs := h.reg (Side.signal_keptBut ..) hr
theorem Side.keptBut.thenRaise {x y : Side} {ps : List Piece} {rs : Nat → Prop} {c u i d f : Nat} {cm pt : Option (Nat × Nat)} (h : x.keptBut y ps rs)
    (hp : Piece.events ∈ ps) : x.keptBut (y.raise c u i cm d f pt) ps rs :=
  h.of (Side.raise_keptBut _ _ _ _ _ _ _ _ rs) (by simp [hp]) (fun _ h => h)
/-- A change of pieces alone. -/
theorem Side.keptBut.thenPieces {x y z : Side} {ps : List Piece} {rs : Nat → Prop} (h : x.keptBut y ps rs) (hi : z.id = y.id) (hp : z.part = y.part)
    (hr : z.regs = y.regs) (hk : ∀ p, p ∉ ps → y.keeps z p) : x.keptBut z ps rs :=
  Side.keptBut_trans h (Side.keptBut_of_regs rs hi hp hr hk)
theorem Side.keptBut.none (x : Side) (ps : List Piece) (rs : Nat → Prop) : x.keptBut x ps rs := Side.keptBut_refl ..

/-! ### Register writes, bit by bit -/

/-- A command of a working side whose effect is nothing. -/
theorem does_unchanged {i : Instr} {s : State} {sd : SideId} {f : Side → Side} (he : exec i s = onSide sd f s) (hl : (s.side sd).live = true)
   (hz : f (s.side sd) = s.side sd) : s.does i sd Side.unchanged :=
  onSide_settles he hl hz (Side.keptBut_refl _ _ _) (fun _ _ _ _ h => h)

/-- A command of a working side whose effect is one register. -/
theorem does_onlyReg {i : Instr} {s : State} {sd : SideId} {f : Side → Side} {k : Nat} {v : Word} (he : exec i s = onSide sd f s) (hl : (s.side sd).live = true)
   (hz : f (s.side sd) = (s.side sd).wr k v) : s.does i sd (fun x y => x.onlyReg y k v) :=
  onSide_settles he hl hz (Side.wr_keptBut ..) (fun o g _ _ h => ⟨by simp, h⟩)

theorem hasInst_DT_NOW (p : Part) : p.hasInst (Reg.DT_NOW / 0x1000000) (Reg.DT_NOW / 0x10000 % 0x100) = true := by cases p <;> rfl

theorem flag_getLsbD (w : Word) (n : Nat) : w.flag n = w.getLsbD n := by
  unfold Word.flag bitAt
  rw [BitVec.getLsbD, Nat.testBit_eq_decide_div_mod_eq, Nat.shiftRight_eq_div_pow]
  by_cases h : w.toNat / 2 ^ n % 2 = 1 <;> simp [h]
theorem bitAt_testBit (w n : Nat) : bitAt w n = w.testBit n := by
  unfold bitAt
  rw [Nat.testBit_eq_decide_div_mod_eq, Nat.shiftRight_eq_div_pow]
  by_cases h : w / 2 ^ n % 2 = 1 <;> simp [h]

theorem fld_congr {w v : Word} {lo n : Nat} (h : ∀ i, lo ≤ i → i < lo + n → w.getLsbD i = v.getLsbD i) : w.fld lo n = v.fld lo n := by
  unfold Word.fld bits
  apply Nat.eq_of_testBit_eq
  intro i
  simp only [Nat.testBit_mod_two_pow, Nat.testBit_shiftRight]
  by_cases hi : i < n
  · simp only [hi, decide_true, Bool.true_and]; exact h (lo + i) (by omega) (by omega)
  · simp [hi]

theorem plainWrite_bit (x : Side) (k : Nat) (r : RegSpec) (v : Word) {n : Nat} (hn : n < 64) : ((x.plainWrite k r v).rd k).getLsbD n =
    if r.w1s.testBit n ∧ v.getLsbD n then true else if r.w1c.testBit n ∧ v.getLsbD n then false
      else if r.rw.testBit n then v.getLsbD n else (x.rd k).getLsbD n := by
  unfold Side.plainWrite
  simp only []
  rw [Side.rd_wr_same]
  simp only [BitVec.getLsbD_or, BitVec.getLsbD_and, BitVec.getLsbD_not, BitVec.getLsbD_ofNat, hn, decide_true, Bool.true_and]
  cases r.w1s.testBit n <;> cases r.w1c.testBit n <;> cases r.rw.testBit n <;> cases v.getLsbD n <;> simp

/-- A field of RW bits after a plain write. -/
theorem plainWrite_fld (x : Side) (k : Nat) (r : RegSpec) (v : Word) {lo n : Nat} (hb : lo + n ≤ 64)
    (h : ∀ i < lo + n, lo ≤ i → r.rw.testBit i = true ∧ r.w1c.testBit i = false ∧ r.w1s.testBit i = false) :
    (x.plainWrite k r v).fld k lo n = v.fld lo n := by
  refine fld_congr (fun i h1 h2 => ?_)
  rw [plainWrite_bit x k r v (by omega)]
  obtain ⟨a, b, c⟩ := h i h2 h1
  simp [a, b, c]

/-- The whole of a register of RW bits after a plain write. -/
theorem plainWrite_rd (x : Side) (k : Nat) (r : RegSpec) (v : Word) (h : ∀ i < 64, r.rw.testBit i = true ∧ r.w1c.testBit i = false ∧ r.w1s.testBit i = false) :
    (x.plainWrite k r v).rd k = v := by
  apply BitVec.eq_of_getLsbD_eq
  intro i hi
  rw [plainWrite_bit x k r v (by omega)]
  obtain ⟨a, b, c⟩ := h i hi
  simp [a, b, c]

theorem Side.plainWrite_keptBut (x : Side) (k : Nat) (r : RegSpec) (v : Word) : x.keptBut (x.plainWrite k r v) [] (fun j => j = k) := Side.wr_keptBut ..
theorem plainWrite_eq_wr (x : Side) (k : Nat) (r : RegSpec) (v : Word) (h : ∀ i < 64, r.rw.testBit i = true ∧ r.w1c.testBit i = false ∧ r.w1s.testBit i = false) :
    x.plainWrite k r v = x.wr k v := by
  have := plainWrite_rd x k r v h
  unfold Side.plainWrite at this ⊢
  simp only [Side.rd_wr_same] at this ⊢
  rw [this]

/-- A write that is performed sets no bit that its register lacks. -/
theorem takes_bit {x : Side} {level k : Nat} {v : Word} {r : RegSpec} (h : x.takes level k v) (hr : specOf k = some r) {i : Nat}
    (hi : (2 ^ 64 - 1 - r.known).testBit i = true) : v.toNat.testBit i = false := by
  obtain ⟨_, _, _, r', h2, h3⟩ := h
  rw [hr] at h2; cases h2
  have := congrArg (fun n => n.testBit i) h3
  simp only [Nat.testBit_and, hi, Bool.and_true, Nat.zero_testBit] at this
  exact this

theorem takes_fld {x : Side} {level k : Nat} {v : Word} {r : RegSpec} (h : x.takes level k v) (hr : specOf k = some r) (lo n : Nat)
    (hm : ∀ i < 64, (lo ≤ i ∧ i < lo + n) ∨ (2 ^ 64 - 1 - r.known).testBit i = true) : v.fld lo n * 2 ^ lo = v.toNat := by
  apply Nat.eq_of_testBit_eq
  intro i
  unfold Word.fld bits
  rw [Nat.testBit_mul_two_pow, Nat.testBit_mod_two_pow, Nat.testBit_shiftRight]
  by_cases h64 : i < 64
  · rcases hm i h64 with ⟨a, b⟩ | hb
    · simp [a, show i - lo < n by omega, show lo + (i - lo) = i by omega]
    · have := takes_bit h hr hb
      rw [this]
      by_cases a : lo ≤ i
      · simp [a, show lo + (i - lo) = i by omega, this]
      · simp [a]
  · have : v.toNat.testBit i = false := Nat.testBit_lt_two_pow (Nat.lt_of_lt_of_le v.isLt (Nat.pow_le_pow_right (by decide) (by omega)))
    rw [this]
    by_cases a : lo ≤ i
    · simp [a, show lo + (i - lo) = i by omega, this]
    · simp [a]

theorem ctlGet_set_same (r : Groom) (n : Nat) (v : Word) : (r.ctlSet n v).ctlGet n = v := alGet_alPut_same ..
theorem ctlGet_set_other (r : Groom) {n m : Nat} (v : Word) (h : m ≠ n) : (r.ctlSet n v).ctlGet m = r.ctlGet m := alGet_alPut_other _ _ _ _ h

theorem plain_of_notTwait {r : Groom} (h : r.wait = .none) : r.plain = r := by
  unfold Groom.plain; rw [h]

theorem groom_of_grooms {x y : Side} (h : y.grooms.map Groom.plain = x.grooms.map Groom.plain) (g : Nat) : (y.groom g).plain = (x.groom g).plain :=
  groom_plain_of_map h g

theorem swap_groom_plain {z : Side} {o : List Op} {g : List Groom} (h : g.map Groom.plain = z.grooms.map Groom.plain) (i : Nat) :
   ((z.swap o g).groom i).plain = (z.groom i).plain := groom_plain_of_map (y := z.swap o g) h i

theorem wait_of_plain {a b : Groom} (h : a.plain = b.plain) (hb : b.wait = .none) : a = b := by
  rw [plain_of_notTwait hb] at h
  rw [← h]
  cases a with | mk x v p pc ctl lmem halted cause wait stale sendQ recvQ errQ lastRole lastDt =>
  cases wait with
  | none => rfl
  | wfe => rfl
  | twait => subst h; simp [Groom.plain] at hb

theorem putBits_bit (v lo n f i : Nat) : (putBits v lo n f).testBit i = if lo ≤ i ∧ i < lo + n then f.testBit (i - lo) else v.testBit i := by
  have hb : ∀ w : Nat, w.testBit i = decide (bits w i 1 = 1) := by
    intro w; unfold bits; rw [Nat.testBit_eq_decide_div_mod_eq, Nat.shiftRight_eq_div_pow, Nat.pow_one]
  by_cases h : lo ≤ i ∧ i < lo + n
  · rw [if_pos h]
    have e := bits_putBits_same v lo n f
    have : (bits (putBits v lo n f) lo n).testBit (i - lo) = (putBits v lo n f).testBit i := by
      unfold bits; rw [Nat.testBit_mod_two_pow, Nat.testBit_shiftRight]
      simp [show i - lo < n by omega, show lo + (i - lo) = i by omega]
    rw [← this, e, Nat.testBit_mod_two_pow]; simp [show i - lo < n by omega]
  · rw [if_neg h, hb, hb v]
    rcases Nat.lt_or_ge i lo with h1 | h1
    · rw [bits_putBits_below _ _ (by omega)]
    · rw [bits_putBits_above _ _ (by omega)]

theorem put_bit (w : Word) (lo n f i : Nat) (hi : i < 64) : (w.put lo n f).getLsbD i = if lo ≤ i ∧ i < lo + n then f.testBit (i - lo) else w.getLsbD i := by
  unfold Word.put
  rw [BitVec.getLsbD_ofNat]; simp only [hi, decide_true, Bool.true_and]
  exact putBits_bit _ _ _ _ _

theorem put_put (w : Word) (lo n f g : Nat) : (w.put lo n f).put lo n g = w.put lo n g := by
  apply BitVec.eq_of_getLsbD_eq
  intro i hi
  rw [put_bit _ _ _ _ _ hi, put_bit _ _ _ _ _ hi, put_bit _ _ _ _ _ hi]
  split <;> rfl

theorem clearBits_flag (x : Side) (k : Nat) (r : RegSpec) (v : Word) {i : Nat} (hi : i < 64) (h : r.w1c.testBit i = false) : (x.clearBits k r v).flag k i = x.flag k i := by
  unfold Side.flag Side.clearBits
  rw [Side.rd_wr_same, flag_getLsbD, flag_getLsbD, BitVec.getLsbD_and, BitVec.getLsbD_not, BitVec.getLsbD_and, BitVec.getLsbD_ofNat]
  simp [hi, h]

/-! ### Frames, change by change -/

theorem Side.clearBits_keptBut (x : Side) (k : Nat) (r : RegSpec) (v : Word) : x.keptBut (x.clearBits k r v) [] (fun j => j = k) := Side.wr_keptBut ..
theorem Side.keptBut.thenClear {x y : Side} {ps : List Piece} {rs : Nat → Prop} {k : Nat} {r : RegSpec} {v : Word} (h : x.keptBut y ps rs) (hr : rs k) : x.keptBut (y.clearBits k r v) ps rs := h.reg (Side.clearBits_keptBut ..) hr

theorem Side.keptBut.then_inSet {x y : Side} {ps : List Piece} {rs : Nat → Prop} (f : Ingress → Ingress) (h : x.keptBut y ps rs) (h0 : Piece.ing ∈ ps) : x.keptBut (y.inSet f) ps rs :=
  Side.keptBut_trans h (Side.keptBut_of_regs rs rfl rfl rfl (fun p hp => by cases p <;> first | rfl | (exfalso; exact hp (by assumption))))
theorem Side.keptBut.then_trSet {x y : Side} {ps : List Piece} {rs : Nat → Prop} (f : Transit → Transit) (h : x.keptBut y ps rs) (h0 : Piece.tr ∈ ps) : x.keptBut (y.trSet f) ps rs :=
  Side.keptBut_trans h (Side.keptBut_of_regs rs rfl rfl rfl (fun p hp => by cases p <;> first | rfl | (exfalso; exact hp (by assumption))))
theorem Side.keptBut.then_gtSet {x y : Side} {ps : List Piece} {rs : Nat → Prop} (f : Gait → Gait) (h : x.keptBut y ps rs) (h0 : Piece.gt ∈ ps) : x.keptBut (y.gtSet f) ps rs :=
  Side.keptBut_trans h (Side.keptBut_of_regs rs rfl rfl rfl (fun p hp => by cases p <;> first | rfl | (exfalso; exact hp (by assumption))))
theorem Side.keptBut.then_ptSet {x y : Side} {ps : List Piece} {rs : Nat → Prop} (f : Plat → Plat) (h : x.keptBut y ps rs) (h0 : Piece.pt ∈ ps) : x.keptBut (y.ptSet f) ps rs :=
  Side.keptBut_trans h (Side.keptBut_of_regs rs rfl rfl rfl (fun p hp => by cases p <;> first | rfl | (exfalso; exact hp (by assumption))))
theorem Side.keptBut.then_tvSet {x y : Side} {ps : List Piece} {rs : Nat → Prop} (f : Traverse → Traverse) (h : x.keptBut y ps rs) (h0 : Piece.tv ∈ ps) : x.keptBut (y.tvSet f) ps rs :=
  Side.keptBut_trans h (Side.keptBut_of_regs rs rfl rfl rfl (fun p hp => by cases p <;> first | rfl | (exfalso; exact hp (by assumption))))
theorem Side.keptBut.then_brSet {x y : Side} {ps : List Piece} {rs : Nat → Prop} (f : Bridle → Bridle) (h : x.keptBut y ps rs) (h0 : Piece.br ∈ ps) : x.keptBut (y.brSet f) ps rs :=
  Side.keptBut_trans h (Side.keptBut_of_regs rs rfl rfl rfl (fun p hp => by cases p <;> first | rfl | (exfalso; exact hp (by assumption))))
theorem Side.keptBut.then_haSet {x y : Side} {ps : List Piece} {rs : Nat → Prop} (f : HostAgent → HostAgent) (h : x.keptBut y ps rs) (h0 : Piece.host ∈ ps) : x.keptBut (y.haSet f) ps rs :=
  Side.keptBut_trans h (Side.keptBut_of_regs rs rfl rfl rfl (fun p hp => by cases p <;> first | rfl | (exfalso; exact hp (by assumption))))
theorem Side.keptBut.then_kpSet {x y : Side} {ps : List Piece} {rs : Nat → Prop} (f : Keeper → Keeper) (h : x.keptBut y ps rs) (h0 : Piece.kp ∈ ps) : x.keptBut (y.kpSet f) ps rs :=
  Side.keptBut_trans h (Side.keptBut_of_regs rs rfl rfl rfl (fun p hp => by cases p <;> first | rfl | (exfalso; exact hp (by assumption))))
theorem Side.keptBut.then_pmSet {x y : Side} {ps : List Piece} {rs : Nat → Prop} (f : Pm → Pm) (h : x.keptBut y ps rs) (h0 : Piece.pm ∈ ps) : x.keptBut (y.pmSet f) ps rs :=
  Side.keptBut_trans h (Side.keptBut_of_regs rs rfl rfl rfl (fun p hp => by cases p <;> first | rfl | (exfalso; exact hp (by assumption))))
theorem Side.keptBut.then_onSlot {x y : Side} {ps : List Piece} {rs : Nat → Prop} (i : Nat) (f : Slot → Slot) (h : x.keptBut y ps rs) (h0 : Piece.ing ∈ ps) : x.keptBut (y.onSlot i f) ps rs :=
  Side.keptBut_trans h (Side.keptBut_of_regs rs rfl rfl rfl (fun p hp => by cases p <;> first | rfl | (exfalso; exact hp (by assumption))))
theorem Side.keptBut.then_onStream {x y : Side} {ps : List Piece} {rs : Nat → Prop} (i : Nat) (f : TrStream → TrStream) (h : x.keptBut y ps rs) (h0 : Piece.tr ∈ ps) : x.keptBut (y.onStream i f) ps rs :=
  Side.keptBut_trans h (Side.keptBut_of_regs rs rfl rfl rfl (fun p hp => by cases p <;> first | rfl | (exfalso; exact hp (by assumption))))
theorem Side.keptBut.then_onTrot {x y : Side} {ps : List Piece} {rs : Nat → Prop} (u i : Nat) (f : TrotUnit → TrotUnit) (h : x.keptBut y ps rs) (h0 : Piece.sw ∈ ps) : x.keptBut (y.onTrot u i f) ps rs :=
  Side.keptBut_trans h (Side.keptBut_of_regs rs rfl rfl rfl (fun p hp => by cases p <;> first | rfl | (exfalso; exact hp (by assumption))))
theorem Side.keptBut.then_onManger {x y : Side} {ps : List Piece} {rs : Nat → Prop} (e : Nat) (f : Manger → Manger) (h : x.keptBut y ps rs) (h0 : Piece.mangers ∈ ps) : x.keptBut (y.onManger e f) ps rs :=
  Side.keptBut_trans h (Side.keptBut_of_regs rs rfl rfl rfl (fun p hp => by cases p <;> first | rfl | (exfalso; exact hp (by assumption))))
theorem Side.keptBut.then_onOutrider {x y : Side} {ps : List Piece} {rs : Nat → Prop} (i : Nat) (f : Outrider → Outrider) (h : x.keptBut y ps rs) (h0 : Piece.outriders ∈ ps) : x.keptBut (y.onOutrider i f) ps rs :=
  Side.keptBut_trans h (Side.keptBut_of_regs rs rfl rfl rfl (fun p hp => by cases p <;> first | rfl | (exfalso; exact hp (by assumption))))
theorem Side.keptBut.then_onRings {x y : Side} {ps : List Piece} {rs : Nat → Prop} (i c : Nat) (f : OrRings → OrRings) (h : x.keptBut y ps rs) (h0 : Piece.outriders ∈ ps) : x.keptBut (y.onRings i c f) ps rs :=
  Side.keptBut_trans h (Side.keptBut_of_regs rs rfl rfl rfl (fun p hp => by cases p <;> first | rfl | (exfalso; exact hp (by assumption))))
theorem Side.keptBut.then_send {x y : Side} {ps : List Piece} {rs : Nat → Prop} (p : Nat) (bs : List Byte) (h : x.keptBut y ps rs) (h0 : Piece.egress ∈ ps) : x.keptBut (y.send p bs) ps rs :=
  Side.keptBut_trans h (Side.keptBut_of_regs rs rfl rfl rfl (fun p hp => by cases p <;> first | rfl | (exfalso; exact hp (by assumption))))
theorem Side.keptBut.then_raise {x y : Side} {ps : List Piece} {rs : Nat → Prop} (c u i : Nat) (cm : Option (Nat × Nat)) (d f : Nat) (p : Option (Nat × Nat)) (h : x.keptBut y ps rs) (h0 : Piece.events ∈ ps) : x.keptBut (y.raise c u i cm d f p) ps rs :=
  Side.keptBut_trans h (Side.keptBut_of_regs rs rfl rfl rfl (fun p hp => by cases p <;> first | rfl | (exfalso; exact hp (by assumption))))
theorem Side.keptBut.then_onTag {x y : Side} {ps : List Piece} {rs : Nat → Prop} (m : Nat) (f : PmTag → PmTag) (h : x.keptBut y ps rs) (h0 : Piece.pm ∈ ps) : x.keptBut (y.onTag m f) ps rs :=
  Side.keptBut_trans h (Side.keptBut_of_regs rs rfl rfl rfl (fun p hp => by cases p <;> first | rfl | (exfalso; exact hp (by assumption))))
theorem Side.keptBut.then_setGroom {x y : Side} {ps : List Piece} {rs : Nat → Prop} (g : Nat) (r : Groom) (h : x.keptBut y ps rs) (h0 : Piece.grooms ∈ ps) : x.keptBut (y.setGroom g r) ps rs :=
  Side.keptBut_trans h (Side.keptBut_of_regs rs rfl rfl rfl (fun p hp => by cases p <;> first | rfl | (exfalso; exact hp (by assumption))))
theorem Side.keptBut.then_onGroom {x y : Side} {ps : List Piece} {rs : Nat → Prop} (g : Nat) (f : Groom → Groom) (h : x.keptBut y ps rs) (h0 : Piece.grooms ∈ ps) : x.keptBut (y.onGroom g f) ps rs :=
  Side.keptBut_trans h (Side.keptBut_of_regs rs rfl rfl rfl (fun p hp => by cases p <;> first | rfl | (exfalso; exact hp (by assumption))))
theorem Side.keptBut.then_scatter {x y : Side} {ps : List Piece} {rs : Nat → Prop} (w : Nat) (ws : List (Nat × Byte × Bool)) (h : x.keptBut y ps rs) (h0 : Piece.cells ∈ ps) (h1 : Piece.poison ∈ ps) : x.keptBut ((y.scatter w ws).1) ps rs :=
  Side.keptBut_trans h (Side.keptBut_of_regs rs rfl rfl rfl (fun p hp => by cases p <;> first | rfl | (exfalso; exact hp (by assumption))))
theorem Side.keptBut.then_store {x y : Side} {ps : List Piece} {rs : Nat → Prop} (a : Nat) (bs : List Byte) (h : x.keptBut y ps rs) (h0 : Piece.cells ∈ ps) (h1 : Piece.poison ∈ ps) : x.keptBut (y.store a bs) ps rs :=
  Side.keptBut_trans h (Side.keptBut_of_regs rs rfl rfl rfl (fun p hp => by cases p <;> first | rfl | (exfalso; exact hp (by assumption))))
theorem Side.keptBut.then_draw {x y : Side} {ps : List Piece} {rs : Nat → Prop}  (h : x.keptBut y ps rs) (h0 : Piece.fresh ∈ ps) : x.keptBut ((y.draw).2) ps rs :=
  Side.keptBut_trans h (Side.keptBut_of_regs rs rfl rfl rfl (fun p hp => by cases p <;> first | rfl | (exfalso; exact hp (by assumption))))
theorem Side.keptBut.then_leave {x y : Side} {ps : List Piece} {rs : Nat → Prop} (o : Op) (h : x.keptBut y ps rs) (h0 : Piece.ops ∈ ps) (h1 : Piece.outriders ∈ ps) : x.keptBut (y.leave o) ps rs :=
  Side.keptBut_trans h (Side.keptBut_of_regs rs rfl rfl rfl (fun p hp => by cases p <;> first | rfl | (exfalso; exact hp (by assumption))))
theorem Side.keptBut.then_setOp {x y : Side} {ps : List Piece} {rs : Nat → Prop} (o : Op) (h : x.keptBut y ps rs) (h0 : Piece.ops ∈ ps) : x.keptBut (y.setOp o) ps rs :=
  Side.keptBut_trans h (Side.keptBut_of_regs rs rfl rfl rfl (fun p hp => by cases p <;> first | rfl | (exfalso; exact hp (by assumption))))
theorem Side.keptBut.then_dt {x y : Side} {ps : List Piece} {rs : Nat → Prop} (f : Datum → Datum) (h : x.keptBut y ps rs) (h0 : Piece.datum ∈ ps) : x.keptBut (y.dt f) ps rs :=
  Side.keptBut_trans h (Side.keptBut_of_regs rs rfl rfl rfl (fun p hp => by cases p <;> first | rfl | (exfalso; exact hp (by assumption))))
theorem Side.keptBut.then_lgSet {x y : Side} {ps : List Piece} {rs : Nat → Prop} (f : Launch → Launch) (h : x.keptBut y ps rs) (h0 : Piece.lg ∈ ps) : x.keptBut (y.lgSet f) ps rs :=
  Side.keptBut_trans h (Side.keptBut_of_regs rs rfl rfl rfl (fun p hp => by cases p <;> first | rfl | (exfalso; exact hp (by assumption))))
theorem Side.keptBut.then_swSet {x y : Side} {ps : List Piece} {rs : Nat → Prop} (f : Steward → Steward) (h : x.keptBut y ps rs) (h0 : Piece.sw ∈ ps) : x.keptBut (y.swSet f) ps rs :=
  Side.keptBut_trans h (Side.keptBut_of_regs rs rfl rfl rfl (fun p hp => by cases p <;> first | rfl | (exfalso; exact hp (by assumption))))
theorem Side.keptBut.then_pwSet {x y : Side} {ps : List Piece} {rs : Nat → Prop} (f : Power → Power) (h : x.keptBut y ps rs) (h0 : Piece.power ∈ ps) : x.keptBut (y.pwSet f) ps rs :=
  Side.keptBut_trans h (Side.keptBut_of_regs rs rfl rfl rfl (fun p hp => by cases p <;> first | rfl | (exfalso; exact hp (by assumption))))
theorem Side.keptBut.then_addGuard {x y : Side} {ps : List Piece} {rs : Nat → Prop} (g : Guard) (h : x.keptBut y ps rs) (h0 : Piece.guards ∈ ps) : x.keptBut (y.addGuard g) ps rs :=
  Side.keptBut_trans h (Side.keptBut_of_regs rs rfl rfl rfl (fun p hp => by cases p <;> first | rfl | (exfalso; exact hp (by assumption))))
theorem Side.keptBut.then_dropGuard {x y : Side} {ps : List Piece} {rs : Nat → Prop} (k : Nat) (h : x.keptBut y ps rs) (h0 : Piece.guards ∈ ps) : x.keptBut (y.dropGuard k) ps rs :=
  Side.keptBut_trans h (Side.keptBut_of_regs rs rfl rfl rfl (fun p hp => by cases p <;> first | rfl | (exfalso; exact hp (by assumption))))

end Sys2Proof.Machine
end

