-- ==== Sys2Proof/Laws/Commands.lean ====
section
/-!
SUPPORT. Laws/Commands.lean: a running command is the one whose effect a row performs, and what the end of a command of a queue leaves: its
record, its tether, the commands still in flight, and everything else as it was.
-/
namespace Sys2Proof.Machine

/-! ### The command that runs -/

/-- What is known of a command that runs (R131). -/
theorem Side.runs_spec {x : Side} {unit inst opcode : Nat} {env : Env} {o : Op} (h : x.runs unit inst opcode env o) :
    o ∈ x.ops ∧ o.unit = unit ∧ o.opcode = opcode ∧ o.inst = inst := by
  have hf := h.2.2.1
  unfold Side.running at hf
  have hm := List.mem_of_find?_eq_some hf
  have hp := List.find?_some hf
  simp only [Bool.and_eq_true, beq_iff_eq] at hp
  refine ⟨hm, hp.1.1, hp.1.2, ?_⟩
  have h3 := hp.2
  unfold Op.inst
  cases hr : o.run with
  | none => simp [hr] at h3
  | some e => rw [hr] at h3; simpa using h3

/-- The side as a running command's instance meets it differs only in who acts. -/
theorem Side.asRun_keptBut (x : Side) (o : Op) (ps : List Piece) (rs : Nat → Prop) : x.keptBut (x.asRun o) ps rs :=
  ⟨rfl, rfl, fun p _ => by cases p <;> rfl, fun _ _ => rfl⟩

@[simp] theorem Side.asRun_mem (x : Side) (o : Op) : (x.asRun o).mem = x.mem := rfl
@[simp] theorem Side.asRun_ops (x : Side) (o : Op) : (x.asRun o).ops = x.ops := rfl
@[simp] theorem Side.asRun_rd (x : Side) (o : Op) (k : Nat) : (x.asRun o).rd k = x.rd k := rfl
@[simp] theorem Side.asRun_fld (x : Side) (o : Op) (k a b : Nat) : (x.asRun o).fld k a b = x.fld k a b := rfl
@[simp] theorem Side.asRun_flag (x : Side) (o : Op) (k a : Nat) : (x.asRun o).flag k a = x.flag k a := rfl
@[simp] theorem Side.asRun_now (x : Side) (o : Op) : (x.asRun o).now = x.now := rfl
@[simp] theorem Side.asRun_bytes (x : Side) (o : Op) (a n : Nat) : (x.asRun o).bytes a n = x.bytes a n := rfl

/-- The effect of a row on a side on which its command runs and no memory error is met. -/
theorem Side.onRunning_runs {x : Side} {unit inst opcode : Nat} {env : Env} {o : Op} (h : x.runs unit inst opcode env o)
    (f : Op → Side → Side) : x.onRunning unit inst opcode env f = { f o (x.asRun o) with acts := Agent.hub } := by
  obtain ⟨_, hu, _, hi⟩ := Side.runs_spec h
  unfold Side.onRunning Side.acting Side.asRun
  rw [h.2.2.1, h.2.1, hu, hi, h.2.2.2.2.2.2]
  rfl

/-! ### Its end -/

theorem Side.leave_keptBut (s : Side) (o : Op) (rs : Nat → Prop) : s.keptBut (s.leave o) [.ops, .outriders] rs :=
  Side.keptBut_of_regs _ rfl rfl rfl (fun p hp => by cases p <;> first | rfl | simp at hp)

theorem Side.store_keptBut (s : Side) (a : Nat) (bs : List Byte) (rs : Nat → Prop) : s.keptBut (s.store a bs) [.cells, .poison] rs :=
  Side.keptBut_of_regs _ rfl rfl rfl (fun p hp => by cases p <;> first | rfl | simp at hp)

theorem Side.ringEntry_keptBut (s : Side) (o a : Nat) (bs : List Byte) (rs : Nat → Prop) :
    s.keptBut (s.ringEntry o a bs) [.cells, .poison] rs := by
  unfold Side.ringEntry; dsimp only; split
  · exact Side.store_keptBut ..
  · exact Side.keptBut_refl ..

theorem Side.record_keptBut (s : Side) (q c n st u : Nat) (b : Bool) (r v : Nat) (rs : Nat → Prop) :
    s.keptBut (s.record q c n st u b r v) [.cells, .poison] rs := Side.ringEntry_keptBut ..

theorem Side.tagCommand_keptBut (s : Side) (q c u i st a b : Nat) (rs : Nat → Prop) : s.keptBut (s.tagCommand q c u i st a b) [.pm] rs := by
  unfold Side.tagCommand; dsimp only
  split
  · exact Side.keptBut_refl ..
  · split
    · exact Side.onTag_keptBut ..
    · exact Side.keptBut_refl ..

theorem completionBytes_length (c st u n : Nat) (b : Bool) (r v t : Nat) : (completionBytes c st u n b r v t).length = 32 := by
  simp [completionBytes]

/-- A run of bytes is what each of its bytes reads. -/
theorem Store.bytes_eq (m : Store) (bs : List Byte) (a : Nat) (h : ∀ i, i < bs.length → m.get (a + i) = bs.getD i 0) : m.bytes a bs.length = bs := by
  induction bs generalizing a with
  | nil => rfl
  | cons b bs ih =>
    have h0 := h 0 (by simp)
    have := ih (a + 1) (fun i hi => by
      have := h (i + 1) (by simpa using hi)
      rw [show a + 1 + i = a + (i + 1) by omega, this]; simp)
    show m.get a :: m.bytes (a + 1) bs.length = _
    rw [this, show m.get a = b by simpa using h0]

/-- Stored bytes read back. -/
theorem Side.bytes_store (s : Side) (a : Nat) (bs : List Byte) : (s.store a bs).bytes a bs.length = bs := by
  refine Store.bytes_eq _ _ _ (fun i hi => ?_)
  rw [Side.get_store, if_pos ⟨by omega, by omega⟩, show a + i - a = i by omega]

/-- The record stands in its slot where the queue's ring may be written there (R147, R761). -/
theorem Side.record_bytes (s : Side) {q c n st u r v a : Nat} {b : Bool} (hs : s.acts.spoil = false) (h : s.recordAt q c n = some a) :
    (s.record q c n st u b r v).bytes a 32 = completionBytes c st u n b r v s.now := by
  unfold Side.recordAt at h
  dsimp only at h
  split at h
  · rename_i hc
    cases h
    have e : s.record q c n st u b r v =
        s.store ((s.fld (Reg.CQ_CPL q) 5 59 * 32 + c % n * 32) % 2 ^ 46) (completionBytes c st u n b r v s.now) := by
      unfold Side.record Side.ringEntry
      dsimp only
      rw [if_pos (by
        simp only [Bool.and_eq_true, decide_eq_true_eq, Bool.not_eq_true', completionBytes_length]
        exact ⟨⟨⟨hc.1, hc.2.1⟩, hc.2.2⟩, hs⟩)]
    rw [e]
    have := Side.bytes_store s ((s.fld (Reg.CQ_CPL q) 5 59 * 32 + c % n * 32) % 2 ^ 46) (completionBytes c st u n b r v s.now)
    rwa [completionBytes_length] at this
  · cases h

/-- A record leaves every byte outside its slot. -/
theorem Side.record_other (s : Side) {q c n st u r v m : Nat} {b : Bool} (h : ∀ l, s.recordAt q c n = some l → m < l ∨ l + 32 ≤ m) :
    (s.record q c n st u b r v).mem.get m = s.mem.get m := by
  unfold Side.recordAt at h
  dsimp only at h
  unfold Side.record Side.ringEntry
  dsimp only
  split
  · rename_i hc
    simp only [Bool.and_eq_true, decide_eq_true_eq, Bool.not_eq_true', completionBytes_length] at hc
    rw [if_pos ⟨hc.1.1.1, hc.1.1.2, hc.1.2⟩] at h
    exact Side.store_other _ _ _ _ (by rw [completionBytes_length]; exact h _ rfl)
  · rfl

/-- Memory whose cells are the same reads the same. -/
theorem Side.bytes_of_cells {x y : Side} (h : y.mem.cells = x.mem.cells) (a n : Nat) : y.bytes a n = x.bytes a n := by
  show y.mem.bytes a n = x.mem.bytes a n
  have hg : ∀ b, y.mem.get b = x.mem.get b := fun b => by unfold Store.get; rw [h]
  induction n generalizing a with
  | zero => rfl
  | succ n ih => show y.mem.get a :: y.mem.bytes (a + 1) n = _; rw [hg, ih]; rfl

/-- What follows a record and its tether at a command's end: the monitors and the count of CQ_STAT. -/
def Side.afterRecord (s : Side) (o : Op) (st : Nat) : Side :=
  let s := if o.run.isSome = true ∨ (o.unit = 0x04 ∧ st = stDone) then
      s.pmCount (monitorOf o.unit o.inst) 0x0002 1 o.pmAttr
    else s
  let s := s.tagCommand o.queue o.chain o.unit o.inst st (o.readyAt.getD 0) (match o.run with | some (_, t) => t | none => 0)
  if st = stDeadline ∨ st = stTimeout then s.count (Reg.CQ_STAT o.queue) 32 16 else s

theorem Side.afterRecord_keptBut (s : Side) (o : Op) (st : Nat) (hm : monitorOf o.unit o.inst < 256) :
    s.keptBut (s.afterRecord o st) [.pm] (fun k => k / 0x1000000 = 0x13 ∨ k = Reg.CQ_STAT o.queue) := by
  unfold Side.afterRecord
  dsimp only
  have h1 : s.keptBut (if o.run.isSome = true ∨ (o.unit = 0x04 ∧ st = stDone) then
      s.pmCount (monitorOf o.unit o.inst) 0x0002 1 o.pmAttr
      else s) [.pm] (fun k => k / 0x1000000 = 0x13 ∨ k = Reg.CQ_STAT o.queue) := by
    split
    · exact Side.keptBut_mono (Side.pmCount_keptBut _ _ _ _ _ (by omega)) (by simp) (fun _ h => .inl h)
    · exact Side.keptBut_refl ..
  have h2 := h1.of (Side.tagCommand_keptBut _ o.queue o.chain o.unit o.inst st (o.readyAt.getD 0)
    (match o.run with | some (_, t) => t | none => 0) _) (fun _ h => h) (fun _ h => h)
  split
  · exact h2.thenCount (.inr rfl)
  · exact h2

theorem Side.endCommand_eq (s : Side) (o : Op) (st result : Nat) :
    s.endCommand o st result =
      (let z := ((s.leave o).record o.queue o.chain o.slots st o.unit false 0 result).afterRecord o st
       if o.f 6 15 1 = 1 then z.signal (o.f 6 0 13) (o.f 12 0 32) else z) := rfl

theorem Op.plain_same (p o : Op) : p.plain.same o = p.same o := rfl

theorem plain_filter_same {l m : List Op} (h : l.map Op.plain = m.map Op.plain) (o : Op) :
    (l.filter (fun p => !(p.same o))).map Op.plain = (m.filter (fun p => !(p.same o))).map Op.plain := by
  have e : ∀ l : List Op, (l.filter (fun p => !(p.same o))).map Op.plain = (l.map Op.plain).filter (fun p => !(p.same o)) := by
    intro l
    rw [List.filter_map]
    rfl
  rw [e, e, h]

/-- The record, the tether and the counts of a command's end, `y` being the side after its effect and its unit's count. -/
theorem Side.endCommand_ends {x y : Side} {o : Op} {st result : Nat} {pieces : List Piece} {regs stored : Nat → Prop}
    (hy : y.acts.spoil = false) (hm : monitorOf o.unit o.inst < 256)
    (hk : x.keptBut y ([.ops, .cells, .poison, .pm, .outriders] ++ pieces) regs)
    (ho : y.ops.map Op.plain = x.ops.map Op.plain) (hg : y.guards = x.guards) (hn : y.now = x.now)
    (hc : y.rd (Reg.CQ_CPL o.queue) = x.rd (Reg.CQ_CPL o.queue))
    (ht : o.f 6 15 1 = 1 → y.rd (Reg.TE_VALUE (o.f 6 0 13)) = x.rd (Reg.TE_VALUE (o.f 6 0 13)))
    (hs : ∀ a, ¬ stored a → y.mem.get a = x.mem.get a) {ops : List Op} {grooms : List Groom}
    (h1 : ops.map Op.plain = (y.endCommand o (x.verifiedStatus o.unit o.inst st) result).ops.map Op.plain)
    (h2 : grooms.map Groom.plain = (y.endCommand o (x.verifiedStatus o.unit o.inst st) result).grooms.map Groom.plain) :
    x.ends ((y.endCommand o (x.verifiedStatus o.unit o.inst st) result).swap ops grooms) o st result pieces regs stored := by
  obtain ⟨sv, hsv⟩ : ∃ sv, x.verifiedStatus o.unit o.inst st = sv := ⟨_, rfl⟩
  rw [hsv] at h1 h2 ⊢
  rw [Side.endCommand_eq] at h1 h2 ⊢
  dsimp only at h1 h2 ⊢
  have hl := Side.leave_keptBut y o (fun _ => False)
  have hn' : (y.leave o).now = x.now := hn
  have hr : (y.leave o).recordAt o.queue o.chain o.slots = x.recordAt o.queue o.chain o.slots := by
    unfold Side.recordAt Side.fld Side.writeGuarded
    have e1 : (y.leave o).rd (Reg.CQ_CPL o.queue) = x.rd (Reg.CQ_CPL o.queue) := hc
    have e2 : (y.leave o).guards = x.guards := hg
    have e3 : (y.leave o).part = x.part := hk.2.1
    rw [e1, e2, e3, hn']
  have hw := fun a (h : (y.leave o).recordAt o.queue o.chain o.slots = some a) =>
    Side.record_bytes (y.leave o) (st := sv) (u := o.unit) (b := false) (r := 0) (v := result) hy h
  have hx := fun m h => Side.record_other (y.leave o) (q := o.queue) (c := o.chain) (n := o.slots) (st := sv) (u := o.unit) (b := false) (r := 0)
    (v := result) (m := m) h
  rw [hn'] at hw
  rw [hr] at hw hx
  have hrec := Side.record_keptBut (y.leave o) o.queue o.chain o.slots sv o.unit false 0 result (fun _ => False)
  have hrops : ((y.leave o).record o.queue o.chain o.slots sv o.unit false 0 result).ops.map Op.plain = (y.leave o).ops.map Op.plain :=
    hrec.2.2.1 .ops (by simp)
  generalize (y.leave o).record o.queue o.chain o.slots sv o.unit false 0 result = z1 at *
  have ha := Side.afterRecord_keptBut z1 o sv hm
  generalize z1.afterRecord o sv = z2 at *
  have hsig : z2.keptBut (if o.f 6 15 1 = 1 then z2.signal (o.f 6 0 13) (o.f 12 0 32) else z2) []
      (fun k => o.f 6 15 1 = 1 ∧ k = Reg.TE_VALUE (o.f 6 0 13)) := by
    split
    · rename_i h; exact Side.keptBut_mono (Side.signal_keptBut ..) (by simp) (fun _ e => ⟨h, e⟩)
    · exact Side.keptBut_refl ..
  have hte : o.f 6 15 1 = 1 → (if o.f 6 15 1 = 1 then z2.signal (o.f 6 0 13) (o.f 12 0 32) else z2).rd (Reg.TE_VALUE (o.f 6 0 13)) =
      z2.rd (Reg.TE_VALUE (o.f 6 0 13)) + BitVec.ofNat 64 (o.f 12 0 32) := by
    intro h; rw [if_pos h]; exact Side.rd_wr_same ..
  generalize (if o.f 6 15 1 = 1 then z2.signal (o.f 6 0 13) (o.f 12 0 32) else z2) = z3 at *
  have cells : z3.mem.cells = z1.mem.cells := (hsig.2.2.1 .cells (by simp)).trans (ha.2.2.1 .cells (by simp))
  refine ⟨?_, ?_, ?_, ?_, ?_⟩
  · have e2 : z3.ops.map Op.plain = z2.ops.map Op.plain := hsig.2.2.1 .ops (by simp)
    have e1 : z2.ops.map Op.plain = z1.ops.map Op.plain := ha.2.2.1 .ops (by simp)
    rw [Side.swap_ops, h1, e2, e1, hrops]
    exact plain_filter_same ho o
  · intro a h
    rw [hsv, ← hw a h]
    exact Side.bytes_of_cells cells a 32
  · intro h
    rw [Side.swap_rd, hte h, ha.2.2.2 _ ?_, hrec.2.2.2 _ (fun h => h), ← ht h]
    · rfl
    · unfold Reg.TE_VALUE Reg.CQ_STAT
      have : o.f 6 0 13 < 8192 := Nat.mod_lt _ (by decide)
      omega
  · intro a h h'
    rw [Side.swap_mem]
    have : z3.mem.get a = z1.mem.get a := by unfold Store.get; rw [cells]
    rw [this, hx a h', ← hs a h]
    rfl
  · have hall : ∀ k, k ∈ [Piece.ops, .cells, .poison, .pm, .outriders] → k ∈ [Piece.ops, .cells, .poison, .pm, .outriders] ++ pieces :=
      fun k h => List.mem_append_left _ h
    have f1 := Side.keptBut_mono hk (qs := [.ops, .cells, .poison, .pm, .outriders] ++ pieces) (ts := fun k => regs k ∨ k / 0x1000000 = 0x13 ∨
      k = Reg.CQ_STAT o.queue ∨ (o.f 6 15 1 = 1 ∧ k = Reg.TE_VALUE (o.f 6 0 13)) ∨ x.tallies o k) (fun _ h => h) (fun _ h => .inl h)
    have f2 := f1.of hl (fun p h => hall p (by simp at h; rcases h with rfl | rfl <;> simp)) (fun _ h => h.elim)
    have f3 := f2.of hrec (fun p h => hall p (by simp at h; rcases h with rfl | rfl <;> simp)) (fun _ h => h.elim)
    have f4 := f3.of ha (fun p h => hall p (by simp at h; subst h; simp)) (fun _ h => .inr (h.elim .inl (fun h => .inr (.inl h))))
    have f5 := f4.of hsig (by simp) (fun _ h => .inr (.inr (.inr (.inl h))))
    refine Side.keptBut_trans f5 ⟨rfl, rfl, fun p _ => ?_, fun k _ => rfl⟩
    cases p <;> first | rfl | exact h1 | exact h2

/-- A Relay's or a Stall's counters are of no other unit. -/
theorem Side.tallies_unit {x : Side} {o : Op} {k : Nat} (h : x.tallies o k) : k / 0x1000000 = 0x0D ∨ k / 0x1000000 = 0x0F := by
  unfold Side.tallies at h
  generalize (if o.run.isSome then o.inst else o.f 4 0 16) = i at h
  obtain ⟨hi, ⟨hu, hk⟩ | ⟨hu, hk⟩⟩ := h
  · have hb : i < 256 := by
      rw [hu] at hi; simp only [Part.hasInst, decide_eq_true_eq] at hi
      exact Nat.lt_of_lt_of_le hi (by cases x.part <;> decide)
    unfold Reg.RL_CNT Reg.RL_LAST at hk
    left; rcases hk with hk | hk <;> omega
  · have hb : i < 256 := by
      rw [hu] at hi; simp only [Part.hasInst, decide_eq_true_eq] at hi
      exact Nat.lt_of_lt_of_le hi (by cases x.part <;> decide)
    unfold Reg.ST_CNT at hk
    right; omega

/-- What a unit counts of a command of its own that completes (R430, R534). -/
theorem Side.tally_keptBut (s : Side) (o : Op) (st : Nat) : s.keptBut (s.tally o st) [] (s.tallies o) := by
  unfold Side.tally Side.tallies
  dsimp only
  generalize (if o.run.isSome then o.inst else o.f 4 0 16) = i
  by_cases hi : s.part.hasInst o.unit i = true
  · rw [if_neg (by simp [hi])]
    by_cases h1 : o.unit = 0x0D
    · rw [if_pos h1]
      have f := (Side.keptBut.none s [] (fun k => s.part.hasInst o.unit i = true ∧
          ((o.unit = 0x0D ∧ (k = Reg.RL_CNT i ∨ k = Reg.RL_LAST i)) ∨ (o.unit = 0x0F ∧ k = Reg.ST_CNT i)))).thenCount
          (a := 48) (b := 16) (c := 1) (k := Reg.RL_CNT i) ⟨hi, .inl ⟨h1, .inl rfl⟩⟩
      refine Side.keptBut.thenWr ?_ ⟨hi, .inl ⟨h1, .inr rfl⟩⟩
      split
      · exact f.thenCount ⟨hi, .inl ⟨h1, .inl rfl⟩⟩
      · exact f
    · rw [if_neg h1]
      by_cases h2 : o.unit = 0x0F
      · rw [if_pos h2]
        have f := (Side.keptBut.none s [] (fun k => s.part.hasInst o.unit i = true ∧
          ((o.unit = 0x0D ∧ (k = Reg.RL_CNT i ∨ k = Reg.RL_LAST i)) ∨ (o.unit = 0x0F ∧ k = Reg.ST_CNT i)))).thenCount
          (a := 48) (b := 16) (c := 1) (k := Reg.ST_CNT i) ⟨hi, .inr ⟨h2, rfl⟩⟩
        split
        · exact f.thenCount ⟨hi, .inr ⟨h2, rfl⟩⟩
        · exact f
      · rw [if_neg h2]; exact Side.keptBut_refl ..
  · rw [if_pos (by simpa using hi)]; exact Side.keptBut_refl ..

@[simp] theorem Side.tally_acts (s : Side) (o : Op) (st : Nat) : (s.tally o st).acts = s.acts := by
  unfold Side.tally
  dsimp only
  generalize (if o.run.isSome then o.inst else o.f 4 0 16) = i
  split
  · rfl
  · split
    · rw [Side.wr_acts]; split <;> simp
    · split
      · split <;> simp
      · rfl

/-- The end of a command of a queue, `y` being the side after its effect: where the effect left the queue's ring, the protected extents, the
time and the command's tether as they were, it ends as `Side.ends` says. -/
theorem Side.complete_ends {x y : Side} {o : Op} {st result : Nat} {pieces : List Piece} {regs stored : Nat → Prop}
    (hp : o.parent = none) (hy : y.acts.spoil = false) (hm : monitorOf o.unit o.inst < 256)
    (hk : x.keptBut y ([.ops, .cells, .poison, .pm, .outriders] ++ pieces) regs)
    (ho : y.ops.map Op.plain = x.ops.map Op.plain) (hg : y.guards = x.guards) (hn : y.now = x.now) (hu : y.unver = x.unver)
    (hc : y.rd (Reg.CQ_CPL o.queue) = x.rd (Reg.CQ_CPL o.queue))
    (ht : o.f 6 15 1 = 1 → y.rd (Reg.TE_VALUE (o.f 6 0 13)) = x.rd (Reg.TE_VALUE (o.f 6 0 13)))
    (hs : ∀ a, ¬ stored a → y.mem.get a = x.mem.get a) (hq : o.queue < 64) {ops : List Op} {grooms : List Groom}
    (h1 : ops.map Op.plain = (y.complete o st result).ops.map Op.plain)
    (h2 : grooms.map Groom.plain = (y.complete o st result).grooms.map Groom.plain) :
    x.ends ((y.complete o st result).swap ops grooms) o st result pieces regs stored := by
  have hv : y.verifiedStatus o.unit o.inst st = x.verifiedStatus o.unit o.inst st := by
    unfold Side.verifiedStatus Side.unverified; rw [hu]
  have e : y.complete o st result =
      (y.tally o (x.verifiedStatus o.unit o.inst st)).endCommand o (x.verifiedStatus o.unit o.inst st) result := by
    unfold Side.complete; rw [hp, hv]
  have hl := Side.tally_keptBut y o (x.verifiedStatus o.unit o.inst st)
  have hxy : y.tallies o = x.tallies o := by unfold Side.tallies; rw [hk.2.1]
  rw [hxy] at hl
  rw [e] at h1 h2 ⊢
  have hy' : (y.tally o (x.verifiedStatus o.unit o.inst st)).acts.spoil = false := by rw [Side.tally_acts]; exact hy
  generalize y.tally o (x.verifiedStatus o.unit o.inst st) = z at *
  have far : ∀ k, k / 0x1000000 ≠ 0x0D → k / 0x1000000 ≠ 0x0F → z.rd k = y.rd k := fun k a b =>
    hl.2.2.2 k (fun h => (Side.tallies_unit h).elim a b)
  have hz : z.datum = y.datum := hl.2.2.1 .datum (by simp)
  have hm' : z.mem.cells = y.mem.cells := hl.2.2.1 .cells (by simp)
  have k1 : x.keptBut z ([.ops, .cells, .poison, .pm, .outriders] ++ pieces) (fun k => regs k ∨ x.tallies o k) :=
    Side.keptBut_trans (Side.keptBut_mono hk (fun _ h => h) (fun _ h => .inl h)) (Side.keptBut_mono hl (by simp) (fun _ h => .inr h))
  have hf : o.f 6 0 13 < 8192 := Nat.mod_lt _ (by decide)
  have := Side.endCommand_ends (x := x) (y := z) (st := st) (result := result) (stored := stored) hy' hm k1
    ((hl.2.2.1 .ops (by simp)).trans ho) ((hl.2.2.1 .guards (by simp)).trans hg) (by unfold Side.now at hn ⊢; rw [hz]; exact hn)
    ((far _ (by unfold Reg.CQ_CPL; omega) (by unfold Reg.CQ_CPL; omega)).trans hc)
    (fun h => (far _ (by unfold Reg.TE_VALUE; omega) (by unfold Reg.TE_VALUE; omega)).trans (ht h))
    (fun a h => by have : z.mem.get a = y.mem.get a := by unfold Store.get; rw [hm']
                   rw [this]; exact hs a h) h1 h2
  refine ⟨this.1, this.2.1, this.2.2.1, this.2.2.2.1, Side.keptBut_mono this.2.2.2.2 (fun _ h => h) (fun k h => ?_)⟩
  rcases h with (h | h) | h | h | h | h
  · exact .inl h
  · exact .inr (.inr (.inr (.inr h)))
  · exact .inr (.inl h)
  · exact .inr (.inr (.inl h))
  · exact .inr (.inr (.inr (.inl h)))
  · exact .inr (.inr (.inr (.inr h)))

/-- What an effect must have left alone for its command's end to be as `Side.ends` says of the side before it. -/
theorem Side.keptBut.endable {x y : Side} {pieces : List Piece} {regs : Nat → Prop} {q : Nat}
    (hk : x.keptBut y ([.cells, .poison, .pm, .outriders] ++ pieces) regs) (hp : ∀ p ∈ [Piece.ops, .guards, .datum, .unver], p ∉ pieces)
    (hr : ¬ regs (Reg.CQ_CPL q)) :
    y.ops.map Op.plain = x.ops.map Op.plain ∧ y.guards = x.guards ∧ y.now = x.now ∧ y.unver = x.unver ∧ y.rd (Reg.CQ_CPL q) = x.rd (Reg.CQ_CPL q) := by
  have k : ∀ p ∈ [Piece.ops, .guards, .datum, .unver], x.keeps y p := fun p h => hk.2.2.1 p (by
    intro m
    rcases List.mem_append.mp m with m | m
    · simp only [List.mem_cons, List.not_mem_nil, or_false] at h m
      rcases h with rfl | rfl | rfl | rfl <;> simp at m
    · exact hp p h m)
  have hn : y.datum = x.datum := k .datum (by simp)
  exact ⟨k .ops (by simp), k .guards (by simp), by unfold Side.now; rw [hn], k .unver (by simp), hk.2.2.2 _ hr⟩

/-- A row whose command runs and ends: `y` is the side after its effect and before its end. -/
theorem does_ends {i : Instr} {s : State} {sd : SideId} {unit inst opcode : Nat} {env : Env} {o : Op} {f : Op → Side → Side} {y : Side} {st result : Nat}
    {pieces : List Piece} {regs stored : Nat → Prop} (he : exec i s = onSide sd (fun x => x.onRunning unit inst opcode env f) s)
    (h : (s.side sd).runs unit inst opcode env o) (hf : f o ((s.side sd).asRun o) = y.complete o st result)
    (hk : (s.side sd).keptBut y ([.cells, .poison, .pm, .outriders] ++ pieces) regs) (hp : ∀ p ∈ [Piece.ops, .guards, .datum, .unver], p ∉ pieces)
    (hr : ¬ regs (Reg.CQ_CPL o.queue)) (ht : o.f 6 15 1 = 1 → ¬ regs (Reg.TE_VALUE (o.f 6 0 13)))
    (hy : y.acts.spoil = false) (hs : ∀ a, ¬ stored a → y.mem.get a = (s.side sd).mem.get a) {Q : Side → Prop}
    (hQ : ∀ ops grooms, Q ((y.complete o st result).swap ops grooms)) :
    s.does i sd (fun x y => x.ends y o st result pieces regs stored ∧ Q y) := by
  have hm : monitorOf o.unit o.inst < 256 := by
    obtain ⟨_, h1, _, h2⟩ := Side.runs_spec h
    rw [h1, h2]; exact h.2.2.2.2.1
  have e : (s.side sd).onRunning unit inst opcode env f = { y.complete o st result with acts := Agent.hub } := by
    rw [Side.onRunning_runs h f, hf]
  obtain ⟨ho, hg, hn, hu, hc⟩ := hk.endable hp hr
  have hx := fun (ops : List Op) (grooms : List Groom) h1 h2 => Side.complete_ends (st := st) (result := result) (ops := ops) (grooms := grooms) h.2.2.2.1 hy hm
    (Side.keptBut_mono hk (fun p m => by
      rcases List.mem_append.mp m with m | m
      · exact List.mem_append_left _ (List.mem_cons_of_mem _ m)
      · exact List.mem_append_right _ m) (fun _ h => h)) ho hg hn hu hc (fun h => hk.2.2.2 _ (ht h)) hs h.2.2.2.2.2.1 h1 h2
  obtain ⟨hid, hpart⟩ : (y.complete o st result).id = (s.side sd).id ∧ (y.complete o st result).part = (s.side sd).part := by
    have := hx _ _ rfl rfl
    exact ⟨this.2.2.2.2.1, this.2.2.2.2.2.1⟩
  refine onSide_does he h.1 ?_
  have ha := Side.after_swap (x := s.side sd) (f := fun x => x.onRunning unit inst opcode env f) (by rw [e]; exact hid) (by rw [e]; exact hpart)
  rw [e] at ha
  rw [ha]
  exact ⟨hx _ _ (settle_plain_ops _) (settle_plain_grooms _), hQ _ _⟩

/-- A command that ends with no effect of its own. -/
theorem does_ends_plain {i : Instr} {s : State} {sd : SideId} {unit inst opcode : Nat} {env : Env} {o : Op} {f : Op → Side → Side} {st result : Nat}
    (he : exec i s = onSide sd (fun x => x.onRunning unit inst opcode env f) s) (h : (s.side sd).runs unit inst opcode env o)
    (hf : f o ((s.side sd).asRun o) = ((s.side sd).asRun o).complete o st result) : s.does i sd (fun x y => x.ends y o st result) := by
  have hy : ((s.side sd).asRun o).acts.spoil = false := by
    show (s.side sd).acts.spoil = false
    rw [h.2.2.2.2.2.2]; rfl
  obtain ⟨t, h1, h2, h3, h4⟩ := does_ends (pieces := []) (regs := fun _ => False) (stored := fun _ => False) (Q := fun _ => True) he h hf
    (Side.asRun_keptBut ..) (fun _ _ => List.not_mem_nil) (fun h => h) (fun _ h => h) hy (fun _ _ => rfl) (fun _ _ => trivial)
  exact ⟨t, h1, h2, h3, h4.1⟩

/-- The end of a command of a queue leaves every byte of memory but those of its record. -/
theorem Side.complete_other {x : Side} {o : Op} {st result : Nat} (hp : o.parent = none) (hy : x.acts.spoil = false)
    (hq : o.queue < 64) (hm : monitorOf o.unit o.inst < 256) (a : Nat)
    (h : ∀ l, x.recordAt o.queue o.chain o.slots = some l → a < l ∨ l + 32 ≤ a) : (x.complete o st result).mem.get a = x.mem.get a := by
  have := Side.complete_ends (x := x) (y := x) (st := st) (result := result) (pieces := []) (regs := fun _ => False) (stored := fun _ => False) hp hy hm
    (Side.keptBut_refl ..) rfl rfl rfl rfl rfl (fun _ => rfl) (fun _ _ => rfl) hq (ops := (x.complete o st result).ops)
    (grooms := (x.complete o st result).grooms) rfl rfl
  exact this.2.2.2.1 a (fun h => h) h

/-- The end of a command of a queue leaves every register but the monitors', its queue's CQ_STAT, its tether and its unit's
counters. -/
theorem Side.complete_rd {x : Side} {o : Op} {st result : Nat} (hp : o.parent = none) (hy : x.acts.spoil = false)
    (hq : o.queue < 64) (hm : monitorOf o.unit o.inst < 256) (k : Nat)
    (h : ¬(k / 0x1000000 = 0x13 ∨ k = Reg.CQ_STAT o.queue ∨ (o.f 6 15 1 = 1 ∧ k = Reg.TE_VALUE (o.f 6 0 13)) ∨ x.tallies o k)) :
    (x.complete o st result).rd k = x.rd k := by
  have := Side.complete_ends (x := x) (y := x) (st := st) (result := result) (pieces := []) (regs := fun _ => False) (stored := fun _ => False) hp hy hm
    (Side.keptBut_refl ..) rfl rfl rfl rfl rfl (fun _ => rfl) (fun _ _ => rfl) hq (ops := (x.complete o st result).ops)
    (grooms := (x.complete o st result).grooms) rfl rfl
  exact this.2.2.2.2.2.2.2 k (fun e => h (e.elim False.elim (fun e => e)))

/-- A row whose command runs and ends after its byte writes `ws`: `y` is the side after them. -/
theorem does_endsWriting {i : Instr} {s : State} {sd : SideId} {unit inst opcode : Nat} {env : Env} {o : Op} {f : Op → Side → Side} {y : Side}
    {st result : Nat} {ws : List (Nat × Byte × Bool)} {pieces : List Piece} {regs : Nat → Prop}
    (he : exec i s = onSide sd (fun x => x.onRunning unit inst opcode env f) s)
    (h : (s.side sd).runs unit inst opcode env o) (hf : f o ((s.side sd).asRun o) = y.complete o st result)
    (hk : (s.side sd).keptBut y ([.cells, .poison, .pm, .outriders] ++ pieces) regs) (hp : ∀ p ∈ [Piece.ops, .guards, .datum, .unver], p ∉ pieces)
    (hr : ¬ regs (Reg.CQ_CPL o.queue)) (ht : o.f 6 15 1 = 1 → ¬ regs (Reg.TE_VALUE (o.f 6 0 13)))
    (hy : y.acts.spoil = false) (hs : ∀ a, y.mem.get a = ((s.side sd).mem.scatter ws).get a) {Q : Side → Prop}
    (hQ : ∀ ops grooms, Q ((y.complete o st result).swap ops grooms)) :
    s.does i sd (fun x y => x.endsWriting y o st result ws pieces regs ∧ Q y) := by
  have hm : monitorOf o.unit o.inst < 256 := by
    obtain ⟨_, h1, _, h2⟩ := Side.runs_spec h
    rw [h1, h2]; exact h.2.2.2.2.1
  have hrec : y.recordAt o.queue o.chain o.slots = (s.side sd).recordAt o.queue o.chain o.slots := by
    obtain ⟨_, hg, hnow, _, hc⟩ := hk.endable hp hr
    unfold Side.recordAt Side.fld Side.writeGuarded
    rw [hc, hg, hk.2.1, hnow]
  obtain ⟨t, h1, h2, h3, h4, h5, h6⟩ := does_ends (stored := fun a => ∃ w ∈ ws, w.1 = a)
    (Q := fun z => (∀ a, (∀ l, (s.side sd).recordAt o.queue o.chain o.slots = some l → a < l ∨ l + 32 ≤ a) →
      z.mem.get a = ((s.side sd).mem.scatter ws).get a) ∧ Q z) he h hf hk hp hr ht hy
    (fun a ha => by rw [hs]; exact Store.get_scatter_other _ _ _ (fun w hw e => ha ⟨w, hw, e⟩))
    (fun ops grooms => ⟨fun a ha => by
      rw [← hs]; exact Side.complete_other h.2.2.2.1 hy h.2.2.2.2.2.1 hm a (by rw [hrec]; exact ha), hQ ops grooms⟩)
  exact ⟨t, h1, h2, h3, ⟨h4, h5⟩, h6⟩

/-- What crosses a link that is down arrives poisoned, and the bytes are the same (R33). -/
theorem Side.get_carried (x : Side) (m : Store) (ws : List (Nat × Byte × Bool)) (a : Nat) :
    (m.scatter (x.carried ws)).get a = (m.scatter ws).get a := by
  show alGet 0 (cellsAfter m.cells (x.carried ws)) a = alGet 0 (cellsAfter m.cells ws) a
  rw [Side.cellsAfter_carried]

/-- Writes that meet no protected extent are all made, poisoned where they cross a link that is down (R33, R760). -/
theorem Side.scatter_free {x : Side} {owner : Nat} {ws : List (Nat × Byte × Bool)} (h : (x.scatter owner ws).2 = false) :
    (x.scatter owner ws).1 = { x with mem := x.mem.scatter (x.carried ws) } := by
  unfold Side.scatter at h ⊢
  dsimp only at h ⊢
  have : ws.filter (fun w => !(x.writeGuarded owner (w.1 / 64 * 64) 64)) = ws := by
    apply List.filter_eq_self.mpr
    have hl := bne_eq_false_iff_eq.mp h
    exact List.length_filter_eq_length_iff.mp hl
  rw [this]

end Sys2Proof.Machine
end

