-- ==== Sys2Proof/WellFormed.lean ====
section
/-!
DEFINITION. WellFormed.lean: the ranges that the manual gives the operands of a command (R20, R29, R57, R119, R153, R191, R213).
The machine gives every command a meaning, whether or not it is well formed.
-/
namespace Sys2Proof

/-- Whether a number is a Groom's on some part (R57). -/
def onGrooms (g : Nat) : Bool := decide (g < 112)

/-- Whether every operand of a command lies in its range. -/
def Instr.wf (i : Instr) : Bool :=
  match i with
  | .registerWrite _ level key _ => decide (level ≤ 2) && decide (key < 2 ^ 32)
  | .registerReadClear _ key => decide (key < 2 ^ 32)
  | .add _ g _ | .sub _ g _ | .and _ g _ | .or _ g _ | .xor _ g _ => onGrooms g
  | .sll _ g _ | .srl _ g _ | .sra _ g _ | .slt _ g _ | .sltu _ g _ => onGrooms g
  | .mul _ g _ | .mulh _ g _ | .mulhu _ g _ => onGrooms g
  | .div _ g _ | .divu _ g _ | .rem _ g _ | .remu _ g _ => onGrooms g
  | .amoadd _ g _ | .amoswp _ g _ | .amocas _ g _ => onGrooms g
  | .addi _ g _ | .andi _ g _ | .ori _ g _ | .xori _ g _ | .slti _ g _ => onGrooms g
  | .slli _ g _ | .srli _ g _ | .srai _ g _ | .lui _ g _ => onGrooms g
  | .lb _ g _ | .lh _ g _ | .lw _ g _ | .ld _ g _ | .lbu _ g _ | .lhu _ g _ | .lwu _ g _ => onGrooms g
  | .sb _ g _ | .sh _ g _ | .sw _ g _ | .sd _ g _ => onGrooms g
  | .beq _ g _ | .bne _ g _ | .blt _ g _ | .bge _ g _ | .bltu _ g _ | .bgeu _ g _ => onGrooms g
  | .jal _ g _ | .jalr _ g _ => onGrooms g
  | .vadd _ g _ | .vsub _ g _ | .vmul _ g _ | .vfma _ g _ | .vmin _ g _ | .vmax _ g _ => onGrooms g
  | .vand _ g _ | .vor _ g _ | .vxor _ g _ | .vsll _ g _ | .vsra _ g _ => onGrooms g
  | .vbcast _ g _ | .vsel _ g _ | .vperm _ g _ | .vredsum _ g _ | .vcvt _ g _ => onGrooms g
  | .vld _ g _ | .vst _ g _ => onGrooms g
  | .vcmpeq _ g _ | .vcmplt _ g _ | .vcmpltu _ g _ => onGrooms g
  | .pand _ g _ | .por _ g _ | .pnot _ g _ => onGrooms g
  | .ctlr _ g _ | .ctlw _ g _ | .ctlRoleWrite _ g _ => onGrooms g
  | .enq _ g _ | .enqm _ g _ | .qspace _ g _ => onGrooms g
  | .tsig _ g _ | .twait _ g _ | .tread _ g _ => onGrooms g
  | .msend _ g _ | .mrecv _ g _ | .merr _ g _ | .mcount _ g _ => onGrooms g
  | .rpop _ g _ | .rmark _ g _ | .rrewind _ g _ | .rrelease _ g _ | .rcount _ g _ => onGrooms g
  | .dtime _ g _ | .pcrd _ g _ => onGrooms g
  | .ecall _ g _ | .eret _ g _ | .fence _ g _ | .fenceI _ g _ | .wfe _ g _ | .ebreak _ g _ => onGrooms g
  | .twaitComplete _ g => onGrooms g
  | .messageDeliver _ sender dest => onGrooms sender && onGrooms dest
  | .messageReturn _ g => onGrooms g
  | .wfeWake _ g => onGrooms g
  | .interruptEntry _ g src => onGrooms g && decide (src < 4)
  | .grCtrlHalt _ level g => decide (level ≤ 2) && onGrooms g
  | .grCtrlStart _ level g => decide (level ≤ 2) && onGrooms g
  | .cqTailWrite _ level q _ => decide (level ≤ 2) && decide (q < 64)
  | .cqEnable _ level q _ => decide (level ≤ 2) && decide (q < 64)
  | .cqDisable _ level q _ => decide (level ≤ 2) && decide (q < 64)
  | .cqBaseWrite _ level q _ _ => decide (level ≤ 2) && decide (q < 64)
  | .commandFetch _ q _ => decide (q < 64)
  | .commandDispatch _ unit inst _ => decide (unit < 256) && decide (inst < 256)
  | .commandCeilingStop _ unit inst held _ _ => decide (unit < 256) && decide (inst < 256) && decide (held ≤ 40000)
  | .commandDeadlineMissed _ q => decide (q < 64)
  | .teValueWrite _ level t _ => decide (level ≤ 2) && decide (t < 8192)
  | .teAddWrite _ level t _ => decide (level ≤ 2) && decide (t < 8192)
  | .dtNowRead _ => true
  | .gptpSyncReceive _ port _ _ _ _ _ => decide (port ≤ 13)
  | .ppsEdge _ _ => true
  | .dtReferenceLost _ => true
  | .dtRearm _ level => decide (level ≤ 2)
  | .dtSourceChange _ => true
  | .gptpSyncSend _ port => decide (port ≤ 13)
  | .gptpPdelayExchange _ port _ _ _ _ _ _ => decide (port ≤ 13)
  | .launch _ q => decide (q < 64)
  | .cancel _ q => decide (q < 64)
  | .shadowMake _ queue chain => decide (queue < 64) && decide (chain < 2 ^ 32)
  | .launchFrameBegin _ queue chain _ _ _ _ => decide (queue < 64) && decide (chain < 2 ^ 32)
  | .launchFrameDropLate _ queue chain _ => decide (queue < 64) && decide (chain < 2 ^ 32)
  | .watchFrameReceive _ port _ _ _ => decide (port ≤ 13)
  | .lgDisable _ level => decide (level ≤ 2)
  | .lgRptCfgWrite _ level _ => decide (level ≤ 2)
  | .csi2PacketReceive _ rx vc dtype _ _ _ _ => decide (rx < 16) && decide (vc < 16) && decide (dtype < 64)
  | .ethFrameReceive _ port _ _ _ _ _ => decide (port ≤ 13)
  | .canFrameReceive _ bus _ ident _ _ _ _ dlc _ _ _ _ => decide (bus < 4) && decide (ident < 2 ^ 29) && decide (dlc < 16)
  | .spiDataReady _ bus _ => decide (bus < 4)
  | .spiTransferComplete _ bus _ _ => decide (bus < 4)
  | .racePacketReadable _ slot => decide (slot < 32)
  | .cameraTriggerPulse _ rx => decide (rx < 16)
  | .cameraTriggerEnd _ rx => decide (rx < 16)
  | .ingressStreamEnable _ level slot _ => decide (level ≤ 2) && decide (slot < 32)
  | .ingressStreamDisable _ level slot _ => decide (level ≤ 2) && decide (slot < 32)
  | .landingReleaseWrite _ level slot _ => decide (level ≤ 2) && decide (slot < 32)
  | .aphyLinkChange _ rx _ _ => decide (rx < 16)
  | .trPost _ _ => true
  | .transitClose _ _ => true
  | .transitRevision _ _ => true
  | .transitEnable _ level _ => decide (level ≤ 2)
  | .transitStreamEnable _ level slot _ => decide (level ≤ 2) && decide (slot < 32)
  | .gaitStep _ _ => true
  | .gtCorr _ _ => true
  | .gaitEnable _ level _ => decide (level ≤ 2)
  | .plOpen _ _ => true
  | .plIngest _ _ _ => true
  | .plClose _ _ => true
  | .plSort _ _ => true
  | .plMerge _ _ => true
  | .plPillar _ _ => true
  | .plRules _ _ => true
  | .pillarEnable _ level _ => decide (level ≤ 2)
  | .ptPaint _ _ => true
  | .ptBlank _ _ => true
  | .ptSeal _ _ => true
  | .halfGridReceive _ _ _ => true
  | .trackListReceive _ _ _ => true
  | .platMerge _ _ _ => true
  | .platPublish _ _ => true
  | .platEnable _ level _ => decide (level ≤ 2)
  | .drStage _ inst _ _ => decide (inst < 256)
  | .drGemm _ inst _ _ _ => decide (inst < 256)
  | .drSpconv _ inst _ _ _ => decide (inst < 256)
  | .rlCopy _ inst _ => decide (inst < 256)
  | .rlFill _ inst _ => decide (inst < 256)
  | .ntMapWrite _ level _ => decide (level ≤ 2)
  | .ftScrubRead _ _ => true
  | .stackRateChange _ stack => decide (stack < 4)
  | .rcRead _ qp _ _ _ => decide (qp < 16)
  | .rcWrite _ qp _ _ _ => decide (qp < 16)
  | .orAppend _ inst _ => decide (inst < 256)
  | .orMove _ inst _ _ _ => decide (inst < 256)
  | .orRelease _ inst _ => decide (inst < 256)
  | .orFlush _ inst _ => decide (inst < 256)
  | .orNpush _ level inst cls _ => decide (level ≤ 2) && decide (inst < 256) && decide (cls < 4)
  | .orFpush _ level inst cls _ => decide (level ≤ 2) && decide (inst < 256) && decide (cls < 4)
  | .outriderEnable _ level inst _ => decide (level ≤ 2) && decide (inst < 256)
  | .stDecode _ inst _ _ _ => decide (inst < 256)
  | .stRetrieve _ inst _ => decide (inst < 256)
  | .cqRagged _ _ => true
  | .tvOpen _ _ => true
  | .tvMap _ _ => true
  | .tvGrow _ _ => true
  | .tvSearch _ _ _ _ => true
  | .tvPace _ _ => true
  | .tvStopUpdate _ _ => true
  | .traverseEnable _ level _ => decide (level ≤ 2)
  | .brBind _ _ => true
  | .brSolve _ _ _ _ => true
  | .brSolveDeadline _ _ => true
  | .brSlotPoison _ slot => decide (slot < 4)
  | .bridleEnable _ level _ => decide (level ≤ 2)
  | .frameBoundary _ => true
  | .enginePowerOff _ unit inst => decide (unit < 256) && decide (inst < 256)
  | .enginePowerOn _ unit inst => decide (unit < 256) && decide (inst < 256)
  | .groomClockChange _ => true
  | .trotPackFetch _ unit inst _ => decide (unit < 256) && decide (inst < 256)
  | .trotUpStart _ unit inst => decide (unit < 256) && decide (inst < 256)
  | .trotUpResult _ unit inst _ _ => decide (unit < 256) && decide (inst < 256)
  | .trotUpUndecided _ unit inst => decide (unit < 256) && decide (inst < 256)
  | .controlPeriodBoundary _ => true
  | .timeCompareReceive _ _ => true
  | .heartbeatSend _ => true
  | .heartbeatReceive _ => true
  | .peerLostTimeout _ => true
  | .peerEventReceive _ => true
  | .barnastanFlitReceive _ n replays => decide (n < 4) && decide (replays ≤ 8)
  | .barnastanLinkDown _ n _ _ => decide (n < 4)
  | .barnastanLinkUp _ n => decide (n < 4)
  | .stewardEventHandle _ _ => true
  | .withdrawalEffect _ unit inst => decide (unit < 256) && decide (inst < 256)
  | .monitorTrip _ code => decide (1 ≤ code) && decide (code ≤ 6)
  | .stewardSelfCheckFail _ _ => true
  | .leadMissCheck _ _ => true
  | .swArm _ level => decide (level ≤ 2)
  | .swSilence _ level => decide (level ≤ 2)
  | .sideLeaveStart _ => true
  | .swVerdictWrite _ level _ => decide (level ≤ 2)
  | .sideRestart _ _ => true
  | .fsRecordWrite _ _ _ _ _ _ _ _ => true
  | .tpBaseWrite _ level a _ => decide (level ≤ 2) && decide (a < 2)
  | .pmTagRecord _ m _ _ => decide (m < 256)
  | .pmDumpLatch _ => true
  | .pmDumpWrite _ _ => true
  | .kpVreq _ level _ => decide (level ≤ 2)
  | .kpVerifyEnd _ _ => true
  | .kpRoll _ level _ => decide (level ≤ 2)
  | .kpQreq _ level _ => decide (level ≤ 2)
  | .kpQuoteWrite _ _ => true
  | .kpOwnerCheck _ level _ => decide (level ≤ 2)
  | .kpDebugToken _ level _ => decide (level ≤ 2)
  | .kpHobble _ level _ => decide (level ≤ 2)
  | .mkaSakInstall _ port _ => decide (port ≤ 13)
  | .debugAgentDatagram _ _ => true
  | .pwReqWrite _ level _ => decide (level ≤ 2)
  | .thermalSample _ _ _ _ _ => true
  | .regRead _ _ => true
  | .regWrite _ _ => true
  | .memRead _ _ _ => true
  | .memWrite _ _ _ => true
  | .mrOpen _ _ => true
  | .mrClose _ _ => true
  | .qpSetup _ _ => true
  | .qpReset _ _ _ _ => true
  | .subscribe _ _ => true
  | .unsubscribe _ _ => true
  | .deliver _ _ _ _ => true
  | .flashWrite _ _ => true
  | .certRead _ _ => true
  | .cakSet _ _ => true
  | .recoverDone _ _ => true
  | .rdmaInboundRead _ qp port _ _ _ _ _ => decide (qp < 16) && decide (port ≤ 13)
  | .rdmaInboundWrite _ qp port _ _ _ _ _ => decide (qp < 16) && decide (port ≤ 13)
  | .rdmaAckTimeout _ qp => decide (qp < 16)
  | .icmpv6Receive _ port _ _ _ _ => decide (port ≤ 13)
  | .sideResetAssert _ _ _ => true
  | .sideResetRelease _ _ _ => true
  | .powerUp _ => true
  | .powerOff _ _ => true
  | .railFaultReset _ _ => true
  | .phyLinkChange _ port _ => decide (port ≤ 13)
  | .canBusOffRecovery _ bus => decide (bus < 4)
  | .tapAccess _ _ _ _ => true
  | .railRecovery _ => true
  | .bestMasterClockAlgorithm _ port _ _ => decide (port ≤ 13)
  | .errorCheckAndScrub _ stack _ => decide (stack < 4)

end Sys2Proof
end

