-- ==== Sys2Proof/Tests/Slice0.lean ====
section
/-!
SUPPORT. Tests/Slice0.lean: ill-formed commands refused, words of the formats' tables, worked values of the manual, and a state for
the hypotheses of each statement.
-/
namespace Sys2Proof.Tests

set_option Elab.async false
open Machine

/-! ### Well-formedness: an ill-formed command for each check -/

/-- Surroundings in which no memory error is met. -/
def quiet : Env := ⟨[], false, false⟩

/-- One ill-formed command for every kind of operand that has a range. -/
def illFormed : List Instr :=
  [ .registerWrite .near 3 0 0, .registerWrite .near 0 (2 ^ 32) 0, .registerReadClear .near (2 ^ 32), .add .near 112 quiet,
    .interruptEntry .near 0 4, .cqTailWrite .near 0 64 0, .commandDispatch .near 256 0 [], .commandDispatch .near 0 256 [],
    .commandCeilingStop .near 0 0 40001 [] [], .teValueWrite .near 0 8192 0, .gptpSyncSend .near 14, .shadowMake .near 0 (2 ^ 32),
    .csi2PacketReceive .near 16 0 0 0 true [] [], .csi2PacketReceive .near 0 16 0 0 true [] [], .csi2PacketReceive .near 0 0 64 0 true [] [],
    .canFrameReceive .near 4 0 0 false false false false 0 [] 0 0 [], .canFrameReceive .near 0 0 (2 ^ 29) false false false false 0 [] 0 0 [],
    .canFrameReceive .near 0 0 0 false false false false 16 [] 0 0 [], .racePacketReadable .near 32, .stackRateChange .near 4,
    .rcRead .near 16 quiet .ok [], .orNpush .near 0 0 4 0, .brSlotPoison .near 4, .barnastanFlitReceive .near 4 0,
    .barnastanFlitReceive .near 0 9, .monitorTrip .near 0, .monitorTrip .near 7, .tpBaseWrite .near 2 2 0, .pmTagRecord .near 256 0 [] ]

theorem test_illFormed_refused : illFormed.all (fun i => !i.wf) = true := by decide

theorem test_wellFormed_accepted :
    ([.registerWrite .near 2 (2 ^ 32 - 1) 0, .add .off 111 quiet, .cqTailWrite .near 0 63 0, .teValueWrite .near 0 8191 0,
      .monitorTrip .near 6, .barnastanFlitReceive .near 3 8] : List Instr).all Instr.wf = true := by decide

/-! ### Words written out from the tables of R65 to R91 -/

/-- ADD: op 000001, rd 00001, rs1 00010, rs2 00011, func 0 (R65, R68). -/
theorem test_decode_add : decodeValzel 0b000001_00001_00010_00011_00000000000 = some (.alu .add 1 2 3) := by decide

/-- AMOCAS: func 0x022 (R68). -/
theorem test_decode_amocas : decodeValzel 0b000001_00101_00110_00111_00000100010 = some (.amo .cas 5 6 7) := by decide

/-- SRAI: op 000111, imm[7:6] = 2 (R68). -/
theorem test_decode_srai : decodeValzel 0b000111_00001_00010_0000000010_111111 = some (.imm .srai 1 2 63) := by decide

/-- LW: op 001011 (R67). -/
theorem test_decode_lw : decodeValzel 0b001011_00100_00101_1111111111111100 = some (.load .lw 4 5 0xFFFC) := by decide

/-- SD: op 010011, rs2 in [25:21] (R65). -/
theorem test_decode_sd : decodeValzel 0b010011_00101_00010_0000000000001000 = some (.store .sd 5 2 8) := by decide

/-- BLT: op 010110 (R67). -/
theorem test_decode_blt : decodeValzel 0b010110_00001_00010_1111111111111111 = some (.br .blt 1 2 0xFFFF) := by decide

/-- VFMA: op 100000, pg 001, type 110, vop 00011 (R65, R71). -/
theorem test_decode_vfma : decodeValzel 0b100000_00001_00010_00011_001_110_00011 = some (.vec .fma 1 2 3 1 6) := by decide

/-- PNOT: op 100011, vop 01010 (R73). -/
theorem test_decode_pnot : decodeValzel 0b100011_00010_00001_00000_000_000_01010 = some (.pred .not 2 1 0 0) := by decide

/-- CTLW: op 101111, rd zero (R74). -/
theorem test_decode_ctlw : decodeValzel 0b101111_00000_00011_0000000000010110 = some (.ctlw 3 0x016) := by decide

/-- ENQ: op 110001, sub 1 (R77). -/
theorem test_decode_enq : decodeValzel 0b110001_00001_00010_00011_000001_00000 = some (.enq 1 2 3) := by decide

/-- TWAIT: op 110010, sub 2 (R80). -/
theorem test_decode_twait : decodeValzel 0b110010_00101_01010_01011_000010_00000 = some (.twait 5 10 11) := by decide

/-- MRECV: op 110011, sub 2, vd in [25:21], rd2 in [15:11] (R65, R84). -/
theorem test_decode_mrecv : decodeValzel 0b110011_00100_00000_00110_000010_00000 = some (.mrecv 4 6) := by decide

/-- RPOP: op 110100, sub 1 (R86). -/
theorem test_decode_rpop : decodeValzel 0b110100_00001_00010_00011_000001_00000 = some (.rpop 1 2 3) := by decide

/-- PCRD: op 110101, sub 2 (R89). -/
theorem test_decode_pcrd : decodeValzel 0b110101_00001_00010_00000_000010_00000 = some (.pcrd 1 2) := by decide

/-- A type that VFMA does not have, type 7 and a zero field that is set are illegal (R66, R71). -/
theorem test_decode_illegal :
    decodeValzel 0b100000_00001_00010_00011_001_000_00011 = none ∧ decodeValzel 0b100000_00001_00010_00011_000_111_00000 = none ∧
    decodeValzel 0b110011_00100_00001_00110_000010_00000 = none ∧ decodeValzel 0 = none := by decide

/-! ### Worked values -/

/-- R479's example: amax 3.5 in E4M3 gives the FP16 scale 0x2000, and 3.5 and 1.3 the codes 0x7E and 0x72; 1.3 is taken as
the FP16 value 0x3D33 nearest it. -/
theorem test_kv_block : kvBlock 4 [flt16.ieee 0x4300, flt16.ieee 0x3D33] = (0x2000, [0x7E, 0x72], false) := by decide

/-! ### A concrete case for the hypotheses of each statement

Each `witness_` theorem goes through the clauses of the statement it is named after and shows, clause by clause, a side and operands that meet
all that the clause assumes; `(asNear x).side .near` is `x`. -/

/-- A side after reset, out of its reset and before its boot, its links 0 to 2 trained. -/
def base : Side := { Side.reset 0 .cjm7480 with regs := [(Reg.BN_STATE, 7)] }

/-- A side whose registers have been given these values. -/
def holds (l : List (Nat × Word)) : Side := { base with regs := l ++ base.regs }

/-- The module whose side 0 is as given. -/
def asNear (x : Side) : State := { State.reset with near := x }

theorem asNear_side (x : Side) : (asNear x).side .near = x := rfl

/-- Whether a write at a level is performed, as a computation. -/
def takesB (x : Side) (level k : Nat) (v : Word) : Bool :=
  decide (x.live = true ∧ 1 ≤ level ∧ x.writable k = true ∧ (specOf k).any (fun r => v.toNat &&& (2 ^ 64 - 1 - r.known) == 0) = true)

theorem takes_iff (x : Side) (level k : Nat) (v : Word) : x.takes level k v ↔ takesB x level k v = true := by
  unfold Side.takes takesB
  cases h : specOf k <;> simp

theorem witness_SoundKept : State.reset.sound = true ∧ step State.reset = .next State.reset.idle := ⟨by decide +kernel, rfl⟩

theorem witness_OnlyPowerUpLeavesOff :
    ({ base with phase := .off }).phase = .off ∧ (asNear { base with phase := .off }).pending.head? ≠ some (.powerUp .near) ∧
    step (asNear { base with phase := .off }) = .next (asNear { base with phase := .off }).idle := ⟨rfl, by simp [asNear, State.reset], rfl⟩

theorem witness_Valzel : (GInstr.imm .addi 31 31 0xFFFF).wf = true ∧ decodeValzel 0x0BFF_FFFF = some (.imm .addi 31 31 0xFFFF) := by decide

theorem witness_EpochZeroAcceptsNoMessage : ((base.groom 111).ctlGet 0x010).fld 16 16 = 0 := by decide +kernel

theorem witness_RegisterAccess :
    base.live = true ∧ base.writable 0x0E180000 = false ∧ base.writable 0x0100_0000 = false ∧ specOf 0x03000078 = none ∧
    (∃ r, specOf Reg.DT_CTRL = some r ∧ (2 : Word).toNat &&& (2 ^ 64 - 1 - r.known) ≠ 0) ∧
    (∃ r, base.takes 2 Reg.DT_XCFG 7 ∧ specOf Reg.DT_XCFG = some r ∧ base.regWrite 0 Reg.DT_XCFG r 7 = base.plainWrite Reg.DT_XCFG r 7) ∧
    base.takes 2 Reg.DT_TOD 5 ∧
    (∃ r, base.part.hasInst (Reg.DT_XCNT / 0x1000000) (Reg.DT_XCNT / 0x10000 % 0x100) = true ∧ base.part.lacksReg Reg.DT_XCNT = false ∧
      specOf Reg.DT_XCNT = some r ∧ Reg.DT_XCNT ≠ Reg.DT_NOW ∧ Reg.DT_XCNT ≠ Reg.PW_IN) := by
  simp only [takes_iff]
  exact ⟨by decide, by decide +kernel, by decide +kernel, by decide +kernel, ⟨_, rfl, by decide +kernel⟩, ⟨_, by decide +kernel, rfl, rfl⟩,
    by decide +kernel, ⟨_, by decide, by decide, rfl, by decide, by decide⟩⟩

theorem witness_QueueRegisters :
    base.takes 2 (Reg.CQ_TAIL 63) 16 ∧ ((16 : Word).toNat + 2 ^ 32 - base.fld (Reg.CQ_HEAD 63) 0 32) % 2 ^ 32 ≤ 16 * 2 ^ (base.rd (Reg.CQ_CFG 63)).fld 8 4 ∧
    base.takes 2 (Reg.CQ_TAIL 63) 17 ∧ ¬((17 : Word).toNat + 2 ^ 32 - base.fld (Reg.CQ_HEAD 63) 0 32) % 2 ^ 32 ≤ 16 * 2 ^ (base.rd (Reg.CQ_CFG 63)).fld 8 4 ∧
    base.takes 2 (Reg.CQ_CFG 63) (Word.put 0x807 3 1 1) ∧ base.flag (Reg.CQ_CFG 63) 3 = false ∧ Word.fld 0x807 8 4 ≤ 8 ∧
    base.queueRingOk (base.rd (Reg.CQ_RING 63)).toNat (64 * (16 * 2 ^ 8)) = true ∧
    base.queueRingOk (base.rd (Reg.CQ_CPL 63)).toNat (32 * (16 * 2 ^ 8)) = true ∧
    (holds [(Reg.CQ_RING 63, 0x24_0000_0000)]).queueRingOk 0x24_0000_0000 (64 * (16 * 2 ^ 8)) = false ∧
    (holds [(Reg.CQ_CFG 63, 8)]).takes 2 (Reg.CQ_CFG 63) (Word.put 0 3 1 1) ∧ (holds [(Reg.CQ_CFG 63, 8)]).flag (Reg.CQ_CFG 63) 3 = true ∧
    (holds [(Reg.CQ_CFG 63, 8)]).takes 2 (Reg.CQ_CFG 63) (Word.put 0 3 1 0) ∧
    (holds [(Reg.CQ_CFG 63, 8)]).takes 2 (Reg.CQ_RING 63) 0x24_0000_0000 ∧
    (holds [(Reg.CQ_CFG 63, 8)]).queueRingOk 0x24_0000_0000 (16 * 64) = false ∧
    base.takes 2 (Reg.CQ_CPL 63) 0x20 ∧ base.live = true := by
  simp only [takes_iff]; decide +kernel

/-- A side on which Groom `g` runs. -/
def groomOn (g : Nat) : Side := base.onGroom g (fun r => { r with halted := false })

theorem witness_GroomControl :
    base.live = true ∧ 111 < base.part.grooms ∧ 111 < base.grooms.length ∧ (base.groom 111).halted = true ∧
    ((groomOn 111).groom 111).halted = false ∧ 111 < (groomOn 111).grooms.length := by decide +kernel

theorem witness_TimeRegisters :
    base.live = true ∧ (holds [(Reg.LG_CTRL, 1)]).flag Reg.LG_CTRL 0 = true ∧ base.takes 2 Reg.LG_RPT_CFG 8 ∧ Word.fld 8 0 4 ≤ 8 ∧
    base.takes 2 Reg.LG_RPT_CFG 9 ∧ 8 < Word.fld 9 0 4 := by
  simp only [takes_iff]; decide +kernel

theorem witness_SensorRegisters :
    31 < base.ing.slots.length ∧ base.takes 2 (Reg.IN_SCFG 31) (Word.put 0x33000000 0 1 1) ∧ base.slotOn 31 = false ∧
    base.slotCfgOk 31 (Word.put 0x33000000 0 1 1) = true ∧
    (holds [(Reg.IN_SCFG 31, 1)]).takes 2 (Reg.IN_SCFG 31) (Word.put 0 0 1 0) ∧ (holds [(Reg.IN_SCFG 31, 1)]).slotOn 31 = true ∧
    (holds [(Reg.IN_LPTR 31, 0x20)]).takes 2 (Reg.IN_LPTR 31) 0x20_0000_0000 ∧ (holds [(Reg.IN_LPTR 31, 0x20)]).fld (Reg.IN_LPTR 31) 0 32 = 0x20 ∧
    (holds [(Reg.IN_LPTR 31, 0x20)]).takes 2 (Reg.IN_LPTR 31) 0x21_0000_0000 ∧ (holds [(Reg.IN_LPTR 31, 0x20)]).fld (Reg.IN_LPTR 31) 32 32 = 0 ∧
    base.takes 2 Reg.TR_CTRL (Word.put 0 0 1 1) ∧ base.flag Reg.TR_CTRL 0 = false ∧
    base.takes 2 (Reg.TR_SCFG 31) 3 ∧ 31 < base.tr.streams.length ∧ base.streamOn 31 = false ∧ Word.flag 3 0 = true ∧ base.streamCfgOk 31 3 = true ∧
    (holds [(Reg.GT_PER, 0x7A120_0000_0000), (Reg.GT_HIST, 0x3000_0000_0000)]).takes 2 Reg.GT_CTRL (Word.put 0 0 1 1) ∧
    (holds [(Reg.GT_PER, 0x7A120_0000_0000), (Reg.GT_HIST, 0x3000_0000_0000)]).flag Reg.GT_CTRL 0 = false ∧
    (holds [(Reg.GT_PER, 0x7A120_0000_0000), (Reg.GT_HIST, 0x3000_0000_0000)]).gaitEnable.flag Reg.GT_CTRL 0 = true := by
  simp only [takes_iff]; decide +kernel

/-- Registers of a Plat whose grid has one cell. -/
def platRegs : List (Nat × Word) :=
  [(Reg.PT_GEOM, 0x0001_0001_0032_0020), (Reg.PT_HBASE 0, 0x0), (Reg.PT_HBASE 1, 0x4_0000), (Reg.PT_RXBASE 0, 0x8_0000),
   (Reg.PT_RXBASE 1, 0xC_0000), (Reg.PT_PBASE 0, 0x10_0000), (Reg.PT_PBASE 1, 0x14_0000)]

/-- Registers of Traverse with an empty road map. -/
def traverseRegs : List (Nat × Word) :=
  [(Reg.TV_RMAP, 1), (Reg.TV_CMAP, 0x3000_0000_0000), (Reg.TV_PBASE 0, 0x10_0000), (Reg.TV_PBASE 1, 0x11_0000),
   (Reg.TV_MBASE 0, 0x12_0000), (Reg.TV_MBASE 1, 0x13_0000)]

theorem witness_CloudAndPlanRegisters :
    (holds [(Reg.PL_TBASE, 0x3000_01F0_0000)]).takes 2 Reg.PL_CTRL 1 ∧ Word.flag 1 0 = true ∧
    (holds [(Reg.PL_TBASE, 0x3000_01F0_0000)]).flag Reg.PL_CTRL 0 = false ∧
    (holds [(Reg.PL_TBASE, 0x3000_01F0_0000)]).loc (holds [(Reg.PL_TBASE, 0x3000_01F0_0000)]).plTable = some 0x3000_01F0_0000 ∧
    (0x3000_0000_0000 : Nat) ≤ 0x3000_01F0_0000 ∧ (0x3000_01F0_0000 : Nat) + 33 * 2 ^ 20 ≤ 0x3000_0400_0000 ∧
    (holds [(Reg.PL_TBASE, 0x8000_0000_0000)]).loc (holds [(Reg.PL_TBASE, 0x8000_0000_0000)]).plTable = none ∧
    (holds platRegs).takes 2 Reg.PT_CTRL 1 ∧ (holds platRegs).ptOn = false ∧ (holds platRegs).ptCfgOk = true ∧
    base.takes 2 Reg.PT_CTRL 1 ∧ base.ptOn = false ∧ base.ptCfgOk = false ∧
    (holds traverseRegs).takes 2 Reg.TV_CTRL 1 ∧ (holds traverseRegs).tvOn = false ∧ (holds traverseRegs).tvCfgOk = true ∧
    base.takes 2 Reg.TV_CTRL 1 ∧ base.tvOn = false ∧ base.tvCfgOk = false ∧
    base.takes 2 Reg.BR_CTRL 1 ∧ base.flag Reg.BR_CTRL 0 = false ∧
    (holds [(Reg.BR_CTRL, 1)]).takes 2 Reg.BR_CTRL 0 ∧ Word.flag 0 0 = false ∧ (holds [(Reg.BR_CTRL, 1)]).flag Reg.BR_CTRL 0 = true ∧
    (holds [(Reg.BR_CTRL, 1)]).br.slots.length = 4 := by
  simp only [takes_iff]; decide +kernel

/-- A side on which Outrider 1 is enabled, with pages of 4 KiB in class 3. -/
def outriderOn : Side := holds [(Reg.OR_CTRL 1, 1), (Reg.OR_CLS 1 3, 0x1_0000)]

theorem witness_MemoryRegisters :
    base.takes 2 Reg.NT_MAP 144 ∧ base.flag Reg.NT_MAP 16 = false ∧ Word.fld 144 0 8 % base.part.stacks = 0 ∧
    Word.fld 144 0 8 ≤ base.part.nearGB ∧ Word.flag 144 17 = false ∧ base.takes 2 Reg.NT_MAP 145 ∧ Word.fld 145 0 8 % base.part.stacks ≠ 0 ∧
    (holds [(Reg.NT_MAP, 0x10000)]).takes 1 Reg.NT_MAP 144 ∧ (holds [(Reg.NT_MAP, 0x10000)]).flag Reg.NT_MAP 16 = true ∧
    Word.fld 144 0 8 ≠ (holds [(Reg.NT_MAP, 0x10000)]).fld Reg.NT_MAP 0 8 ∧
    1 < base.part.dies ∧ 1 < base.outriders.length ∧ base.takes 2 (Reg.OR_CTRL 1) 1 ∧ base.flag (Reg.OR_CTRL 1) 0 = false ∧
    (∀ c, c < 4 → base.fld (Reg.OR_CLS 1 c) 16 16 = 0) ∧
    outriderOn.takes 2 (Reg.OR_NPUSH 1 3) 0x23_FFFF_F000 ∧ 3 < (outriderOn.outrider 1).rings.length ∧ outriderOn.flag (Reg.OR_CTRL 1) 0 = true ∧
    (0x23_FFFF_F000 : Word).toNat % 4096 = 0 ∧ outriderOn.loc 0x23_FFFF_F000 = some 0x23_FFFF_F000 ∧
    outriderOn.part.inNear 0x23_FFFF_F000 (outriderOn.classBytes 1 3) = true ∧
    (outriderOn.orRings 1 3).near.length < 16 * 2 ^ outriderOn.fld (Reg.OR_CLS 1 3) 0 4 ∧
    outriderOn.takes 2 (Reg.OR_NPUSH 1 3) 1 ∧ (1 : Word).toNat % 4096 ≠ 0 ∧
    outriderOn.takes 2 (Reg.OR_FPUSH 1 3) 0x201F_FFFF_F000 ∧ outriderOn.part.farGB ≠ 0 ∧ outriderOn.loc 0x201F_FFFF_F000 = some 0x201F_FFFF_F000 ∧
    0x201F_FFFF_F000 + outriderOn.classBytes 1 3 ≤ 0x2000_0000_0000 + outriderOn.part.farGB * 2 ^ 30 ∧
    (outriderOn.orRings 1 3).far.length < 16 * 2 ^ outriderOn.fld (Reg.OR_CLS 1 3) 4 4 := by
  simp only [takes_iff]; decide +kernel

/-- A side that waits for a verdict on Draft engine 23. -/
def suspect : Side := { base with sw := { base.sw with counted := [⟨0x0E, 23, 0, true⟩] } }

theorem witness_StewardAndPowerRegisters :
    base.live = true ∧ base.swState = 0 ∧ base.sw.armed = false ∧ suspect.takes 2 Reg.SW_VERDICT 0x010E_0000_0017 ∧
    Word.fld 0x010E_0000_0017 32 8 = 0x0E ∧
    (∃ c ∈ suspect.sw.counted, c.unit = Word.fld 0x010E_0000_0017 32 8 ∧ c.inst = Word.fld 0x010E_0000_0017 0 16 ∧ c.waiting = true) ∧
    suspect.fld Reg.SW_STATE 8 8 < suspect.fld Reg.SW_CFG 16 8 ∧
    base.takes 2 Reg.SW_VERDICT 0 ∧ ¬(Word.fld 0 32 8 = 0x0E ∨ Word.fld 0 32 8 = 0x0F) ∧
    base.takes 2 (Reg.TP_BASE 1) 0x1000 ∧ base.packUsed 1 = false ∧
    base.takes 2 Reg.PW_REQ 3 ∧ base.flag Reg.PW_STATE 4 = false := by
  simp only [takes_iff]; decide +kernel

/-- A side with the owner key of all zeros, or another, programmed. -/
def ownedBy (h : Nat) : Side := { base with kp := { base.kp with ownerHash := some h } }

theorem witness_KeeperRegisters :
    base.takes 2 Reg.KP_VREQ 0x1F ∧ base.kp.verify = none ∧ Word.fld 0x1F 0 8 = 0x1F ∧
    base.takes 2 Reg.KP_ROLL 0x3F07 ∧ Word.fld 0x3F07 0 8 = 7 ∧ base.kp.roll.length = 7 ∧ base.kp.roll.getD 6 0 < Word.fld 0x3F07 8 8 ∧
    Word.fld 0x3F07 8 8 ≤ 63 ∧ base.kp.images ++ base.kp.fw = [] ∧ base.takes 2 Reg.KP_QREQ 0x40 ∧ base.kp.quote = none ∧
    base.kp.ownerHash = none ∧ (ownedBy (2 ^ 256)).kp.ownerHash ≠ none ∧ ({ base with kp := { base.kp with hobble := true } }).kp.hobble = true ∧ base.swState = 0 ∧
    base.takes 2 Reg.KP_HOBBLE 0x4842 ∧ Word.fld 0x4842 0 16 = 0x4842 ∧ base.takes 2 Reg.KP_VREQ 0 ∧ base.takes 2 Reg.KP_ROLL 0 ∧ base.takes 2 Reg.KP_QREQ 0 ∧
    base.takes 2 (Reg.KP_OWNER 7) 0 ∧ base.takes 2 (Reg.KP_DTOK 14) 0 ∧ base.takes 2 Reg.KP_HOBBLE 0 := by
  simp only [takes_iff]; decide +kernel

theorem witness_KeeperRegisters_owner :
    let h := fromBytes (shake256 (toBytes 57 (fromBytes (((setAt (ownedBy 0).kp.ownerKey 7 (0 : Word).toNat).map (toBytes 8)).flatten.take 57))) 32)
    (ownedBy h).kp.ownerHash = some h ∧ (ownedBy (h + 1)).kp.ownerHash ≠ some h := by
  intro h
  exact ⟨rfl, fun e => by have := Option.some.inj e; omega⟩

/-! #### Grooms -/

/-- A side whose Groom `g` runs the word `w` from its local memory, in the state that `f` gives it. -/
def runs (g w : Nat) (f : Groom → Groom := id) : Side :=
  base.onGroom g (fun r => f { r with halted := false, lmem := (upTo 4).map (fun k => (k, BitVec.ofNat 8 (w / 256 ^ k))) })

/-- A Groom's x2 and x3 and its ctl registers, the first of them `ctl.status` with the level `pl`. -/
def with23 (a b : Word) (pl : Nat := 0) (ctl : List (Nat × Word) := []) (r : Groom) : Groom :=
  { r with x := [0, 0, a, b], ctl := (0, BitVec.ofNat 64 pl) :: ctl }

/-- Whether a Groom fetches an instruction, as a computation. -/
def fetchesB (x : Side) (g : Nat) (i : GInstr) (env : Env := quiet) : Bool :=
  let z := (x.asGroom g).lineErrors none env.errs false
  decide (x.live = true ∧ g < x.part.grooms ∧ g < x.grooms.length ∧ (x.groom g).runs = true ∧ (x.groom g).wait = .none ∧
    (z.fetch g env).toOption.any (fun p => p.1 == encodeValzel i) = true ∧ decodeValzel (encodeValzel i) = some i ∧ z.heldUp g i = false)

theorem fetches_of (x : Side) (g : Nat) (i : GInstr) (env : Env) (h : fetchesB x g i env = true) : x.fetches g env (encodeValzel i) i := by
  obtain ⟨live, below, held, runs, free, word, spells, up⟩ := of_decide_eq_true h
  refine ⟨live, below, held, runs, free, ?_, spells, up⟩
  match e : ((x.asGroom g).lineErrors none env.errs false).fetch g env with
  | .error _ => rw [e] at word; contradiction
  | .ok (w, x') =>
    rw [e] at word
    exact ⟨x', by rw [eq_of_beq (a := w) word]⟩

/-- An instruction of every kind, with operands rd 1, rs1 2, rs2 3. -/
def everyInstr : List GInstr :=
  List.flatten (α := GInstr) [aluCodes.map (fun e => .alu e.2 1 2 3), amoCodes.map (fun e => .amo e.2 1 2 3), immCodes.map (fun e => .imm e.2 1 2 0),
  shiftCodes.map (fun e => .imm e.2 1 2 63), loadCodes.map (fun e => .load e.2 1 2 0), storeCodes.map (fun e => .store e.2 3 2 0),
  brCodes.map (fun e => .br e.2 2 3 1), vCodes.map (fun e => .vec e.2 1 2 3 0 (if e.2 = .fma then 6 else 0)),
  pCodes.map (fun e => .pred e.2 1 2 3 0), sysCodes.map (fun e => .sys e.2),
  [.lui 1 0xFFFF, .jal 1, .jalr 1 2 0, .vld 1 2 0, .vst 3 2 0, .ctlr 1 0x022, .ctlr 1 0x016, .ctlw 2 0x016, .ctlw 2 0x018, .ctlw 2 0x010,
   .enq 1 2 3, .enqm 1 2 3, .qspace 1 2, .tsig 2 3, .twait 1 2 3, .tread 1 2, .msend 1 2, .mrecv 1 3, .merr 1 3, .mcount 1 2,
   .rpop 1 2 3, .rmark 2, .rrewind 2, .rrelease 2, .rcount 1 2, .dtime 1, .pcrd 1 2]]

theorem everyInstr_fetched : everyInstr.all (fun i => fetchesB (runs 15 (encodeValzel i)) 15 i) = true := by decide +kernel

/-- Of the statements that only ask for the fetch: RegisterArithmetic, ImmediateArithmetic, BranchesAndJumps, VectorsAndPredicates,
TimeAndCounters, SystemInstructionsAndWaits, ExceptionsAndInterrupts. -/
theorem witness_fetches : ∀ i ∈ everyInstr, (runs 15 (encodeValzel i)).fetches 15 quiet (encodeValzel i) i :=
  fun i h => fetches_of _ _ _ _ (List.all_eq_true.mp everyInstr_fetched i h)

theorem witness_GeneralRegisters : 31 ≠ 0 ∧ 31 < Groom.reset.x.length ∧ (30 : Nat) ≠ 31 := by decide

/-- The Groom of these cases: the last of the side, at the level `pl`, with x2, x3 and ctl registers. -/
def last (i : GInstr) (a b : Word) (pl : Nat := 0) (ctl : List (Nat × Word) := []) : Side := runs 111 (encodeValzel i) (with23 a b pl ctl)

theorem witness_Loads_Stores :
    (loadCodes.map (fun e => GInstr.load e.2 1 2 0) ++ storeCodes.map (fun e => GInstr.store e.2 3 2 0) ++ [GInstr.vld 1 2 0, GInstr.vst 3 2 0] : List GInstr).all (fun i =>
      fetchesB (last i 0x23_FFFF_FFC0 0) 111 i && fetchesB (last i 0x8000_0000_0003_FFC0 0) 111 i) = true ∧
    (let x := last (.load .ld 1 2 0) 0x23_FFFF_FFC0 0
     let a := ((x.groom 111).rx 2 + BitVec.ofInt 64 (signed 16 0)).toNat
     [1, 2, 4, 8, 64].all (fun n => a % n == 0 && decide (x.place a n = .mem a) && !(x.readGuarded 0x10 a n) && !(x.writeGuarded 0x10 a n) &&
       !((x.met 111 quiet).poisoned a n)) = true) ∧
    (let x := last (.load .ld 1 2 0) 0x8000_0000_0003_FFC0 0
     let a := ((x.groom 111).rx 2 + BitVec.ofInt 64 (signed 16 0)).toNat
     [1, 2, 4, 8, 64].all (fun n => a % n == 0 && decide (x.place a n = .loc 0x3FFC0)) = true) ∧ quiet.eccData = false := by decide +kernel

theorem witness_Loads_Stores_register :
    let x := last (.load .ld 1 2 0) 0x3F00_0300_0000 0 1
    let y := last (.store .sd 3 2 0) 0x3F00_1100_0000 7 2
    fetchesB x 111 (.load .ld 1 2 0) = true ∧ x.place 0x3F00_0300_0000 8 = .reg Reg.DT_NOW ∧ (x.groom 111).pl ≠ 0 ∧
    fetchesB y 111 (.store .sd 3 2 0) = true ∧ y.place 0x3F00_1100_0000 8 = .reg (Reg.TE_VALUE 0) ∧ (y.groom 111).pl ≠ 0 ∧
    (((y.met 111 quiet).advance 111).busWrite 2 (Reg.TE_VALUE 0) ((y.groom 111).rx 3)).1 = true := by decide +kernel

theorem witness_Atomics :
    [AmoOp.add, .swap, .cas].all (fun o => fetchesB (last (.amo o 1 2 3) 0x23_FFFF_FFF8 9) 111 (.amo o 1 2 3)) = true ∧
    (let x := last (.amo .cas 1 2 3) 0x23_FFFF_FFF8 9
     ((x.groom 111).rx 2).toNat % 8 = 0 ∧ x.place ((x.groom 111).rx 2).toNat 8 = .mem 0x23_FFFF_FFF8 ∧ x.readGuarded 0x10 0x23_FFFF_FFF8 8 = false ∧
     x.writeGuarded 0x10 0x23_FFFF_FFF8 8 = false ∧ (x.met 111 quiet).poisoned 0x23_FFFF_FFF8 8 = false) := by decide +kernel

theorem witness_ControlRegisters :
    (∃ c, ctlSpec 0x022 = some c ∧ c.readLvl ≤ 0) ∧
    (∀ e ∈ [(0x016, (0xF : Word)), (0x018, 1), (0x010, 0xFFFF)], ∃ c, ctlSpec e.1 = some c ∧ (∃ l, c.writeLvl = some l ∧ l ≤ 2) ∧
      e.2.toNat &&& (2 ^ 64 - 1 - (c.rw ||| c.ro)) = 0 ∧
      fetchesB (last (.ctlw 2 e.1) e.2 0 2) 111 (.ctlw 2 e.1) = true ∧ ((last (.ctlw 2 e.1) e.2 0 2).groom 111).pl = 2 ∧
      ((last (.ctlw 2 e.1) e.2 0 2).groom 111).rx 2 = e.2 ∧ (last (.ctlw 2 e.1) e.2 0 2).roleStalls 111 = false) := by
  refine ⟨⟨_, rfl, by decide⟩, ?_⟩
  intro e h
  simp only [List.mem_cons, List.not_mem_nil, or_false] at h
  obtain rfl | rfl | rfl := h <;> refine ⟨_, rfl, ⟨_, rfl, by decide⟩, by decide, ?_⟩ <;> decide +kernel

theorem witness_EngineIssue :
    (∀ i ∈ [GInstr.enq 1 2 3, .enqm 1 2 3, .qspace 1 2], fetchesB (last i 63 0x8000_0000_0003_FFC0 0 [(0x012, 0x8000_0000_0000_0000)]) 111 i = true) ∧
    (let x := last (.enqm 1 2 3) 63 0x8000_0000_0003_FFC0 0 [(0x012, 0x8000_0000_0000_0000)]
     ((x.groom 111).rx 2).toNat ≤ 63 ∧ ((x.groom 111).ctlGet 0x012).flag 63 = true ∧
     (x.fld (Reg.CQ_TAIL 63) 0 32 + 2 ^ 32 - x.fld (Reg.CQ_HEAD 63) 0 32) % 2 ^ 32 ≠ 16 * 2 ^ x.fld (Reg.CQ_CFG 63) 8 4 ∧
     x.part.populated ((x.fld (Reg.CQ_RING 63) 6 58 * 64) % 2 ^ 46) 64 = true ∧ x.writeGuarded 0x10 0 64 = false ∧
     ((x.groom 111).rx 3).toNat % 64 = 0 ∧ x.place ((x.groom 111).rx 3).toNat 64 = .loc 0x3FFC0) ∧
    (let x : Side := { last (.enq 1 2 3) 63 0 2 with regs := (Reg.CQ_TAIL 63, 16) :: base.regs }
     fetchesB x 111 (.enq 1 2 3) = true ∧ (x.groom 111).pl ≠ 0 ∧
     (x.fld (Reg.CQ_TAIL 63) 0 32 + 2 ^ 32 - x.fld (Reg.CQ_HEAD 63) 0 32) % 2 ^ 32 = 16 * 2 ^ x.fld (Reg.CQ_CFG 63) 8 4) := by decide +kernel

theorem witness_TetherInstructions :
    (∀ i ∈ [GInstr.tsig 2 3, .tread 1 2, .twait 1 2 3], fetchesB (last i 8191 1 0 [(0x014, 8191), (0x015, 1)]) 111 i = true) ∧
    (let r := (last (.tread 1 2) 8191 1 0 [(0x014, 8191), (0x015, 1)]).groom 111
     (r.rx 2).toNat ≤ 8191 ∧ (r.ctlGet 0x014).fld 0 13 ≤ (r.rx 2).toNat ∧ (r.rx 2).toNat < (r.ctlGet 0x014).fld 0 13 + (r.ctlGet 0x015).fld 0 14) ∧
    (let x := last (.twait 1 2 3) 8191 0 2
     fetchesB x 111 (.twait 1 2 3) = true ∧ (x.groom 111).pl ≠ 0 ∧ ((x.groom 111).rx 3).toNat ≤ (x.rd (Reg.TE_VALUE 8191)).toNat) ∧
    (let x := last (.twait 1 2 3) 8191 1 2
     fetchesB x 111 (.twait 1 2 3) = true ∧ (x.rd (Reg.TE_VALUE 8191)).toNat < ((x.groom 111).rx 3).toNat) := by decide +kernel

theorem witness_MessageInstructions :
    (∀ i ∈ [GInstr.msend 1 2, .mrecv 1 3, .merr 1 3, .mcount 1 2], fetchesB (last i 1 0 0 [(0x011, 1)]) 111 i = true) ∧
    (((last (.msend 1 2) 1 0 0 [(0x011, 1)]).groom 111).ctlGet 0x011).flag 0 = true := by decide +kernel

/-- A message from Groom 110 to Groom 111 for role 2 of epoch 1. -/
def letter : BitVec 512 := BitVec.ofNat 512 (111 + 2 * 2 ^ 16 + 1 * 2 ^ 32 + 110 * 2 ^ 48)

/-- A side on which Groom 110 has sent the letter, the epoch of Groom 111 being `e`. -/
def posted (e : Word) : Side :=
  (base.onGroom 110 (fun r => { r with sendQ := [letter] })).onGroom 111 (fun r => { r with recvQ := List.replicate 31 0, ctl := [(0x010, e * 0x10000 + 2)] })

/-- A side to which the letter has come back, `n` of them waiting at Groom 110. -/
def returned (n : Nat) : Side := { base.onGroom 110 (fun r => { r with errQ := List.replicate n 0 }) with returns := [letter] }

theorem witness_MessageTransfer :
    (posted 1).live = true ∧ 111 < (posted 1).part.grooms ∧ 111 < (posted 1).grooms.length ∧
    ((posted 1).groom 110).sendQ.find? (fun m => bits m.toNat 0 16 == 111) = some letter ∧ ((posted 1).groom 111).recvQ.length < 32 ∧
    bits letter.toNat 16 16 = (((posted 1).groom 111).ctlGet 0x010).fld 0 16 ∧ bits letter.toNat 32 16 = (((posted 1).groom 111).ctlGet 0x010).fld 16 16 ∧
    (((posted 1).groom 111).ctlGet 0x010).fld 16 16 ≠ 0 ∧
    ((posted 2).groom 110).sendQ.find? (fun m => bits m.toNat 0 16 == 111) = some letter ∧ ((posted 2).groom 111).recvQ.length < 32 ∧
    bits letter.toNat 32 16 ≠ (((posted 2).groom 111).ctlGet 0x010).fld 16 16 ∧
    (returned 15).returns.find? (fun m => bits m.toNat 48 16 == 110) = some letter ∧ ((returned 15).groom 110).errQ.length < 16 ∧
    (returned 16).returns.find? (fun m => bits m.toNat 48 16 == 110) = some letter ∧ 16 ≤ ((returned 16).groom 110).errQ.length := by decide +kernel

/-- A side whose Groom 15, on the hub die, uses Race slot 31, which holds a word. -/
def racing (i : GInstr) : Side :=
  { runs 15 (encodeValzel i) (with23 31 0 0 [(0x013, 0x8000_0000)]) with
    ing := { base.ing with slots := setAt base.ing.slots 31 { Slot.reset with words := [raceWord 5 32 true true], readable := 1 } } }

theorem witness_RaceInstructions :
    (∀ i ∈ [GInstr.rpop 1 2 3, .rmark 2, .rrewind 2, .rrelease 2, .rcount 1 2], fetchesB (racing i) 15 i = true) ∧
    (let x := racing (.rpop 1 2 3)
     ((x.groom 15).rx 2).toNat ≤ 31 ∧ ((x.groom 15).ctlGet 0x013).flag 31 = true ∧ (x.slot 31).pos < (x.slot 31).readable ∧
     (x.slot 31).words[(x.slot 31).pos]? = some (raceWord 5 32 true true) ∧ fetchesB x 15 (.rpop 1 2 3) ⟨[], false, true⟩ = true ∧
     31 < x.ing.slots.length) ∧
    (let x := runs 15 (encodeValzel (.rpop 1 2 3)) (with23 31 0 1)
     fetchesB x 15 (.rpop 1 2 3) = true ∧ (x.groom 15).pl ≠ 0 ∧ (x.slot 31).readable ≤ (x.slot 31).pos) := by decide +kernel

theorem witness_TimeAndCounters :
    fetchesB (last (.pcrd 1 2) 8 0 0 [(0x011, 2)]) 111 (.pcrd 1 2) = true ∧
    (((last (.pcrd 1 2) 8 0 0 [(0x011, 2)]).groom 111).ctlGet 0x011).flag 1 = true := by decide +kernel

/-- A side on which Groom 111 waits. -/
def waits (g : GWait) (recv : List (BitVec 512) := []) : Side :=
  base.onGroom 111 (fun r => { r with halted := false, wait := g, recvQ := recv })

theorem witness_SystemInstructionsAndWaits :
    (let x := last (.sys .eret) 0 0 1
     fetchesB x 111 (.sys .eret) = true ∧ (x.groom 111).pl ≠ 0 ∧ ((x.groom 111).ctlGet (ctlBase (x.groom 111).pl)).toNat % 4 = 0) ∧
    (let x := runs 111 (encodeValzel (.sys .wfe)) (fun r => { r with recvQ := [0] })
     fetchesB x 111 (.sys .wfe) = true ∧ (x.groom 111).recvQ ≠ []) ∧
    (let x := last (.sys .wfe) 0 0
     fetchesB x 111 (.sys .wfe) = true ∧ (x.groom 111).ctlGet 0x016 = 0 ∧ (x.groom 111).recvQ = []) ∧
    (waits (.twait 1 2 3 4 true)).live = true ∧ 111 < (waits (.twait 1 2 3 4 true)).grooms.length ∧
    ((waits (.twait 1 2 3 4 true)).groom 111).halted = false ∧ ((waits (.twait 1 2 3 4 true)).groom 111).wait = .twait 1 2 3 4 true ∧
    (let x : Side := { waits (.twait 1 2 3 4 false) with datum := { Datum.reset with ns := 5 } }
     x.live = true ∧ (x.groom 111).wait = .twait 1 2 3 4 false ∧ 4 < x.now) ∧
    (let x := waits .wfe [0]
     x.live = true ∧ (x.groom 111).halted = false ∧ (x.groom 111).wait = .wfe ∧ (x.groom 111).recvQ ≠ []) ∧
    (let x := waits .wfe
     x.live = true ∧ (x.groom 111).halted = false ∧ (x.groom 111).wait = .wfe ∧ (x.groom 111).ctlGet 0x016 = 0 ∧ (x.groom 111).recvQ = []) := by
  decide +kernel

/-- A side whose Groom 111 takes the interrupts of source 3 and of source 0, the first of which is pending. -/
def signalled : Side := last (.sys .fence) 0 0 6 [(0x016, 9), (0x018, 1)]

theorem witness_ExceptionsAndInterrupts :
    fetchesB (last (.sys .ecall) 0 0) 111 (.sys .ecall) = true ∧ fetchesB (last (.sys .ebreak) 0 0 2) 111 (.sys .ebreak) = true ∧
    (signalled.live = true ∧ 111 < signalled.grooms.length ∧ (signalled.groom 111).halted = false ∧ (signalled.groom 111).ie = true ∧
      ((signalled.groom 111).ctlGet 0x016).flag 3 = true ∧ ((signalled.groom 111).ctlGet 0x016).flag 0 = true) ∧
    (∀ t, (signalled.groom 111).pends 3 t = true) ∧ (∀ t, (signalled.groom 111).pends 0 t = false) :=
  ⟨by decide +kernel, by decide +kernel, by decide +kernel,
   fun _ => (by decide +kernel : ((signalled.groom 111).ctlGet 0x018).flag 0 = true),
   fun _ => (by decide +kernel : (!(signalled.groom 111).recvQ.isEmpty) = false)⟩

/-- The instructions that name a queue, a tether and a Race slot. -/
def ofQueues : List GInstr := [.enq 1 2 3, .enqm 1 2 3, .qspace 1 2]
@[inherit_doc ofQueues] def ofTethers : List GInstr := [.tsig 2 3, .twait 1 2 3, .tread 1 2]
@[inherit_doc ofQueues] def ofRace : List GInstr := [.rpop 1 2 3, .rmark 2, .rrewind 2, .rrelease 2, .rcount 1 2]

theorem witness_RangeAndGrantChecks :
    (∀ i ∈ ofQueues, fetchesB (last i 64 0) 111 i = true ∧ fetchesB (last i 63 0) 111 i = true ∧ ((last i 64 0).groom 111).rx 2 = 64 ∧
      ((last i 63 0).groom 111).pl = 0 ∧ (((last i 63 0).groom 111).ctlGet 0x012).flag 63 = false) ∧
    (∀ i ∈ ofTethers, fetchesB (last i 8192 0) 111 i = true ∧ fetchesB (last i 8191 0) 111 i = true ∧ ((last i 8192 0).groom 111).rx 2 = 8192 ∧
      ¬ 8191 < (((last i 8191 0).groom 111).ctlGet 0x014).fld 0 13 + (((last i 8191 0).groom 111).ctlGet 0x015).fld 0 14) ∧
    (∀ i ∈ ofRace, fetchesB (last i 0 0) 111 i = true ∧ fetchesB (runs 15 (encodeValzel i) (with23 32 0)) 15 i = true ∧
      fetchesB (runs 15 (encodeValzel i) (with23 31 0)) 15 i = true ∧
      (((runs 15 (encodeValzel i) (with23 31 0)).groom 15).ctlGet 0x013).flag 31 = false) := by decide +kernel

/-! #### Commands -/

/-- The command of unit `u` with opcode `op` and values at the bytes given. -/
def cmdOf (u op : Nat) (fs : List (Nat × Nat)) : Nat := fs.foldl (fun c f => c + f.2 * 256 ^ f.1) (op + u * 256)

/-- That command of queue 0, started at 0 on an instance, with the structures that its admission read. -/
def job (u inst op : Nat) (fs : List (Nat × Nat)) (blocks : List (Nat × Nat)) : Op :=
  { queue := 0, chain := 0, cls := 0, slots := 16, cmd := cmdOf u op fs, blocks := blocks.map (fun b => ⟨b.1, 0, b.2⟩), worst := 0, waitMet := true,
    run := some (inst, 0), capped := false, resv := 0, pages := [], parent := none, fetched := 0, readyAt := some 0, mode := 0 }

/-- Whether the operation `o` runs on side `y`, alone, and meets `P`. -/
def meetsOp (u inst op : Nat) (o : Op) (P : Side → Op → Bool) (y : Side := base) : Bool :=
  let x : Side := { y with ops := [o] }
  decide ((x.live = true ∧ x.running u inst op = some o ∧ o.parent = none ∧ monitorOf u inst < 256 ∧ o.queue < 64 ∧ x.acts = Agent.hub) ∧ P x o = true)

theorem meetsOp_runs {u inst op : Nat} {o : Op} {P : Side → Op → Bool} {y : Side} (h : meetsOp u inst op o P y = true) :
    ({ y with ops := [o] } : Side).runs u inst op quiet o :=
  have k := (of_decide_eq_true h).1
  ⟨k.1, rfl, k.2.1, k.2.2.1, k.2.2.2.1, k.2.2.2.2.1, k.2.2.2.2.2⟩

/-- The same of a command given by its fields and blocks. -/
def meets (u inst op : Nat) (fs : List (Nat × Nat)) (blocks : List (Nat × Nat)) (P : Side → Op → Bool) (y : Side := base) : Bool :=
  meetsOp u inst op (job u inst op fs blocks) P y

/-- A side on which an extent may be neither read nor written but by a unit that is none of those below, as the Pillar's voxel table. -/
def hidden (lo hi : Nat) (y : Side := base) : Side := { y with guards := [⟨1, lo, hi, 0xFF, true, none⟩] }

/-- A side whose queue 63 holds the command `cmd`. -/
def queued (cmd : Nat) (bad : List Nat := []) : Side :=
  { holds [(Reg.CQ_CFG 63, 8), (Reg.CQ_TAIL 63, 1)] with mem := ⟨(upTo 64).map (fun k => (k, BitVec.ofNat 8 (cmd / 256 ^ k))), bad⟩ }

theorem witness_CommandFetch :
    (queued 0).live = true ∧ (queued 0).acts = Agent.hub ∧ (queued 0).mayFetch 63 = true ∧ quiet.errs = [] ∧ (queued 0 [0]).mayFetch 63 = true ∧
    (queued 0 [0]).poisoned 0 64 = true ∧ (queued 0).poisoned 0 64 = false ∧ (queued 0).readGuarded 0x12 0 64 = false ∧ (queued 0).num 0 64 = 0 ∧
    (queued 0).admission 0 = some (.plain stBadOpcode) ∧ (queued (cmdOf 0x0E 1 [])).num 0 64 = cmdOf 0x0E 1 [] ∧
    (queued (cmdOf 0x0E 1 [])).admission (cmdOf 0x0E 1 []) = none ∧ (hidden 0 64 (queued 0)).mayFetch 63 = true ∧
    (hidden 0 64 (queued 0)).poisoned 0 64 = false ∧ (hidden 0 64 (queued 0)).readGuarded 0x12 0 64 = true := by decide +kernel

/-- A side with one command that has not started. -/
def ready (o : Op) (y : Side := base) : Side := { y with ops := [{ o with run := none, readyAt := none }] }

theorem witness_CommandDispatch :
    (let o := job 0x0D 7 1 [(4, 7)] []
     let x := ready { o with cls := 7 }
     x.live = true ∧ (∀ p ∈ x.ops, p.unit = 0x0D → x.stranded p = false) ∧ x.mayStart 0x0D 7 = true ∧
     (∃ p, x.pick 0x0D (x.startable 0x0D 7) = some p ∧ p.cls = 7) ∧ x.capHolds 0x0D 7 = false) ∧
    (let o := job 0x0E 17 1 [(4, 17)] []
     let y : Side := { holds [(Reg.PW_STATE, 2), (Reg.PW_ENG, 0xFFFF_FFFF)] with power := { base.power with credits := List.replicate 24 (-1) } }
     let x := ready { o with cls := 1 } y
     x.live = true ∧ (∀ p ∈ x.ops, p.unit = 0x0E → x.stranded p = false) ∧ x.mayStart 0x0E 17 = true ∧
     (∃ p, x.pick 0x0E (x.startable 0x0E 17) = some p ∧ p.cls ≠ 0 ∧ p.capped = false) ∧ x.capHolds 0x0E 17 = true) := by decide +kernel

theorem witness_CommandLimits :
    (let o := job 0x0E 23 1 [] []
     let x : Side := { base with ops := [o], datum := { Datum.reset with ns := 240000 } }
     x.live = true ∧ x.acts = Agent.hub ∧ o.parent = none ∧ o.queue < 64 ∧ x.occupant 0x0E 23 = some o ∧ o.run = some (23, 0) ∧
     40000 ≤ 10000 * x.part.stacks ∧ 0 + 200000 + 40000 ≤ x.now ∧ (0x0E ≠ 0x12 ∨ o.resv ≠ 1) ∧ monitorOf 0x0E 23 < 256) ∧
    (let o : Op := { job 0x0E 23 1 [(24, 1)] [] with run := none }
     let x : Side := { base with ops := [o], datum := { Datum.reset with ns := 2 } }
     x.live = true ∧ x.acts = Agent.hub ∧ o.parent = none ∧ o.queue < 64 ∧
     x.ops.find? (fun p => p.queue == o.queue && p.run.isNone && past x.now (p.f 24 0 64)) = some o) := by
  decide +kernel

/-- A table of one entry, and a template that stages no byte. -/
def table1 : List (Nat × Nat) := [(64, cmdOf 0x0E 1 []), (128, 256 ^ 16)]

theorem witness_RaggedCommand :
    meets 0x12 64 1 [(32, 64), (40, 128), (56, 1)] [(64, cmdOf 0x0E 1 []), (128, 0)] (fun x o => !(x.unverified 0x12 64) && o.resv == 0 &&
      decide (o.pages = []) && (upTo (o.f 56 0 16)).all (fun e => o.entryLen e == 0) && o.f 48 0 64 == 0) = true ∧
    meets 0x12 64 1 [(32, 64), (40, 128), (56, 1)] table1 (fun x o => !(x.unverified 0x12 64) && o.f 56 0 16 == 1 && o.entryLen 0 != 0 &&
      decide (x.ops.length < 8192) &&
      decide ((((x.asRun o).setOp { o with pages := [0] }).put Reg.CQ_RAGGED 32 32 (min (2 ^ 32 - 1) (x.fld Reg.CQ_RAGGED 32 32 + 1))).admission
        (o.subCommand 0) = none)) = true := by decide +kernel

/-- A tensor of rank 1 in bytes, of `n` elements, at `a`. -/
def vecDesc (a n : Nat) : Nat := a + 1 * 256 ^ 9 + n * 256 ^ 16 + 1 * 256 ^ 48

/-- Whether no write of `ws` meets a protected extent. -/
def storable (x : Side) (owner : Nat) (ws : List (Nat × Byte × Bool)) : Bool := !(x.scatter owner ws).2

theorem witness_RelayCommands :
    let a := 0x23_FFFF_FFC0
    let two (x : Side) (o : Op) : Bool :=
      let src := descOf (o.block (o.f 32 0 64))
      let dst := descOf (o.block (o.f 40 0 64))
      src.count != 0 && !(x.readGuarded 0x0D src.place.1 src.place.2) &&
        storable x 0x0D (localWrites (dst.writesMask (fun ix => src.elemMask (x.asRun o).view ix)))
    meets 0x0D 7 1 [(32, 64), (40, 192)] [(64, vecDesc 0 0), (192, vecDesc 0 0)] (fun _ o => (descOf (o.block (o.f 32 0 64))).count == 0) = true ∧
    meets 0x0D 7 1 [(32, 64), (40, 192)] [(64, vecDesc a 16), (192, vecDesc 0x23_FFFF_FF80 16)] two = true ∧
    meets 0x0D 7 1 [(32, 64), (40, 192)] [(64, vecDesc a 16), (192, vecDesc 0x23_FFFF_FF80 16)] two (y := { base with mem := ⟨[], [a / 64]⟩ }) = true ∧
    meets 0x0D 7 1 [(32, 64), (40, 192)] [(64, vecDesc a 16), (192, vecDesc 0 16)] (fun x o =>
      let src := descOf (o.block (o.f 32 0 64))
      src.count != 0 && x.readGuarded 0x0D src.place.1 src.place.2) (y := hidden a 0x24_0000_0000) = true ∧
    meets 0x0D 7 2 [(32, 64)] [(64, vecDesc 0 0)] (fun _ o => (descOf (o.block (o.f 32 0 64))).count == 0) = true ∧
    meets 0x0D 7 2 [(32, 64), (40, 5)] [(64, vecDesc a 16)] (fun x o =>
      let fill := descOf (o.block (o.f 32 0 64))
      fill.count != 0 && storable x 0x0D (localWrites (fill.writes (fun _ => (o.f 40 0 64, false))))) = true ∧
    base.part.hasInst 0x0D 3 = true := by decide +kernel

/-- A tensor at `a` of the format `f`, with these sizes, its elements in a row. -/
def boxDesc (a f : Nat) (l : List Nat) : Nat :=
  a + f * 256 ^ 8 + l.length * 256 ^ 9 + ((upTo l.length).zip l).foldl (fun v e => v + e.2 * 256 ^ (16 + 4 * e.1)) 0 + 1 * 256 ^ 48

/-- A product of one INT8 by one INT8 into one INT32, and one of one FP8 by one FP8 into one FP32. -/
def gemm1 (f g : Nat) : List (Nat × Nat) :=
  [(64, 256 + 384 * 256 ^ 8 + 512 * 256 ^ 16), (256, boxDesc 0x23_FFFF_FF00 f [1, 1, 1]), (384, boxDesc 0x23_FFFF_FF40 f [1, 1, 1]),
   (512, boxDesc 0x23_FFFF_FF80 g [1, 1, 1])]

/-- A rule chunk with one rule of segment 0, one input feature by one weight into one output feature, the output row set to 0 first. -/
def conv1 : List (Nat × Nat) :=
  [(64, 128 + 256 * 256 ^ 8 + 384 * 256 ^ 16 + 512 * 256 ^ 24 + 4 * 256 ^ 32 + 256 ^ 34), (128, 256 ^ 4 + 256 ^ 8 + 256 ^ 20),
   (256, boxDesc 0x23_FFFF_FF00 4 [1, 1]), (384, boxDesc 0x23_FFFF_FF40 4 [1, 1, 1]), (512, boxDesc 0x23_FFFF_FF80 0 [1, 1])]

theorem witness_DraftCommands :
    meets 0x0E 23 1 [] [] (fun _ o => o.f 44 0 32 == 0) = true ∧
    meets 0x0E 23 1 [(32, 0x23_FFFF_FFC0), (44, 64)] [] (fun x o => o.f 44 0 32 != 0 && o.f 48 0 1 == 0 &&
      !(x.readGuarded 0x0E (local46 (o.f 32 0 64)) (o.f 44 0 32)) && decide (23 < x.mangers.length)) = true ∧
    meets 0x0E 23 1 [(32, 0x23_FFFF_FFC0), (44, 64), (48, 1)] [] (fun x o => o.f 44 0 32 != 0 && o.f 48 0 1 == 1 &&
      storable x 0x0E ((upTo (o.f 44 0 32)).map (fun i => (local46 (o.f 32 0 64) + i, alGet 0 (x.manger 23).cells i, (x.manger 23).poisoned i 1)))) = true ∧
    meets 0x0E 23 2 [(32, 64)] [(64, 128), (128, vecDesc 0 0)] (fun _ o => o.gemmEmpty) = true ∧
    [gemm1 9 0xB, gemm1 4 0].all (fun bs => meets 0x0E 23 2 [(32, 64)] bs (fun x o => !o.gemmEmpty && x.guards.isEmpty &&
      o.gemmReads.all (fun e => !(x.readGuarded 0x0E e.1 e.2)) && decide (23 < x.mangers.length))) = true ∧
    meets 0x0E 23 2 [(32, 64)] (gemm1 9 0xB) (fun x o => !o.gemmEmpty && o.gemmReads.any (fun e => x.readGuarded 0x0E e.1 e.2))
      (y := hidden 0x23_FFFF_FF00 0x24_0000_0000) = true ∧
    meets 0x0E 23 3 [(32, 64)] [(64, 0)] (fun _ o => o.spEmpty) = true ∧
    meets 0x0E 23 3 [(32, 64)] conv1 (fun x o => !o.spEmpty && x.guards.isEmpty && o.spReads.all (fun e => !(x.readGuarded 0x0E e.1 e.2)) &&
      !((x.asRun o).spRun [] o).met) (y := { base with mem := ⟨[], [(128 + 32) / 64]⟩ }) = true ∧
    meets 0x0E 23 3 [(32, 64)] conv1 (fun x o => !o.spEmpty && o.spReads.any (fun e => x.readGuarded 0x0E e.1 e.2))
      (y := hidden 0x23_FFFF_FF00 0x24_0000_0000) = true := by decide +kernel

/-- With no extent protected, whatever a product writes is stored. -/
theorem witness_DraftCommands_stored (x : Side) (h : x.guards.isEmpty = true) (o : Op) (ws : List (Nat × Byte × Bool)) :
    ({ x with ops := [o] }.scatter 0x0E ws).2 = false := Side.scatter_unguarded _ _ _ (List.isEmpty_iff.mp h)

/-- A side whose host ports are not protected, at time `t`, these lines poisoned. -/
def bare (t : Nat := 0) (bad : List Nat := []) : Side :=
  { holds [(Reg.ET_SEC 0, 0)] with datum := { Datum.reset with ns := t }, mem := ⟨[], bad⟩ }

theorem witness_RdmaCommands :
    let src := 0x23_FFFF_FFC0
    let goes (x : Side) (o : Op) : Bool := o.f 52 0 32 != 0 && decide (o.run = some (15, 0) ∧ x.now ≤ 0 + o.worst) && x.secSends (x.qp o.qp).port
    meets 0x17 15 1 [(32, src), (52, 2), (56, 15)] [] (fun x o => goes x o && o.f 52 0 32 == 2 && storable x 0x17 (goodAt (local46 (o.f 32 0 64)) [1, 2]) &&
      decide (o.qp < 16) && storable x 0x17 (goodAt src [1] ++ badAt (src + 1) (2 - 1))) (y := bare) = true ∧
    meets 0x17 15 1 [(32, src), (52, 2), (56, 15)] [] (fun x o => o.f 52 0 32 != 0 && decide (0 + o.worst ≤ x.now ∧ o.qp < 16) &&
      storable x 0x17 (badAt src 2)) (y := { bare 5 with regs := (Reg.QP_STATE 15, 1) :: (bare 5).regs }) = true ∧
    meets 0x17 15 2 [(32, src), (52, 2), (56, 15)] [] (fun x o => goes x o && !(x.readGuarded 0x17 src 2) && !((x.asRun o).poisoned src 2))
      (y := bare) = true ∧
    meets 0x17 15 2 [(32, src), (52, 2), (56, 15)] [] (fun x o => goes x o && !(x.readGuarded 0x17 src 2) && (x.asRun o).poisoned src 2)
      (y := bare 0 [src / 64]) = true ∧
    meets 0x17 15 1 [(56, 15)] [] (fun _ o => o.f 52 0 32 == 0) = true ∧ meets 0x17 15 2 [(56, 15)] [] (fun _ o => o.f 52 0 32 == 0) = true := by
  decide +kernel

/-- A sequence of one layer and one head, its pages of one token of 64 elements of FP8 (shorter than R458 has them, for the evaluation's sake). -/
def seq5 : Nat := 5 * 256 ^ 8 + 256 ^ 14 + 256 ^ 16 + 0x44 * 256 ^ 18

/-- Its parameter structures for an append of one token: keys and values in BF16. -/
def append1 : List (Nat × Nat) := [(64, seq5), (128, boxDesc 0x1000 2 [64, 1, 1]), (256, boxDesc 0x2000 2 [64, 1, 1])]

/-- A side on which Outrider 1 knows the level-2 entry `e` of page 0 of that sequence, and has a free page in each ring of class 0. -/
def paged (e : Nat) (y : Side := outriderOn) : Side :=
  { y with outriders := setAt y.outriders 1 ⟨[⟨[0x5000], [0x2000_0000_0000], 1, 1⟩], [], [⟨5, 0, e⟩]⟩ }

theorem witness_OutriderCommands :
    let kd (o : Op) : Desc := descOf (o.block (o.f 40 0 64))
    let vd (o : Op) : Desc := descOf (o.block (o.f 48 0 64))
    let reads (x : Side) (o : Op) : Bool := (kd o).sz 2 != 0 && !(x.readGuarded 0x0C (kd o).place.1 (kd o).place.2) && !(x.readGuarded 0x0C (vd o).place.1 (vd o).place.2)
    let fs := [(32, 64), (40, 128), (48, 256)]
    meets 0x0C 1 1 [(40, 64)] [(64, 3 * 256 ^ 9)] (fun _ o => (kd o).sz 2 == 0) = true ∧
    meets 0x0C 1 1 fs append1 (fun x o => reads x o && match (x.asRun o).appendPlan o with
      | (.ok (plans, ring), w) => !(plans.isEmpty) && !((w.appendRun o plans ring).met)
      | _ => false) (y := paged 0) = true ∧
    meets 0x0C 1 1 fs append1 (fun x o => reads x o && match ((x.asRun o).appendPlan o).1 with
      | .error (.noPage st _) => st != stDone
      | _ => false) (y := outriderOn) = true ∧
    meets 0x0C 1 1 fs append1 (fun x o => reads x o && match ((x.asRun o).appendPlan o).1 with
      | .error .outOfOrder => true
      | _ => false) (y := paged (entryOf 0x6000 1 1 0 0)) = true ∧
    meets 0x0C 1 2 [] [] (fun _ o => o.f 41 0 8 == 0) = true ∧
    meets 0x0C 1 2 [(32, 64), (41, 1)] [(64, seq5)] (fun x o => let r := (x.asRun o).moveRun o none []
      o.f 41 0 8 != 0 && decide (o.f 40 0 2 < 2) && !r.met && r.moved == 1) (y := paged (entryOf 0x6000 1 1 0 0)) = true ∧
    meets 0x0C 1 2 [(32, 64), (40, 1), (41, 1)] [(64, seq5)] (fun x o => let r := (x.asRun o).moveRun o none []
      o.f 41 0 8 != 0 && decide (o.f 40 0 2 < 2) && !r.met && r.moved == 1) (y := paged (entryOf 0x2000_0000_6000 1 2 0 0)) = true ∧
    meets 0x0C 1 3 [] [] (fun _ o => o.f 40 0 16 == 0) = true ∧
    meets 0x0C 1 3 [(32, 64), (40, 1)] [(64, seq5)] (fun x o => let r := (x.asRun o).releaseRun o
      o.f 40 0 16 != 0 && !r.2.1 && r.2.2.1 == 1) (y := paged (entryOf 0x6000 1 1 0 0)) = true ∧
    meets 0x0C 1 4 [] [] (fun x _ => decide (1 < x.outriders.length)) = true := by decide +kernel

/-- An ST_DECODE of one query head over page 0 of that sequence, and an ST_RETRIEVE of it. -/
def decode1 : List (Nat × Nat) := [(64, seq5), (128, 0x1000 + 0x2000 * 256 ^ 8 + 256 ^ 28 + 16 * 256 ^ 36 + 256 ^ 44)]
@[inherit_doc decode1] def retrieve1 : List (Nat × Nat) := [(64, seq5), (128, 0x1000 + 0x2000 * 256 ^ 8 + 256 ^ 20 + 256 ^ 32 + 256 ^ 34)]

theorem witness_StallCommands :
    let fs := [(32, 64), (40, 128)]
    let some' (o : Op) : Bool := (decodeParam (o.block (o.f 40 0 64))).nq != 0 && decide (o.decodePages ≠ [])
    let with' (pages : List Nat) : Op := { job 0x0F 3 1 fs decode1 with pages := pages }
    meets 0x0F 3 1 [(40, 64)] [(64, 0)] (fun _ o => (decodeParam (o.block (o.f 40 0 64))).nq == 0) = true ∧
    meetsOp 0x0F 3 1 (with' [stPageFault * 2 ^ 128]) (fun _ o => some' o && decide (o.pageFailed = some (stPageFault, 0)) && decide (stPageFault ≠ stDone)) = true ∧
    meetsOp 0x0F 3 1 (with' [entryOf 0x23_FFFF_F000 1 1 0 0]) (fun x o => some' o && o.pageFailed.isNone && x.guards.isEmpty &&
      !(((x.asRun o).decodeHome o).isEmpty) && ((x.asRun o).decodeReads o).all (fun e => !(x.readGuarded 0x0F e.1 e.2))) = true ∧
    meetsOp 0x0F 3 1 (with' [entryOf 0x23_FFFF_F000 1 1 0 0]) (fun x o => some' o && o.pageFailed.isNone &&
      ((x.asRun o).decodeReads o).any (fun e => x.readGuarded 0x0F e.1 e.2)) (y := hidden 0x1000 0x2000) = true ∧
    meets 0x0F 3 2 [(40, 64)] [(64, 0)] (fun _ o => (retrieveParam (o.block (o.f 40 0 64))).nq == 0) = true ∧
    (let some' (o : Op) : Bool := (retrieveParam (o.block (o.f 40 0 64))).nq != 0 && (retrieveParam (o.block (o.f 40 0 64))).n != 0
     let at' (x : Side) (o : Op) : Bool × Bool :=
       (x.readGuarded 0x0F o.retrieveExtent.1 o.retrieveExtent.2, (x.asRun o).poisoned o.retrieveExtent.1 o.retrieveExtent.2)
     meets 0x0F 3 2 fs retrieve1 (fun x o => some' o && (at' x o).1) (y := hidden 0x1000 0x2000) = true ∧
     meets 0x0F 3 2 fs retrieve1 (fun x o => some' o && !((at' x o).1) && (at' x o).2) (y := { base with mem := ⟨[], [0x1000 / 64]⟩ }) = true ∧
     meets 0x0F 3 2 fs retrieve1 (fun x o => some' o && !((at' x o).1) && !((at' x o).2) && x.guards.isEmpty && !(((x.asRun o).retrieveRun o).1.met) &&
       ((x.asRun o).retrieveRun o).1.scored == 1) (y := { paged (entryOf 0x6000 1 1 0 1) with
         outriders := setAt (paged 0).outriders 0 ⟨[], [], [⟨5, 0, entryOf 0x6000 1 1 0 1⟩]⟩, regs := (Reg.OR_CTRL 0, 1) :: base.regs }) = true) := by decide +kernel

/-- An open frame of time 5. -/
def opened : PlFrame :=
  ⟨5, 0x1000, 0x2000, 1, 0, 0, 0, 0, 0, 0, 0, none, [], [], ⟨0, 0, 0, 0, 0, 0, 0, 0, 0, 0, 0, 0, 0, 0⟩, [], 0, 0, 0, none, false, []⟩

/-- A side with that frame open. -/
def framed : Side := { base with pl := some opened }

/-- A side with Gait enabled, its steps of 0 and 10 taken, and the time 20. -/
def gaiting : Side :=
  { holds [(Reg.GT_CTRL, 1), (Reg.GT_PER, 0xA_0000_0000)] with datum := { Datum.reset with ns := 20 }, gt := { base.gt with nextK := 2, per := 10 } }

/-- A side whose slot 31 takes Ethernet frames and lands them, with that frame open. -/
def ingesting (l : List (Nat × Word) := [(Reg.IN_SCFG 31, 0x1002_0001)]) : Side := { holds l with pl := some opened }

theorem witness_PillarFrames :
    let opens (x : Side) (o : Op) : Bool := sfld (o.block (o.f 40 0 64)) 16 0 32 != 0 && decide (x.pl = none) &&
      (x.poseKeys (o.f 32 0 64)).all (fun k => !(x.readGuarded 0x08 (x.poseAddr k) 128) && !((x.asRun o).poisoned (x.poseAddr k) 128))
    let packets : List (Nat × Nat) := [(32, 5), (40, 0x1000), (56, 1), (58, 31)]
    let takes (x : Side) (o : Op) : Bool := o.f 56 0 16 != 0 && decide (x.pl = some opened) && opened.t == o.f 32 0 64
    meets 0x08 0 1 [(40, 64)] [(64, 256 ^ 16)] (fun x o => opens x o && (x.poseAt (o.f 32 0 64)).isNone) = true ∧
    meets 0x08 0 1 [(40, 64)] [(64, 256 ^ 16)] (fun x o => opens x o && (x.poseAt (o.f 32 0 64)).isSome) (y := gaiting) = true ∧
    meets 0x08 0 1 [(40, 64)] [(64, 256 ^ 16)] (fun x o => sfld (o.block (o.f 40 0 64)) 16 0 32 != 0 && decide (x.pl = some opened)) (y := framed) = true ∧
    meets 0x08 0 3 [(32, 5), (40, 0x1000)] [] (fun x o => decide (x.pl = some opened) && opened.t == o.f 32 0 64 &&
      storable x 0x08 (goodAt (local46 (o.f 40 0 64)) (opened.header x.id))) (y := framed) = true ∧
    meets 0x08 0 3 [(32, 6)] [] (fun x o => decide (x.pl = some opened) && opened.t != o.f 32 0 64) (y := framed) = true ∧
    meets 0x08 0 2 [(32, 5)] [] (fun _ o => o.f 56 0 16 == 0) = true ∧
    meets 0x08 0 2 [(32, 6), (56, 1)] [] (fun x o => o.f 56 0 16 != 0 && decide (x.pl = some opened) && opened.t != o.f 32 0 64) (y := framed) = true ∧
    meets 0x08 0 2 packets [] (fun x o => takes x o && x.ingestBars o != 0) (y := framed) = true ∧
    meets 0x08 0 2 packets [] (fun x o => takes x o && x.ingestBars o == 0 && !(x.readGuarded 0x08 0x1000 24) && !((x.asRun o).poisoned 0x1000 24) &&
      x.guards.isEmpty) (y := ingesting) = true := by decide +kernel

theorem witness_PillarPasses :
    let pass (op : Nat) (fs bs : List (Nat × Nat)) (reads : Side → Op → List (Nat × Nat)) : Bool :=
      meets 0x08 0 op [] [] (fun _ o => o.f 44 0 32 == 0 && o.f 40 0 32 == 0) &&
      meets 0x08 0 op fs bs (fun x o => (if op = 5 then o.f 40 0 32 else o.f 44 0 32) != 0 && x.guards.isEmpty &&
        !((reads x o).isEmpty) && (reads x o).all (fun e => !(x.readGuarded 0x08 e.1 e.2) && !((x.asRun o).poisoned e.1 e.2))) &&
      meets 0x08 0 op fs bs (fun x o => (reads x o).any (fun e => x.readGuarded 0x08 e.1 e.2)) (y := hidden 0x1000 0x1100) &&
      meets 0x08 0 op fs bs (fun x o => x.guards.isEmpty && (reads x o).all (fun e => !(x.readGuarded 0x08 e.1 e.2)) &&
        (reads x o).any (fun e => (x.asRun o).poisoned e.1 e.2)) (y := { base with mem := ⟨[], [0x1000 / 64]⟩ })
    pass 4 [(32, 64), (44, 1)] [(64, 0x1000 + 0x2000 * 256 ^ 16)] (fun _ _ => [(0x1010, 8)]) = true ∧
    pass 5 [(32, 64), (40, 1)] [(64, 0x2000 + 256 ^ 12 + 0x1000 * 256 ^ 16 + 256 ^ 24)] (fun x o => ((x.asRun o).mergePass o).reads) = true ∧
    pass 6 [(32, 64), (44, 1)] [(64, 0x1000 + 256 ^ 8 + 256 ^ 12 + 256 ^ 14 + 0x2000 * 256 ^ 32 + 0x3000 * 256 ^ 40)] (fun x o => ((x.asRun o).pillarPass o).reads) = true ∧
    pass 7 [(32, 64), (44, 1), (48, 0x3000)] [(64, 0x1000 + 256 ^ 8 + 256 ^ 13 + 0x2000 * 256 ^ 16)] (fun x o => ((x.asRun o).rulesPass o).reads) = true := by
  decide +kernel

/-- A side whose Plat works, its frames of 10 ns. -/
def sealing (seals : List PtSeal := []) : Side :=
  { holds ([(Reg.PT_CTRL, 1), (Reg.TR_FRAME, 0xA_0000_0000), (Reg.BN_STATE, 15)] ++ platRegs) with pt := { base.pt with seals := seals } }

theorem witness_PlatCommands :
    let clean (x : Side) (o : Op) (reads : List (Nat × Nat)) : Bool := reads.all (fun e => !(x.readGuarded 0x09 e.1 e.2) && !((x.asRun o).poisoned e.1 e.2))
    let due (x : Side) (o : Op) : Bool := x.isFrameTime (o.f 32 0 64) && decide (o.f 32 0 64 ≤ 0 ∧ 0 ≤ o.f 32 0 64 + x.ptCutoff ∧ o.run = some (0, 0))
    let image : List (Nat × Nat) := [(64, 0x1000 + 0x2000 * 256 ^ 8)]
    meets 0x09 0 1 [] [] (fun _ o => o.f 44 0 32 == 0) = true ∧
    meets 0x09 0 1 [(32, 64), (44, 1)] image (fun x o => o.f 44 0 32 != 0 && clean x o ((x.asRun o).paintPass o).reads && x.guards.isEmpty) = true ∧
    meets 0x09 0 1 [(32, 64), (44, 1)] image (fun x o => o.f 44 0 32 != 0 && ((x.asRun o).paintPass o).reads.any (fun e => x.readGuarded 0x09 e.1 e.2))
      (y := hidden 0x1000 0x1100) = true ∧
    meets 0x09 0 2 [(32, 1), (38, 1)] [] (fun x o => o.f 38 0 16 != 0 && !(x.ptBufSealed (o.f 32 0 1)) &&
      storable x 0x09 (goodAt (x.ptHalfBuf (o.f 32 0 1) + 512) (List.replicate x.ptW x.blankCell).flatten)) (y := holds platRegs) = true ∧
    meets 0x09 0 2 [(32, 1), (38, 1)] [] (fun x o => o.f 38 0 16 != 0 && x.ptBufSealed (o.f 32 0 1))
      (y := { base with guards := [⟨0x0901, 0, 64, 0x09, false, none⟩] }) = true ∧
    meets 0x09 0 3 [(32, 5)] [] (fun x o => decide (o.run = some (0, 0)) && !(due x o) && x.pt.seals.isEmpty) (y := sealing) = true ∧
    meets 0x09 0 3 [] [] (fun x o => due x o && x.pt.seals.any (fun e => e.t == o.f 32 0 64)) (y := sealing [⟨0, 0, 0⟩]) = true ∧
    meets 0x09 0 3 [(40, 64)] [(64, 0x1000 + 0x2000 * 256 ^ 8)] (fun x o => due x o && x.pt.seals.isEmpty && clean x o ((x.asRun o).sealPass o).reads &&
      x.guards.isEmpty && decide (x.pt.merged = none) && x.flag Reg.BN_STATE 3 && decide (x.fld Reg.SW_STATE 0 2 ≠ 3)) (y := sealing) = true := by
  decide +kernel

/-- A working Plat of one cell, frames of 10 ns and no cutoff. -/
def platOn : Side := holds ([(Reg.PT_CTRL, 1), (Reg.PT_TIME, 0), (Reg.TR_FRAME, 0xA_0000_0000)] ++ platRegs)

/-- A half grid and a track list of frame 0 from the other side. -/
def halfGrid : XMsg := ⟨3, 0, toBytes 64 0 ++ platOn.ptGeometry ++ toBytes 384 0, []⟩
@[inherit_doc halfGrid] def trackList : XMsg := ⟨4, 0, toBytes 128 0, []⟩

theorem witness_PlatExchange :
    platOn.live = true ∧ platOn.acts = Agent.hub ∧ State.reset.off.acts = Agent.hub ∧ firstOf 3 [trackList, halfGrid] = some (halfGrid, [trackList]) ∧ platOn.ptOn = true ∧
    halfGrid.time = platOn.ptCollect platOn.now ∧ halfGrid.time ≠ (sealing).ptCollect 15000000 ∧ (halfGrid.bytes.drop 64).take 64 = platOn.ptGeometry ∧ 512 ≤ halfGrid.bytes.length ∧
    base.live = true ∧ base.acts = Agent.hub ∧ base.ptOn = false ∧ firstOf 4 [trackList, ⟨4, 5, [], []⟩] = some (trackList, [⟨4, 5, [], []⟩]) ∧ trackList.time = platOn.ptCollect platOn.now ∧
    platOn.pt.next + platOn.ptCutoff ≤ platOn.now ∧ platOn.pt.record = none ∧ platOn.pt.seals = [] ∧ platOn.pt.halves = [] ∧ platOn.pt.pins = [] ∧
    (let x : Side := { platOn with pt := { platOn.pt with seals := [⟨0, 0, 0⟩] } }
     x.ptOn = true ∧ x.pt.next + x.ptCutoff ≤ x.now ∧ x.pt.record = none ∧
     x.pt.seals.any (fun h => h.t == x.pt.next && decide (h.sealedAt ≤ x.pt.next + x.ptCutoff)) = true) ∧
    (let x : Side := { platOn with pt := { platOn.pt with record := some ⟨1, [], 0, 0⟩ } }
     x.pt.record = some ⟨1, [], 0, 0⟩ ∧ 0 ≤ x.now ∧ x.tvOn = false) := by decide +kernel

/-- A running query with nothing open, on epoch 1. -/
def query : TvQuery := ⟨3, true, 0, 0, 1, 0, 0, 0, 0, [], [], 0, 0, 0, 0, 0, 0⟩

/-- A side with that query, Traverse grown. -/
def asking : Side := { holds [(Reg.TV_CTRL, 5)] with tv := { base.tv with query := some query } }

/-- That query, ended. -/
def asked (validity : Nat := 0) (bad : List Nat := []) : Side :=
  { asking with tv := { asking.tv with query := some { query with running := false, validity := validity } }, mem := ⟨[], bad⟩ }

theorem witness_PathQueries :
    let opens (x : Side) (o : Op) : Bool := o.pages.headD 0 != 0 && x.ptOn && decide ((x.rd Reg.PT_EPOCH).toNat < 1 + 2) && x.pt.pins.isEmpty && x.guards.isEmpty
    let searches (x : Side) : Bool := decide (x.tvRunning = some query) && x.flag Reg.TV_CTRL 2 && x.guards.isEmpty
    let stale (o : Op) (q : TvQuery) : Bool :=
      let age := sfld (o.block (o.f 32 0 64)) 44 0 32
      age != 0 && o.run.any (fun r => decide (q.validity + age < r.2))
    let paces (x : Side) (o : Op) (q : TvQuery) : Bool := decide (x.tv.query = some q) && !q.running && !(stale o q) && x.guards.isEmpty
    let aged : Op := { job 0x0A 0 5 [(32, 64)] [(64, 256 ^ 44)] with run := some (0, 2) }
    meets 0x0A 0 1 [(32, 64)] [(64, 0)] (fun x o => decide (x.tvRunning = some query) && !(bitAt (o.block (o.f 32 0 64)) 902)) (y := asking) = true ∧
    meets 0x0A 0 1 [] [] (fun x o => decide (x.tvRunning = none) && o.pages.headD 0 == 0) = true ∧
    meetsOp 0x0A 0 1 { job 0x0A 0 1 [] [] with pages := [1] } (fun x o => decide (x.tvRunning = none) && opens x o) (y := platOn) = true ∧
    meetsOp 0x0A 0 1 { job 0x0A 0 1 [(32, 64)] [(64, 2 ^ 902)] with pages := [1] } (fun x o => decide (x.tvRunning = some query) &&
      bitAt (o.block (o.f 32 0 64)) 902 && opens x o) (y := { platOn with tv := asking.tv }) = true ∧
    meets 0x0A 0 2 [] [] (fun _ o => o.f 34 0 16 == 0) = true ∧
    meets 0x0A 0 2 [(34, 1)] [] (fun x o => o.f 34 0 16 != 0 && decide (x.tvRunning = none)) = true ∧
    meets 0x0A 0 2 [(34, 1)] [] (fun x o => o.f 34 0 16 != 0 && decide (x.tvRunning = some query) && storable x 0x0A ((x.asRun o).mapRow query 0))
      (y := asking) = true ∧
    meets 0x0A 0 3 [(32, 64)] [(64, 256 ^ 40)] (fun x o => sfld (o.block (o.f 32 0 64)) 40 0 16 != 0 && decide (x.tvRunning = some query) &&
      !(x.flag Reg.TV_CTRL 2)) (y := { asking with regs := base.regs }) = true ∧
    meets 0x0A 0 3 [(32, 64)] [(64, 256 ^ 40)] (fun x o => sfld (o.block (o.f 32 0 64)) 40 0 16 != 0 && searches x && x.tvUN != 0 &&
      !(((x.asRun o).growRun o query).1.met)) (y := { asking with regs := (Reg.TV_DUSE, 1) :: asking.regs, mem := ⟨[], [asking.tvDyn / 64]⟩ }) = true ∧
    meets 0x0A 0 4 [] [] (fun x o => let r := (x.asRun o).searchRun o query [] false
      searches x && !r.1.met && r.2.1.isNone) (y := asking) = true ∧
    meets 0x0A 0 4 [(32, 30000)] [] (fun x o => let r := (x.asRun o).searchRun o query [] false
      searches x && !r.1.met && (match r.2.1 with
        | some (k, node, t) => k == 2 && !(((r.1.s.showQuery r.1.q).endQuery r.1.q k t node).2)
        | none => false) && query.paddock.isEmpty && o.resv == 0 && o.pages.isEmpty && decide (30000 ≤ o.f 32 0 32) && sfld query.block 8 0 64 == 0)
      (y := asking) = true ∧
    meets 0x0A 0 5 [] [] (fun x _ => decide (x.tv.query = some query) && query.running) (y := asking) = true ∧
    meetsOp 0x0A 0 5 aged (fun x o => decide (x.tv.query = some { query with running := false }) && stale o query)
      (y := { asked with datum := { Datum.reset with ns := 2 } }) = true ∧
    meetsOp 0x0A 0 5 aged (fun x o => paces x o { query with running := false, validity := 1 } && sfld (o.block (o.f 32 0 64)) 44 0 32 == 1)
      (y := { asked 1 with datum := { Datum.reset with ns := 2 } }) = true ∧
    meets 0x0A 0 5 [] [] (fun x o => paces x o { query with running := false } &&
      ((x.asRun o).paceReads query).any (fun e => (x.asRun o).poisoned e.1 e.2)) (y := asked 0 [query.recordAt / 64]) = true ∧
    meets 0x0A 0 5 [] [] (fun x o => paces x o { query with running := false } &&
      ((x.asRun o).paceReads query).all (fun e => !((x.asRun o).poisoned e.1 e.2))) (y := asked) = true ∧
    (let x : Side := { base with tv := { base.tv with stops := [(1, 2)] } }
     x.live = true ∧ x.acts = Agent.hub ∧ x.mayUpdate = true ∧ x.tv.stops = (1, 2) :: []) := by decide +kernel

/-- The image of a structure of one variable and no constraint; its sections stand from byte 272, 16 bytes for each; it begins with
the signature of R590. -/
def imageHead : List Byte :=
  toBytes 4 0 ++ toBytes 2 1 ++ toBytes 2 0 ++ toBytes 4 0 ++ toBytes 4 0 ++ toBytes 4 1 ++ toBytes 4 0 ++ toBytes 12 5 ++ toBytes 1 0 ++ toBytes 1 9
@[inherit_doc imageHead] def imageSections : List (List Byte) :=
  [toBytes 2 0, toBytes 1 1, toBytes 8 0, toBytes 8 0, toBytes 4 0 ++ toBytes 4 1 ++ toBytes 2 0 ++ toBytes 4 0, toBytes 8 0, toBytes 12 0, toBytes 8 0, []]
@[inherit_doc imageHead] def imageBytes : List Byte :=
  let padded (n : Nat) (l : List Byte) : List Byte := l ++ List.replicate (n - l.length) 0
  toBytes 8 10434085903456579918 ++ padded 120 imageHead ++
    padded 144 (((upTo 9).map (fun i => toBytes 4 (i + 1) ++ toBytes 4 (272 + 16 * i) ++ toBytes 4 (imageSections.getD i []).length ++ toBytes 4 0)).flatten) ++
    (imageSections.map (padded 16)).flatten

/-- A side whose verified image 7 is that image, the last bytes of its near memory. -/
def imaged (bad : List Nat := []) : Side :=
  { holds [(Reg.BR_IMG 7, 0x23_FFFF_F001)] with
    mem := ⟨(upTo imageBytes.length).zip imageBytes |>.map (fun e => (0x23_FFFF_F000 + e.1, e.2)), bad⟩
    guards := [⟨0, 0x23_FFFF_F000, 0x24_0000_0000, 0x14, false, none⟩] }

/-- Side `y` with `st` bound to slot 3, and a solve `r` running. -/
def solving (st : Option BrSlot) (r : Option BrRun := none) (y : Side := base) : Side := { y with br := ⟨[none, none, none, st], r⟩ }

/-- A bound structure of one variable, of signature 7. -/
def bound (work : Nat := 0) (bad : Bool := false) : BrSlot :=
  ⟨7, 0, 1, 0, work, 0, 0, [], [0], [false], [], [], [[(0, 0)]], [[]], [0], [], [], [], [], [0], [], [], 0, none, bad⟩

/-- A solve on slot 3 at its first iterate, of this dual residual, due at 1. -/
def solve (dual : Nat := 0) : BrRun := ⟨3, bound, 1, 0, false, 0, 0, ⟨0, [0], [], [], 0, dual, 0⟩, ⟨0, [0], [], [], 0, dual, 0⟩, 0, 0, 0, 0, false, (0, 0)⟩

theorem witness_SolverRuns :
    let a := 0x23_FFFF_F000
    let verified (x : Side) (o : Op) : Bool := x.flag (Reg.BR_IMG (o.f 32 0 3)) 0 && x.brImageLen 7 == 4096 && !(x.readGuarded 0x0B a 4096)
    let free (x : Side) (o : Op) : Bool := x.br.run.isNone && sfld (brParam o) 32 0 64 == 0
    let fs : List (Nat × Nat) := [(32, 64), (40, 3)]
    let first (x : Side) (o : Op) (b : BrSlot) (P : BrRun → Bool) : Bool :=
      free x o && x.guards.isEmpty && decide (x.brSlot (o.f 40 0 2) = some b) && !b.poisoned && sfld (brParam o) 0 0 64 == 7 && b.sig == 7 &&
        sfld (brParam o) 110 0 2 != 2 && ((x.asRun o).brSetup o 0).br.run.any P
    meets 0x0B 0 1 [(32, 7)] [] (fun x o => !(x.flag (Reg.BR_IMG (o.f 32 0 3)) 0)) = true ∧
    meets 0x0B 0 1 [(32, 7)] [] (fun x o => verified x o && (x.asRun o).poisoned a 4096) (y := imaged [0x23_FFFF_F000 / 64]) = true ∧
    meets 0x0B 0 1 [(32, 7)] [] (fun x o => verified x o && !((x.asRun o).poisoned a 4096) && ((x.asRun o).readImage a 4096).isNone)
      (y := { imaged with mem := ⟨[], []⟩ }) = true ∧
    meets 0x0B 0 1 [(32, 7)] [] (fun x o => verified x o && !((x.asRun o).poisoned a 4096) && decide (o.f 33 0 2 ≠ 3) &&
      ((x.asRun o).readImage a 4096).any (fun st => decide (16777216 < st.work + (x.brSlot 3).elim 0 (fun b => b.work))))
      (y := solving (some (bound 16777217)) none imaged) = true ∧
    meets 0x0B 0 1 [(32, 7), (33, 3)] [] (fun x o => verified x o && !((x.asRun o).poisoned a 4096) && x.br.slots.length == 4 &&
      ((x.asRun o).readImage a 4096).any (fun st => decide (st.work ≤ 16777216)) && (upTo 3).all (fun k => (x.brSlot k).isNone)) (y := imaged) = true ∧
    (let old (x : Side) (o : Op) : Bool := x.br.run.isNone && local46 (sfld (brParam o) 32 0 64) == 0x1000 && !(x.readGuarded 0x0B 0x1000 128)
     meets 0x0B 0 2 [(32, 64)] [(64, 0x1000 * 256 ^ 32)] (fun x o => old x o && x.num (0x1000 + 64) 8 == 0) = true ∧
     meets 0x0B 0 2 [(32, 64)] [(64, 0x1000 * 256 ^ 32)] (fun x o => old x o && (x.asRun o).poisoned 0x1000 128)
       (y := { base with mem := ⟨[], [0x1000 / 64]⟩ }) = true) ∧
    meets 0x0B 0 2 [(40, 3)] [] (fun x o => free x o && (x.brSlot (o.f 40 0 2)).isNone) = true ∧
    meets 0x0B 0 2 [(40, 3)] [] (fun x o => free x o && decide (x.brSlot (o.f 40 0 2) = some (bound 0 true))) (y := solving (some (bound 0 true))) = true ∧
    meets 0x0B 0 2 fs [(64, 8)] (fun x o => free x o && decide (x.brSlot (o.f 40 0 2) = some bound) && sfld (brParam o) 0 0 64 == 8)
      (y := solving (some bound)) = true ∧
    meets 0x0B 0 2 fs [(64, 7)] (fun x o => first x o bound (fun r => (brPieces (brParam o) [] r).2.isSome)) (y := solving (some bound)) = true ∧
    meets 0x0B 0 2 fs [(64, 7 + 1 * 256 ^ 96)] (fun x o => first x o { bound with q := [2 ^ 40] } (fun r => (brPieces (brParam o) [] r).2.isNone))
      (y := solving (some { bound with q := [2 ^ 40] })) = true ∧
    meets 0x0B 0 2 fs [(64, 0)] (fun x o => decide (x.br.run = some solve) && x.guards.isEmpty && decide (solve.slot < 4) &&
      decide ((brPieces (brParam o) [] solve).2 = some .converged) && (x.brSlot solve.slot).isSome) (y := solving (some bound) (some solve)) = true ∧
    meets 0x0B 0 2 fs [(64, 0)] (fun x o => decide (x.br.run = some (solve 0x3FF0_0000_0000_0000)) &&
      decide ((brPieces (brParam o) [] (solve 0x3FF0_0000_0000_0000)).2 = none)) (y := solving (some bound) (some (solve 0x3FF0_0000_0000_0000))) = true ∧
    (let o := job 0x0B 0 2 [] []
     let x : Side := { solving (some bound) (some solve) with ops := [o], datum := { Datum.reset with ns := 2 } }
     x.live = true ∧ x.acts = Agent.hub ∧ x.br.run = some solve ∧ o.parent = none ∧ o.queue < 64 ∧ monitorOf 0x0B o.inst < 256 ∧ solve.due < x.now ∧ x.guards = [] ∧
     x.ops.find? (fun o => o.unit == 0x0B && o.opcode == 2 && o.run.isSome) = some o) ∧
    (solving (some bound)).live = true ∧ (solving (some bound)).acts = Agent.hub ∧ (solving (some bound)).brSlot 3 = some bound := by decide +kernel

/-- A sample of chain 5, kept by stream 31. -/
def kept5 : TrSample := ⟨1, 1, 1, 5, 0, 0, false, false, []⟩

/-- A side on which stream 31 is a frame stream of one channel that knows that sample. -/
def streaming : Side :=
  { holds [(Reg.TR_SCFG 31, 0x101), (Reg.TR_CTRL, 1)] with
    tr := { base.tr with streams := setAt base.tr.streams 31 { TrStream.reset with recent := [kept5] } } }

theorem witness_TransitAndGait :
    meets 0x06 0 1 [] [] (fun _ o => o.f 33 0 8 == 0) = true ∧
    meets 0x06 0 1 [(32, 31), (33, 1)] [] (fun x o => o.f 33 0 8 != 0 && ((x.stream 31).recent.find? (fun x => x.chain == o.f 36 0 32)).isNone) = true ∧
    meets 0x06 0 1 [(32, 31), (33, 1), (36, 5)] [] (fun x o => decide ((x.stream 31).recent.find? (fun x => x.chain == o.f 36 0 32) = some kept5) &&
      x.streamOn 31 && !(x.streamFrame 31) && decide (o.f 33 0 8 = x.fld (Reg.TR_SCFG 31) 8 5) && (of32 0).isFin &&
      (x.stream 31).posted.isEmpty && x.tr.streams.length == 32) (y := streaming) = true ∧
    (let at' (ns : Nat) : Side := { holds [(Reg.TR_CTRL, 1)] with datum := { Datum.reset with ns := ns } }
     let close := (holds []).settleNs
     (at' close).live = true ∧ (at' close).acts = Agent.hub ∧ (at' close).flag Reg.TR_CTRL 0 = true ∧ (at' close).tr.next = 0 ∧
     (at' (close + 1)).settleNs = close ∧ close + 1 ≤ close + (at' (close + 1)).framePeriod ∧ (at' (close + 1)).trCut.tr.due.length = 1) ∧
    (let r : TrRevision := ⟨⟨0, 0, 1, [], []⟩, 1, 31⟩
     let x : Side := { base with tr := { base.tr with revs := [r] } }
     x.live = true ∧ x.acts = Agent.hub ∧ x.tr.revs = r :: [] ∧ x.tr.due = [] ∧ r.slot < 32) ∧
    (let x : Side := { gaiting with datum := { Datum.reset with ns := 30 } }
     x.live = true ∧ x.acts = Agent.hub ∧ x.flag Reg.GT_CTRL 0 = true ∧ x.gt.cuts = [] ∧ x.gt.per ≠ 0 ∧
     x.gaitTime x.gt.nextK + x.fld Reg.GT_PER 0 32 < x.now ∧ x.now ≤ x.gaitTime x.gt.nextK + x.fld Reg.GT_PER 0 32 + x.gt.per ∧
     x.trCut.gt.cuts.length = 1 ∧ x.gt.p.length = 3 ∧ x.gt.v.length = 3 ∧ x.gt.q.length = 4 ∧ x.gt.w.length = 3) ∧
    (let reads (x : Side) (o : Op) : Bool := (x.poseReads (o.f 32 0 64) (o.f 40 0 64)).all (fun r => !(x.readGuarded 0x07 r.1 r.2))
     let clean (x : Side) (o : Op) : Bool := (x.poseReads (o.f 32 0 64) (o.f 40 0 64)).all (fun r => !((x.asRun o).poisoned r.1 r.2))
     let gives (fs bs : List (Nat × Nat)) (P : CorrRun → Bool) (y : Side := gaiting) : Bool :=
       meets 0x07 0 1 fs bs (fun x o => reads x o && clean x o && (x.corrRun o).any P) (y := y)
     meets 0x07 0 1 [(40, 10)] [] (fun x o => reads x o && !(clean x o)) (y := { gaiting with mem := ⟨[], [2]⟩ }) = true ∧
     meets 0x07 0 1 [(32, 5), (40, 5)] [] (fun x o => reads x o && clean x o && decide (x.corrRun o = none)) (y := gaiting) = true ∧
     gives [(40, 10), (48, 64)] [(64, 0x3F80_0000 * 256 ^ 12)] (fun r => r.reject) = true ∧
     gives [(40, 10), (48, 64)] [(64, 0)] (fun r => !r.reject && !r.far) = true ∧
     gives [(40, 10), (48, 64)] [(64, 0x4000_0000 * 256 ^ 12)] (fun r => !r.reject && r.far) { gaiting with mem := ⟨[(151, 0x40)], []⟩ } = true) := by
  decide +kernel

/-! #### Time, launch and ingress -/

/-- A side with these registers whose Datum is as given. -/
def timed (d : Datum) (l : List (Nat × Word) := []) : Side := { holds l with datum := d }

theorem witness_DatumTime :
    let r := Datum.reset
    let ptp : List (Nat × Word) := [(Reg.DT_PTPEN, 0x3FF), (Reg.DT_CFG, 0x900)]
    let slave (d : Datum) : Datum := { d with ns := 9, linkDelay := [(9, 0)], capable := [(9, 0)] }
    let hears (x : Side) : Bool := x.datum.src == 0 && x.gptpOn 9 && 9 == x.slavePort && x.asCapable 9
    let clear (l : List (Nat × Word)) (i : Nat := 9) : List (Nat × Word) := (Reg.ET_SEC i, 0) :: l
    let speaks (x : Side) : Bool := !(x.flag Reg.LG_CTRL 2) && (!(x.flag (Reg.ET_SEC 9) 0) || x.flag (Reg.ET_SEC 9) 4)
    let sends (last : List (Nat × Nat)) (sync ann : Bool) : Bool :=
      let x := timed { r with src := 1, ns := 1000000000, lastSent := last } (clear [(Reg.DT_PTPEN, 0x200)])
      x.masterPort 9 && speaks x && x.sendDue 9 x.syncInterval == sync && x.sendDue 25 1000000000 == ann
    (let x := timed { r with acc := 2 ^ 48 - 1 } [(Reg.DT_RATE, BitVec.ofInt 64 (-0xD1B71758E))]
     x.datum.pendStep = none ∧ x.datum.ns * 2 ^ 48 + x.datum.acc + 11 * 2 ^ 48 < 2 ^ 112 ∧ x.datum.acc < 2 ^ 48 ∧ x.rate = -0xD1B71758E ∧
       (holds [(Reg.DT_RATE, 0xD1B71758E)]).rate = 0xD1B71758E) ∧
    base.live = true ∧
    (let x := timed (slave { r with run := 1, gm := 4 }) ptp
     hears x = true ∧ x.datum.lastRef = none ∧ x.fld Reg.DT_STATE 0 2 = 0 ∧ x.datum.run ≠ 0) ∧
    (let x := timed (slave { r with gm := 4, lastRef := some (1, 2) }) (ptp ++ [(Reg.DT_STATE, 1)])
     hears x = true ∧ x.datum.gm = 4 ∧ x.fld Reg.DT_STATE 0 2 = 1 ∧ x.datum.lastRef = some (1, 2) ∧ 1 < x.stampNear 8 (-7)) ∧
    (holds [(Reg.ET_SEC 9, 1)]).flag (Reg.ET_SEC 9) 0 = true ∧
    (let x := timed { r with src := 2 } [(Reg.DT_TOD, 5)]
     x.datum.src = 2 ∧ x.fld Reg.DT_STATE 0 2 = 0 ∧ (x.rd Reg.DT_TOD).toNat ≠ 0) ∧
    base.datum.src ≠ 2 ∧
    (let x := timed { r with src := 2, ns := 2000000000, lastRef := some (0, 0) } [(Reg.DT_STATE, 1)]
     x.referenceOverdue = true ∧ x.fld Reg.DT_STATE 0 2 = 1) ∧
    (holds [(Reg.DT_CFG, 1)]).fld Reg.DT_CFG 0 2 ≠ (holds [(Reg.DT_CFG, 1)]).datum.src ∧
    sends [(25, 1)] true false = true ∧ sends [(9, 1000000000)] false true = true ∧
    (let x := timed { r with best := some (5, 3) } (clear [(Reg.DT_PTPEN, 0x3FF), (Reg.DT_CFG, 0x40)])
     speaks x = true ∧ x.flag Reg.DT_CFG 6 = true ∧ x.gptpOn 9 = true ∧ x.datum.best.all (fun e => decide (4 < e.1)) = true ∧
     x.datum.best.any (fun e => decide (e.2 = 3)) = true) := by decide +kernel

/-- A frame of queue 0 for port 13, launched for 5. -/
def frame13 : LFrame := ⟨9, 0, 0, 5, [1, 2, 3, 4, 8, 0, 0, 0], 13, false, true, 0, 2, 12, 7, true, 0, 0, 5, false, false⟩

/-- A side whose gate works and holds `fs`, at time `t`, with `o` not started. -/
def gate (fs : List LFrame) (t : Nat) (l : List (Nat × Word) := [(Reg.LG_CTRL, 1), (Reg.SW_STATE, 1)]) (ops : List Op := []) (kept : List Kept := []) : Side :=
  { timed { Datum.reset with ns := t } l with lg := { base.lg with frames := fs, kept := kept }, ops := ops }

/-- LAUNCH and CANCEL, ready. -/
def launching (op : Nat) : Op := { job 0x04 0 op [(32, 7), (36, 13)] [] with run := none }

theorem witness_LaunchGate :
    let waits (f : LFrame) : Bool := !f.started
    let due (x : Side) (f : LFrame) : Bool := f.started && f.dual && !f.judged && decide (f.tl ≤ x.now) && !(x.leadAt f.tl)
    let goes (x : Side) (f : LFrame) : Bool := (x.lgMoment (x.lgJudged f)).isSome
    let late (x : Side) (f : LFrame) : Bool := let g := x.lgJudged f
      g.started && (!g.dual || g.judged) && !g.free && decide (g.sched + x.fld (Reg.LG_TOL g.port) 0 17 < x.now) && (x.lgMoment g).isNone
    let clear : List (Nat × Word) := [(Reg.LG_CTRL, 1), (Reg.SW_STATE, 1), (Reg.ET_SEC 9, 0)]
    (let f := { frame13 with started := false }
     let x := gate [f] 1 [(Reg.LG_CTRL, 1)] [launching 1]
     x.live = true ∧ x.acts = Agent.hub ∧ x.gateNext 0 1 = some (launching 1) ∧ (launching 1).parent = none ∧ (launching 1).queue < 64 ∧
     x.flag Reg.LG_CTRL 2 = false ∧ x.lgFind 0 0 waits = some f) ∧
    (let f := { frame13 with started := false }
     let x := gate [f] 1 [(Reg.LG_CTRL, 5)] [launching 1]
     x.flag Reg.LG_CTRL 2 = true ∧ x.ops.find? (fun o => o.queue == 0 && o.unit == 0x04 && o.opcode == 1 && x.ready o) = some (launching 1) ∧
     x.lgFind 0 0 waits = some f) ∧
    (let x := gate [frame13] 1 [] [launching 2]
     x.gateNext 0 2 = some (launching 2) ∧ x.flag Reg.LG_RPT_CFG 21 = false ∧ (frame13.port == (launching 2).f 36 0 4 && frame13.tag == (launching 2).f 32 0 32) = true) ∧
    (let f := { frame13 with dual := true }
     let g := { f with judged := true, shadow := true, sched := f.tl + 250000 }
     let x := gate [f] 5
     let y := gate [f] 5 (kept := [⟨12, 5, [1, 2]⟩])
     x.lgFind 0 0 (due x) = some f ∧ x.lg.kept = [] ∧ y.lgFind 0 0 (due y) = some f ∧ y.lg.kept.any (fun k => k.cancels g) = true) ∧
    (let x := gate [frame13] 5
     frame13.started = true ∧ frame13.dual = false ∧ x.flag Reg.LG_CTRL 0 = true ∧ x.flag Reg.LG_CTRL 2 = false ∧ 9 < frame13.port ∧
     x.flag (Reg.IN_CANB 3) 17 = false ∧ x.fld Reg.SW_STATE 0 2 ≠ 0 ∧ max frame13.sched (max frame13.startNs (alGet 0 x.lg.busy 13)) = x.now ∧
     x.lgNext frame13 = true ∧ x.now ≤ frame13.sched + x.fld (Reg.LG_TOL 13) 0 17 ∧ x.lgFind 0 0 (goes x) = some frame13 ∧ x.lgMoment frame13 = some 5) ∧
    (let f := { frame13 with port := 9, dual := true, judged := true, shadow := true }
     let x := gate [f] 5 clear
     f.judged = true ∧ x.flag (Reg.ET_SEC 9) 0 = false ∧ x.lgFind 0 0 (goes x) = some f ∧ x.lgMoment f = some 5) ∧
    (let x : Side := { gate [frame13] 5 with datum := { Datum.reset with ns := 200000, prev := 199990 } }
     x.lgFind 0 0 (late x) = some frame13 ∧ frame13.report = true ∧ x.part.populated (x.fld Reg.LG_RPT_BASE 5 59 * 32 % 2 ^ 46) 32 = true ∧
     x.writeGuarded 0x04 (x.fld Reg.LG_RPT_BASE 5 59 * 32 % 2 ^ 46) 32 = false) ∧
    (holds [(Reg.LG_WATCH, 0x2000)]).flag Reg.LG_WATCH 13 = true ∧ (13 : Nat) ≤ 13 := by decide +kernel

/-- A side whose slot 31 is on, of the kind and source given, with more of its IN_SCFG, its packets and other registers. -/
def slotted (kind src more : Nat) (sl : Slot := Slot.reset) (l : List (Nat × Word) := []) : Side :=
  { holds ((Reg.IN_SCFG 31, BitVec.ofNat 64 (1 + src * 2 ^ 24 + kind * 2 ^ 28 + more)) :: l) with ing := { base.ing with slots := setAt base.ing.slots 31 sl } }

/-- A sample in progress. -/
def part (n : Nat) (start : Option Nat) : Sample := ⟨3, 7, List.replicate n (0xAB, false), false, false, false, start⟩

/-- Whether a whole sample fits in the queue of slot 31. -/
def fits (x : Side) (m : Sample) : Bool :=
  !(x.lands 31) && decide (m.bytes.length ≤ 8160) &&
    decide ((x.slot 31).words.length + (packWords 300 ((x.samplePrefix 31 m false false 0).map (fun b => (b, false)) ++ m.bytes)).length ≤ 256)

/-- The sample of slot 31 that one frame makes. -/
def whole (x : Side) (t : Nat) (bs : List Byte) : Sample :=
  ⟨x.fld (Reg.IN_SCHAIN 31) 0 32, x.adjusted 31 t, bs.map (fun b => (b, false)), false, false, false, none⟩

theorem witness_SensorIngress :
    base.live = true ∧ base.acts = Agent.hub ∧ base.ing.slots.length = 32 ∧ base.ing.spi.length = 2 ∧ base.ing.trig.length = 16 ∧
    (let aphy : Nat × Word := (Reg.IN_APHY 15, 0x100)
     let open' (sl : Slot) (max : Nat) : Side := slotted 0 15 0xF2_0000 sl [aphy, (Reg.IN_LSIZE 31, BitVec.ofNat 64 (max * 2 ^ 32 + 16))]
     let taking (words : Nat) : Side := open' { Slot.reset with prog := some (part 64 (some 0)), words := List.replicate words (raceWord 0 32 true false) } 128
     let grows (max n : Nat) : Bool × Nat :=
       let x := open' { Slot.reset with prog := some (part 64 (some 0)) } max
       ((x.landWrites 31 64 (List.replicate n (0, false))).all (fun w => !(x.writeGuarded 0x05 w.1 1)), x.maxSample 31)
     (taking 0).flag (Reg.IN_APHY 15) 8 = true ∧ (taking 0).camSlot 15 15 = some 31 ∧
     ((open' Slot.reset 65536).slot 31).prog = none ∧ (open' Slot.reset 65536).landStart 31 = some 0 ∧ (open' Slot.reset 65536).lands 31 = true ∧
     (open' { Slot.reset with head := 1 } 65536).landStart 31 = none ∧
     ((taking 0).slot 31).prog = some (part 64 (some 0)) ∧ grows 128 64 = (true, 128) ∧ grows 128 65 = (true, 128) ∧ grows 64 1 = (true, 64) ∧
     (part 64 (some 0)).noStamp = false ∧ ((taking 255).slot 31).words.length = 255 ∧ ((taking 256).slot 31).words.length = 256) ∧
    (let x := slotted 1 2 0 { Slot.reset with words := [raceWord 5 32 true false], pend := [⟨1, some 64⟩] }
     (x.slot 31).pend = ⟨1, some 64⟩ :: [] ∧ (x.slot 31).words[(x.slot 31).readable]? = some (raceWord 5 32 true false)) ∧
    (let t : Trigger := ⟨some (31, 0, 100, 30), some 29, false⟩
     let at' (ns : Nat) : Side := { slotted 0 15 0 with ing := { (slotted 0 15 0).ing with trig := setAt base.ing.trig 15 t }, datum := { Datum.reset with ns := ns } }
     (at' 10).ing.trig.getD 15 ⟨none, none, false⟩ = t ∧ t.drv = some (31, ((at' 10).slot 31).gen, 100, 30) ∧ (at' 10).slotOn 31 = true ∧
     30 ≤ (at' 10).now + 20 ∧ (at' 10).now ≤ 30 + ((at' 10).now + 20 - 30) / 100 * 100 + 20 ∧ (at' 150).now = 30 + ((at' 150).now + 20 - 30) / 100 * 100 + 20) ∧
    (let x : Side := { timed { Datum.reset with ns := 1020 } with ing := { base.ing with trig := setAt base.ing.trig 15 ⟨none, some 20, true⟩ } }
     (x.ing.trig.getD 15 ⟨none, none, false⟩).high = true ∧ (x.ing.trig.getD 15 ⟨none, none, false⟩).pulse = some 20 ∧ 20 + 1000 ≤ x.now) ∧
    1 ≤ (holds [(Reg.IN_APHY 15, 5)]).fld (Reg.IN_APHY 15) 0 4 ∧
    (let x := holds [(Reg.FT_SCRUB, 1), (Reg.FT_STATE, 1), (Reg.NT_STATE 3, 1)]
     x.part.farGB * 2 ^ 30 ≠ 0 ∧ x.fld Reg.FT_SCRUB 0 8 ≠ 0 ∧ x.flag Reg.FT_STATE 0 = true ∧ x.part.hasInst 0x16 3 = true ∧ x.flag (Reg.NT_STATE 3) 0 = true) := by
  decide +kernel

theorem witness_SensorIngress_frames :
    (let data := toBytes 12 0 ++ [0x22, 0xF0] ++ toBytes 46 0
     let x : Side := { slotted 1 9 0 Slot.reset [(Reg.IN_ETH 31, 0x22F0_0000_0FFF_0000), (Reg.ET_SEC 9, 0)] with datum := { Datum.reset with ns := 1000 } }
     let y : Side := { x with regs := x.regs.map (fun e => if e.1 = Reg.IN_SCFG 31 then (e.1, e.2.put 28 4 2) else e) }
     let listed (x : Side) : Option Nat := x.takerAt (x.firstByte 9 data) (fun scfg eth => ethMatch scfg eth 9 data)
     data.length ≤ 1518 ∧ x.flag (Reg.ET_SEC 9) 0 = false ∧ (ethParse data).2.1 ≠ 0x88F7 ∧ listed x = some 31 ∧ x.slotSince 31 (x.firstByte 9 data) = true ∧
     x.kind 31 ≠ 2 ∧ x.fld (Reg.IN_ETH 31) 0 16 + 8 ≤ data.length ∧ fits x (whole x (fromBytes (data.take 8)) data) = true ∧
     listed y = some 31 ∧ y.kind 31 = 2 ∧ fits y (whole y (stampOf 8 (-8) (y.firstByte 9 data)) data) = true ∧ listed base = none) ∧
    (let x := slotted 3 3 0 Slot.reset [(Reg.IN_CANB 3, 0x1_0000), (Reg.IN_CAN 31, 0x1FFF_FFFF_0000_0123)]
     let asked (y : Side) : Option Nat := y.takerAt (y.now - 120000) (fun scfg c => canMatch scfg c 3 0x123 false)
     x.flag (Reg.IN_CANB 3) 16 = true ∧ x.flag (Reg.IN_CANB 3) 17 = false ∧ asked x = some 31 ∧ asked base = none ∧ x.slotSince 31 (x.now - 120000) = true ∧
     fits x (whole x (stampOf 4 4 (x.now - 120000)) (toBytes 16 0)) = true ∧ (holds [(Reg.IN_CANB 3, 0x2_0000)]).flag (Reg.IN_CANB 3) 17 = true) ∧
    (let m := part 0 none
     let x := slotted 4 1 0 Slot.reset [(Reg.IN_SPIB 1, 1)]
     let y : Side := { slotted 4 1 0 { Slot.reset with prog := some m } [(Reg.IN_SPIB 1, 1), (Reg.IN_SPI 31, 4)] with
       ing := { base.ing with slots := setAt base.ing.slots 31 { Slot.reset with prog := some m, gen := 2 }, spi := [none, some (31, 2)] } }
     x.flag (Reg.IN_SPIB 1) 0 = true ∧ x.ing.spi.getD 1 none = none ∧ x.spiSlot 1 = some 31 ∧ x.lands 31 = false ∧ y.flag (Reg.IN_SPIB 1) 0 = true ∧
     y.ing.spi.getD 1 none = some (31, (y.slot 31).gen) ∧ (y.slot 31).prog = some m ∧ [1, 2, 3, 4].length = y.fld (Reg.IN_SPI 31) 0 9 ∧
     m.noStamp = false ∧ m.start = none ∧ fits y { m with bytes := [1, 2, 3, 4].map (fun b => (b, false)) } = true) := by
  decide +kernel

/-! #### Frames, the two sides, the Steward -/

/-- A side, its units 0x0E/23 powered, with the Trot-up state `t` of a unit. -/
def trotting (t : TrotUnit) (l : List (Nat × Word) := [(Reg.PW_ENG, 0x800000)]) : Side := { holds l with sw := { base.sw with trots := [t] } }

/-- The Trot-up state of Draft engine 23: nothing wanted. -/
def trot23 : TrotUnit := ⟨0x0E, 23, none, none, none, [], [], none, false, false, 0, (1, 2), none⟩

theorem witness_FramesAndTrotUps :
    base.live = true ∧ base.acts = Agent.hub ∧ base.framePhase + base.frameOf base.now * base.framePeriod ≤ base.now ∧ base.sw.bound = none ∧
    (let x : Side := { holds [(Reg.PW_STATE, 0x10)] with sw := { base.sw with armed := true } }
     x.flag Reg.PW_STATE 4 = true ∧ (x.rd Reg.PW_EFFECT).toNat ≤ 0 ∧ x.sw.armed = true ∧ x.stewardOn = true) ∧
    (let x : Side := { base with power := { base.power with leaving := [(0x0E, 23)] } }
     x.power.leaving.contains (0x0E, 23) = true ∧ x.named 0x0E 23 = false ∧ x.idle 0x0E 23 = true) ∧
    (let x : Side := { base with power := { base.power with gaining := [(0x0F, 3)] }, sw := { base.sw with first := some 0 } }
     x.power.gaining.contains (0x0F, 3) = true ∧ x.sw.first.isSome = true) ∧
    (let at' (v : Word) : Side := { holds [(Reg.NT_STATE 3, v)] with power := { base.power with rateQ := [3] } }
     3 < base.part.stacks ∧ (at' 1).power.rateQ = 3 :: [] ∧ (at' 1).flag (Reg.NT_STATE 3) 0 = true ∧ (at' 1).flag (Reg.NT_STATE 3) 1 = false ∧
     (at' 3).flag (Reg.NT_STATE 3) 0 = true ∧ (at' 3).flag (Reg.NT_STATE 3) 1 = true) ∧
    (let t := { trot23 with want := some 4 }
     (trotting t).trot 0x0E 23 = some t ∧ (trotting t).trotMayStart t = true ∧ t.rerun = none ∧ t.want = some 4) ∧
    (let t := { trot23 with rerun := some 4 }
     (trotting t).trot 0x0E 23 = some t ∧ (trotting t).trotMayStart t = true ∧ t.rerun = some 4) ∧
    (let t := { trot23 with run := some (4, 0, false) }
     (trotting t).trot 0x0E 23 = some t ∧ t.run = some (4, 0, false)) ∧
    (let t := { trot23 with run := some (4, 0, true) }
     (trotting t).trot 0x0E 23 = some t ∧ t.run = some (4, 0, true) ∧ (23 : Nat) < 24) ∧
    (let t := { trot23 with late := some (4, 1, 2), undecided := [4] }
     (trotting t).trot 0x0E 23 = some t ∧ t.late = some (4, 1, 2) ∧ t.undecided.length < 2) ∧
    (let t := { trot23 with late := some (4, 1, 2), undecided := [4, 5] }
     (trotting t).trot 0x0E 23 = some t ∧ 2 ≤ t.undecided.length) ∧
    (let x := timed { Datum.reset with ns := 1000000 } [(Reg.PW_STATE, 0x60)]
     x.power.lastSample < x.now / 1000000 * 1000000 ∧ (x.fld Reg.PW_THERM 0 8 : Int) ≤ hottest 0 [110] ∧ 0 < x.fld Reg.PW_STATE 5 2 ∧
     x.power.lastFall = none) := by decide +kernel

/-- A message of a class between the sides. -/
def crossing (cls n : Nat) (bad : List Nat := []) : XMsg := ⟨cls, 0, toBytes 64 n, bad⟩

theorem witness_TwoSides :
    (let x : Side := { timed { Datum.reset with ns := 2000000 } [(Reg.BN_STATE, 8)] with sw := { base.sw with hbLast := 0 } }
     x.live = true ∧ x.acts = Agent.hub ∧ x.datum.lastC < x.lastBoundary ∧ x.sw.xfault = false ∧ x.fld Reg.SW_CFG 24 4 ≠ 0 ∧ x.datum.gotRx = false ∧ x.flag Reg.BN_STATE 3 = true ∧
     x.stewardOn = true ∧ x.sw.hbSent = none ∧ x.peer ≠ 2 ∧ x.sw.hbLast + x.fld Reg.SW_CFG 28 4 * 50000 < x.now) ∧
    [0, 1, 2].all (fun c => decide (firstOf c [crossing c 5] = some (crossing c 5, [])) && decide (firstOf c [crossing c 5 [0]] = some (crossing c 5 [0], []))) = true ∧
    (let v := fromBytes (crossing 1 (1 + 1 * 2 ^ 64 + 2 ^ 128 * 1000000)).bytes
     sfld v 8 0 64 ≠ 0 ∧ sfld v 16 0 64 ≠ 0 ∧ base.fld Reg.DT_XCFG 32 32 <
       ((((sfld v 8 0 64 : Int) - sfld v 16 0 64) - ((base.now : Int) - sfld v 0 0 64)).fdiv 2).natAbs) ∧
    base.sw.hbRef = none ∧ base.events = [] ∧ (crossing 0 5).bad = [] ∧ (crossing 0 5 [0]).bad ≠ [] ∧
    [14, 15].all (fun k => let x : Side := { base with sw := { base.sw with hbRef := some 7, joinRun := some k } }
      x.sw.joinRun == some k && x.sw.hbRef == some 7 && chainBefore 7 (sfld (fromBytes (crossing 0 (8 * 2 ^ 64)).bytes) 8 0 32)) = true ∧
    State.reset.off.live = true ∧ base.isAlone = false ∧
    (let x : Side := { base with pt := { base.pt with alone := some 0 } }
     x.isAlone = true ∧ x.pt.alone ≠ none ∧ x.pt.join = none) ∧
    (let x : Side := { base with sw := { base.sw with hbRef := some 7 } }
     x.sw.hbRef = some 7 ∧ chainBefore 7 (sfld (fromBytes (crossing 0 (7 * 2 ^ 64)).bytes) 8 0 32) = false) ∧
    (∀ n, n ≤ 3 → base.part.hasLink n = true ∧ (holds [(Reg.BN_STATE, 0xF)]).flag Reg.BN_STATE n = true) := by
  iterate 12 apply And.intro (by decide +kernel)
  intro n h
  obtain rfl | rfl | rfl | rfl : n = 0 ∨ n = 1 ∨ n = 2 ∨ n = 3 := by omega
  all_goals decide +kernel

/-- An event for the Steward. -/
def event (code : Nat) : SEvent := ⟨1, code, 0x0E, 23, none, 0, 0, none⟩

/-- A side in OPERATE whose Datum is past the lead frame of 1 ms. -/
def judging (duals : List (Nat × Nat × Bool)) : Side :=
  { timed { Datum.reset with ns := 2000000 } [(Reg.SW_STATE, 1), (Reg.LG_CTRL, 2)] with lg := { base.lg with duals := duals } }

theorem witness_StewardActs :
    [0x05, 0x06, 0x03, 0x17, 0x10].all (fun c => decide (nextEvent [event c] = some (event c))) = true ∧
    nextEvent [event 0x17, event 0x03] = some (event 0x03) ∧ base.live = true ∧ base.acts = Agent.hub ∧
    (holds [(Reg.SW_CFG, 1)]).fld Reg.SW_CFG 0 4 ≤ base.sw.missed + 1 ∧ toPeer 0x06 = false ∧ toPeer 0x05 = true ∧
    (holds [(Reg.BN_STATE, 8)]).flag Reg.BN_STATE 3 = true ∧
    (let slot := base.fld Reg.SW_LOG_BASE 5 59 * 32
     slot < 2 ^ 47 ∧ base.part.populated (slot % 2 ^ 46) 32 = true ∧ base.writeGuarded 0x02 (slot % 2 ^ 46) 32 = false) ∧
    (let x : Side := { base with sw := { base.sw with decided := [(0x0E, 23)] } }
     x.sw.decided.contains (0x0E, 23) = true ∧ x.idle 0x0E 23 = true ∧ x.ops = []) ∧
    base.swState ≠ 3 ∧ base.flag Reg.LG_CTRL 2 = false ∧ (holds [(Reg.SW_STATE, 3)]).swState = 3 ∧
    (∀ d ∈ ([[], [(1000000, 9, false)], [(1000000, 9, true)]] : List (List (Nat × Nat × Bool))), let x := judging d
      x.swState = 1 ∧ x.leadAt 1000000 = true ∧ x.sw.leftAt ≤ 1000000 ∧ x.sw.judged < 1000000 ∧ x.datum.cPhase ≤ 1000000 ∧
      (1000000 - x.datum.cPhase) % x.datum.cPeriod = 0 ∧ x.fld (Reg.LG_TOL 9) 0 17 ≤ 1000000 ∧ x.lg.dualPorts = []) ∧
    (let x : Side := { holds [(Reg.SW_STATE, 4)] with
       sw := { base.sw with first := some 0, trots := base.trotUnits.map (fun u => { trot23 with unit := u.1, inst := u.2, firstOk := true }) } }
     x.stewardOn = true ∧ x.swState = 0 ∧ x.sw.first ≠ none ∧ x.trotUnits.all (fun u => (x.trot u.1 u.2).any (fun t => t.firstOk)) = true ∧ x.peer ≠ 0) ∧
    (let x : Side := { timed { Datum.reset with ns := 0xFF * 1000000 } [(Reg.SW_STATE, 3), (Reg.SW_CFG, 0xFF30_0304_0202)] with phase := .up }
     x.restartDue = true ∧ 144 % x.part.stacks = 0 ∧ 144 ≤ x.part.nearGB) := by decide +kernel

/-! #### Records, the Keeper, the host -/

/-- A request of type `t` with a payload, from an address that the side allows. -/
def asking' (t : Nat) (payload : List Byte) (port : Nat := 1) : Datagram :=
  ⟨port, false, .plain, 0x3FA * 2 ^ 118, 5, [1, BitVec.ofNat 8 t, 0, 0] ++ toBytes 4 9 ++ toBytes 2 payload.length ++ toBytes 6 0 ++ payload⟩

/-- A side with the two host ports open and unprotected. -/
def hosting (l : List (Nat × Word) := []) : Side :=
  holds ([(Reg.ET_PORT 0, 1), (Reg.ET_PORT 1, 1), (Reg.ET_SEC 0, 0), (Reg.ET_SEC 1, 0)] ++ l)

/-- Whether a side admits a datagram that is a request of type `t` and was not answered, as a computation. -/
def asksB (x : Side) (t : Nat) (d : Datagram) : Bool :=
  let v := fromBytes d.bytes
  let shape := requestShape t (v / 2 ^ 128)
  decide ((x.live = true ∧ x.acts = Agent.hub) ∧
    ((d.port ≤ 1 ∧ x.flag (Reg.ET_PORT d.port) 0 = true ∧ (d.toGlobal = true → x.flag Reg.HP_CFG 0 = true) ∧ x.flag (Reg.ET_SEC d.port) 0 = false ∧
      requestHeader d.bytes = true ∧ x.sourceOk d.src = true ∧ x.flag Reg.HP_CFG 1 = false) ∧ ∀ k ∈ x.host.replies, k.answers d = false) ∧
    sfld v 1 0 8 = t ∧ sfld v 8 0 16 = d.bytes.length - 16 ∧ sfld v 2 1 7 = 0 ∧ sfld v 3 0 8 = 0 ∧ sfld v 10 0 48 = 0 ∧
    anySet (v / 2 ^ 128) shape.2 = false ∧ v / 2 ^ 128 / 2 ^ (8 * shape.1) = 0 ∧ shape.1 ≤ d.bytes.length - 16)

theorem asks_of {x : Side} {t : Nat} {d : Datagram} (h : asksB x t d = true) :
    x.atRest ∧ (x.admits d ∧ ∀ k ∈ x.host.replies, k.answers d = false) ∧ d.asks t := by
  simp only [asksB, decide_eq_true_eq] at h
  exact h

/-- The number in a request's payload. -/
def pay (d : Datagram) (o w : Nat) : Nat := sfld (fromBytes d.bytes / 2 ^ 128) o 0 (8 * w)

theorem witness_RecordsAndKeeper :
    (let x : Side := { base with kp := { base.kp with fsq := [⟨event 0x03, 0, 0⟩], verify := some ⟨0x1F, 0x1000, 0⟩, quote := some (0x1000, 7, 0),
                                                      cak := some (0x200, 1, 2) }
                                 pm := { base.pm with tags := [⟨0xFF, 1, 1, none, 0, [[0, 1]]⟩] } }
     x.live = true ∧ x.acts = Agent.hub ∧ x.keeperOn = true ∧ x.kp.fsq = ⟨event 0x03, 0, 0⟩ :: [] ∧
     x.pm.tags.find? (fun t => t.mon == 0xFF && !t.ready.isEmpty) = some ⟨0xFF, 1, 1, none, 0, [[0, 1]]⟩ ∧
     x.kp.verify = some ⟨0x1F, 0x1000, 0⟩ ∧ targetOf 0x1F = some (Reg.KP_GRAPH 15, 0x04) ∧ x.kp.quote = some (0x1000, 7, 0) ∧
     x.kp.cak = some (0x200, 1, 2) ∧ bitAt 0x200 9 = true) ∧
    (let x := timed { Datum.reset with ns := 2 ^ 31 * 1000 } [(Reg.PM_DCFG, 0x1F10)]
     let y : Side := { x with pm := { x.pm with dump := some ⟨0, 0, []⟩ } }
     x.flag Reg.PM_DCFG 4 = true ∧ x.pm.lastJ < x.now / x.dumpEvery ∧ x.pm.dump = none ∧ y.pm.dump = some ⟨0, 0, []⟩) ∧
    (let d := asking' 0x03 []
     let x : Side := hosting
     let k : KeptReply := ⟨1, d.src, 5, 9, []⟩
     let y : Side := { hosting [(Reg.KP_STATE, 0x200)] with host := { base.host with replies := [k] } }
     d.port ≤ 1 ∧ x.flag (Reg.ET_PORT d.port) 0 = true ∧ x.flag Reg.KP_STATE 9 = false ∧ y.flag Reg.KP_STATE 9 = true ∧ y.flag Reg.KP_STATE 7 = false ∧
     asksB x 0x03 (asking' 0x03 (toBytes 12 0)) = true ∧ asksB { y with host := base.host } 0x03 (asking' 0x03 (toBytes 12 0)) = true ∧ y.host.replies.find? (fun r => r.answers d) = some k) := by decide +kernel

/-- A subscription of slots of 64 bytes at 0x1000, and one by RDMA. -/
def sub (rdma : Bool) : Sub := ⟨15, rdma, false, 8191, 64, 0x1000, 0, 15, 0, 0, 0, 0, 0, 0, 0, 1, 3, 4⟩

theorem witness_HostProtocol :
    (let d := asking' 0x03 (toBytes 12 0)
     let k : KeptReply := ⟨1, d.src, 5, 9, []⟩
     asksB hosting 0x03 d = true ∧ ({ hosting with host := { base.host with replies := [k] } } : Side).host.replies.find? (fun r => r.answers d) = some k) ∧
    (let d := asking' 0x01 (toBytes 8 0x3F00_0300_0000 ++ toBytes 2 128)
     let e := asking' 0x01 (toBytes 8 0x3F00_0300_0000 ++ toBytes 2 1)
     asksB hosting 0x01 d = true ∧ pay d 8 2 = 128 ∧ asksB hosting 0x01 e = true ∧ pay e 8 2 = 1 ∧ hosting.regKey (pay e 0 8) = some Reg.DT_NOW) ∧
    (let d := asking' 0x02 (toBytes 8 0x3F00_1100_0000 ++ toBytes 2 128 ++ toBytes 6 0 ++ toBytes 1024 0)
     let e := asking' 0x02 (toBytes 8 0x3F00_1100_0000 ++ toBytes 2 1 ++ toBytes 6 0 ++ toBytes 8 5)
     asksB hosting 0x02 d = true ∧ pay d 8 2 = 128 ∧ asksB hosting 0x02 e = true ∧ hosting.regKey (pay e 0 8) = some (Reg.TE_VALUE 0) ∧
     (hosting.busWrite 2 (Reg.TE_VALUE 0) (BitVec.ofNat 64 (pay e 16 8))).1 = true) ∧
    (let d := asking' 0x05 (toBytes 1 15 ++ toBytes 7 3 ++ toBytes 8 0x23_FFFF_F000 ++ toBytes 8 4096)
     asksB hosting 0x05 d = true ∧ pay d 0 1 = 15 ∧ pay d 8 8 % 4096 = 0 ∧ pay d 16 8 = 4096 ∧ hosting.extentOk (pay d 8 8) 4096 = true ∧
     hosting.host.mrKeys.length = 16) ∧
    [0x06, 0x08, 0x0A].all (fun t => asksB hosting t (asking' t [15]) && pay (asking' t [15]) 0 1 == 15) = true ∧
    (let d := asking' 0x07 ([15, 2, 0, 0] ++ toBytes 28 1)
     asksB hosting 0x07 d = true ∧ pay d 0 1 = 15 ∧ pay d 1 1 = 2 ∧ hosting.fld (Reg.QP_STATE 15) 0 2 = 0 ∧ hosting.host.qps.length = 16) ∧
    hosting.ops = [] ∧ (hosting.cutRdma 15 0 []).flag (Reg.ET_SEC 1) 0 = false ∧
    (let d := asking' 0x09 ([15, 0] ++ toBytes 2 8191 ++ toBytes 4 1024 ++ toBytes 8 0 ++ [8, 0, 8, 0] ++ toBytes 24 0)
     asksB hosting 0x09 d = true ∧ pay d 4 4 = 1024 ∧ pay d 16 1 = 8 ∧ pay d 18 1 = 8 ∧ pay d 1 1 % 4 = 0 ∧
     hosting.extentOk (pay d 8 8) (16 * 2 ^ 8 * 1024) = true) ∧
    (let d := asking' 0x0B ([1, 0, 0, 0] ++ toBytes 4 (2 ^ 27 - 1024) ++ toBytes 2 1024 ++ toBytes 6 0 ++ toBytes 1024 0)
     asksB hosting 0x0B d = true ∧ pay d 0 1 = 1 ∧ pay d 8 2 = 1024 ∧ pay d 4 4 % 256 = 0 ∧ pay d 4 4 + 1024 = 2 ^ 27 ∧ hosting.fld Reg.KP_STATE 4 1 ≠ 1 ∧
     (hosting [(Reg.KP_STATE, 0x10)]).fld Reg.KP_STATE 4 1 = 1 ∧ asksB (hosting [(Reg.KP_STATE, 0x10)]) 0x0B d = true ∧ hosting.host.flash.length = 2) ∧
    asksB hosting 0x0C (asking' 0x0C (toBytes 4 0)) = true ∧ asksB hosting 0x0D (asking' 0x0D (toBytes 52 0)) = true ∧ hosting.kp.cak = none ∧
    asksB hosting 0x0E (asking' 0x0E []) = true := by decide +kernel

theorem witness_HostProtocol_memory :
    (let d := asking' 0x03 (toBytes 8 0x23_FFFF_FC00 ++ toBytes 4 1024)
     let e := asking' 0x03 (toBytes 8 0x24_0000_0000 ++ toBytes 4 1024)
     let f := asking' 0x03 (toBytes 8 0 ++ toBytes 4 1025)
     asksB hosting 0x03 d = true ∧ pay d 8 4 = 1024 ∧ hosting.extentOk (pay d 0 8) 1024 = true ∧ hosting.readGuarded 0x17 (local46 (pay d 0 8)) 1024 = false ∧
     hosting.paused (local46 (pay d 0 8)) 1024 = false ∧ hosting.poisoned (local46 (pay d 0 8) + 1023) 1 = false ∧
     asksB hosting 0x03 e = true ∧ hosting.extentOk (pay e 0 8) 1024 = false ∧ hosting.paused (local46 (pay e 0 8)) 1024 = false ∧
     asksB hosting 0x03 f = true ∧ 1024 < pay f 8 4 ∧ hosting.paused (local46 (pay f 0 8)) 1025 = false) ∧
    (let d := asking' 0x03 (toBytes 8 0x23_FFFF_FFF0 ++ toBytes 4 16)
     let x : Side := { hosting with mem := ⟨[], [0x23_FFFF_FFFF / 64]⟩ }
     let y : Side := hosting ((upTo 4).map (fun k => (Reg.NT_STATE k, 3)))
     asksB x 0x03 d = true ∧ x.poisoned 0x23_FFFF_FFFF 1 = true ∧ x.paused 0x23_FFFF_FFF0 16 = false ∧ x.extentOk (pay d 0 8) 16 = true ∧
     asksB (hidden 0x23_FFFF_FFFF 0x24_0000_0000 hosting) 0x03 d = true ∧
     (hidden 0x23_FFFF_FFFF 0x24_0000_0000 hosting).readGuarded 0x17 0x23_FFFF_FFF0 16 = true ∧
     asksB y 0x03 d = true ∧ y.paused (local46 (pay d 0 8)) (pay d 8 4) = true) ∧
    (let d := asking' 0x04 (toBytes 8 0x23_FFFF_FC00 ++ toBytes 4 1024 ++ toBytes 4 0 ++ toBytes 1024 0)
     let x : Side := { hosting with guards := [⟨1, 0x23_FFFF_F000, 0x24_0000_0000, 0x14, false, none⟩] }
     asksB hosting 0x04 d = true ∧ pay d 8 4 = 1024 ∧ hosting.extentOk (pay d 0 8) 1024 = true ∧ hosting.writeGuarded 0x17 (local46 (pay d 0 8)) 1024 = false ∧
     hosting.paused (local46 (pay d 0 8)) 1024 = false ∧ asksB x 0x04 d = true ∧ x.writeGuarded 0x17 (local46 (pay d 0 8)) 1024 = true) := by decide +kernel

theorem witness_HostProtocol_ports :
    (let x : Side := { hosting with phase := .recovery }
     let d := asking' 0x0E [] 0
     x.phase = .recovery ∧ d.port = 0 ∧ d.toGlobal = false ∧ requestHeader d.bytes = true ∧ x.flag (Reg.ET_PORT 0) 0 = true ∧ x.flag (Reg.ET_SEC 0) 0 = false ∧
     x.host.replies = [] ∧ asksB hosting 0x0E d = true) ∧
    (∀ r ∈ [false, true], let u := sub r
      let x : Side := { hosting [(Reg.TE_VALUE 8191, 15), (Reg.QP_STATE 15, 1)] with host := { base.host with subs := [u] } }
      let behind := (((x.rd (Reg.TE_VALUE u.tether)).fld 0 32 + 2 ^ 32 - u.v0) % 2 ^ 32 + 2 ^ 32 - u.sent) % 2 ^ 32
      x.live = true ∧ x.acts = Agent.hub ∧ x.host.subs.find? (fun s => s.id == u.id) = some u ∧ u.trigReg = false ∧ behind = 15 ∧ behind < 16 * 2 ^ u.size ∧
      (upTo 64).all (fun i => !(x.poisoned (local46 u.ring + i) 1)) = true ∧ x.readGuarded 0x17 (local46 u.ring) u.slotBytes = false ∧
      x.flag (Reg.ET_SEC u.port) 0 = false ∧ x.qpReady u.qp = true ∧ x.flag (Reg.ET_SEC (x.qp u.qp).port) 0 = false) ∧
    (let x : Side := { hosting [(Reg.QP_STATE 15, 1), (Reg.MR_BASE 15, 0x23_FFFF_F007), (Reg.MR_LEN 15, 4096)] with
       host := { base.host with mrKeys := List.replicate 16 5, qps := setAt base.host.qps 15 ⟨0, 0, 0, 0, 0, 7, 0⟩ } }
     let key := 15 * 2 ^ 24 + 5
     x.live = true ∧ x.acts = Agent.hub ∧ x.flag (Reg.ET_SEC 0) 0 = false ∧ x.flag (Reg.ET_SEC 1) 0 = false ∧ x.paused 0x23_FFFF_FFFF 2 = false ∧ x.qpReady 15 = true ∧ x.host.qps.length = 16 ∧ x.mrAllows key 0 0x23_FFFF_FFFF 1 = true ∧ x.mrAllows key 0 0x23_FFFF_FFFF 2 = false ∧
     x.readGuarded 0x17 0x23_FFFF_FFFF 1 = false ∧ x.poisoned 0x23_FFFF_FFFF 1 = false ∧ x.mrAllows key 1 0x23_FFFF_FFFF 1 = true ∧
     x.mrAllows key 1 0x23_FFFF_FFFF 2 = false ∧ x.writeGuarded 0x17 0x23_FFFF_FFFF 1 = false ∧ 7 ≤ (x.qp 15).retries ∧ (x.qp 14).retries < 7 ∧
     (hosting [(Reg.QP_STATE 14, 1)]).qpReady 14 = true) := by decide +kernel

/-- An image that the boot accepts, with 64 bytes of code. -/
def bootable : BootImage := ⟨63, 1, 0, 0x23_FFFF_FFC0, List.replicate 64 1⟩

theorem witness_ResetAndBoot :
    let z (x : Side) : Side := (x.pwSet (fun p => { p with resetLow := false })).deriveKey.newChallenge
    let z' := (z base).put Reg.KP_STATE 4 1 1
    let keeper : List (Option BootImage) := [none, none, none, some bootable]
    base.phase ≠ .off ∧ ({ base with phase := .off } : Side).phase = .off ∧
    (let x : Side := { base with phase := .held, power := { base.power with pwrGood := false } }
     x.phase = .held ∧ x.power.pwrGood = false) ∧
    base.phase = .boot ∧ base.power.pwrGood = true ∧ (z base).bootKeeper [] = none ∧ (z base).bootKeeper keeper = some (1, bootable) ∧
    z'.bootPair keeper 1 = none ∧ z'.bootPair keeper 0 = none ∧
    z'.bootPair (keeper ++ [some bootable, some bootable]) 1 = some (bootable, bootable) ∧
    (z base).bootKeeper (keeper ++ [some bootable, some bootable]) = some (1, bootable) ∧ 144 % base.part.stacks = 0 ∧ 144 ≤ base.part.nearGB ∧
    base.grooms.length = base.part.grooms ∧ (base.groom 0).halted = true ∧
    ({ base with kp := { base.kp with hobble := true } } : Side).kp.hobble = true ∧ base.kp.hobble = false ∧
    ({ base with kp := { base.kp with tap := ⟨.shiftDr, none, [true], false⟩ } } : Side).kp.tap.st = .shiftDr ∧
    ({ base with kp := { base.kp with tap := ⟨.updateIr, none, [true], false⟩ } } : Side).kp.tap.st = .updateIr := by decide +kernel

end Sys2Proof.Tests
end

/-!
The scope of the module: what every command and every step leaves as it was, and the accesses to registers and memory that the other
families of statements rest on.
-/
namespace Sys2Proof.Machine

/-! ### The module stays itself (R1, R23, R26) -/

/-- A side stays the same side of the same part, and no agent's effect is under way on it afterwards if none was before (R23, R33). -/
def Side.staysItself (x y : Side) : Prop := y.id = x.id ∧ y.part = x.part ∧ (x.acts = Agent.hub → y.acts = Agent.hub)

/-- Both sides of a module stay themselves, and the same commands wait. -/
def State.stays (s t : State) : Prop := t.pending = s.pending ∧ ∀ sd, (s.side sd).staysItself (t.side sd)

theorem Side.staysItself_refl (x : Side) : x.staysItself x := ⟨rfl, rfl, fun h => h⟩

theorem Side.staysItself_after (x : Side) (f : Side → Side) : x.staysItself (x.after f) := ⟨rfl, rfl, fun _ => rfl⟩

theorem State.stays_refl (s : State) : s.stays s := ⟨rfl, fun sd => (s.side sd).staysItself_refl⟩

theorem State.stays_trans {s t u : State} (h : s.stays t) (k : t.stays u) : s.stays u := by
  refine ⟨k.1.trans h.1, fun sd => ?_⟩
  obtain ⟨hid, hpart, hacts⟩ := h.2 sd
  obtain ⟨kid, kpart, kacts⟩ := k.2 sd
  exact ⟨kid.trans hid, kpart.trans hpart, kacts ∘ hacts⟩

/-- What holds of a side and of the other one holds of each. -/
theorem SideId.forall_of_other {P : SideId → Prop} (sd : SideId) (h : P sd) (k : P sd.other) (e : SideId) : P e := by
  by_cases he : e = sd
  · exact he ▸ h
  · have : e = sd.other := by cases e <;> cases sd <;> simp_all [SideId.other]
    exact this ▸ k

theorem State.stays_setSide (s : State) (sd : SideId) {x : Side} (h : (s.side sd).staysItself x) : s.stays (s.setSide sd x) := by
  refine ⟨State.pending_setSide .., SideId.forall_of_other sd ?_ ?_⟩
  · rw [State.side_setSide]; exact h
  · rw [State.other_setSide]; exact Side.staysItself_refl _

theorem State.stays_onAny (s : State) (sd : SideId) (f : Side → Side) : s.stays (s.onAny sd f) :=
  s.stays_setSide sd (Side.staysItself_after ..)

theorem State.stays_onLive (s : State) (sd : SideId) (f : Side → Side) : s.stays (s.onLive sd f) := by
  unfold State.onLive
  split
  · exact s.stays_setSide sd (Side.staysItself_after ..)
  · exact s.stays_refl

theorem State.stays_dropInbound (s : State) (sd : SideId) : s.stays (s.dropInbound sd) := by
  unfold State.dropInbound
  split
  · exact s.stays_refl
  · exact s.stays_setSide sd.other ⟨rfl, rfl, id⟩

theorem State.stays_receive (s : State) (sd : SideId) (cls : Nat) (f : XMsg → Side → Side) : s.stays (s.receive sd cls f) := by
  unfold State.receive
  split
  · split
    · exact s.stays_refl
    · rename_i m rest _
      have taken : s.stays (s.setSide sd.other { s.side sd.other with xout := rest }) := s.stays_setSide sd.other ⟨rfl, rfl, id⟩
      exact State.stays_trans taken (State.stays_onLive ..)
  · exact s.stays_refl

theorem State.stays_linkDown (s : State) (sd : SideId) (n : Nat) (begun begunBack : List (Nat × Nat)) :
    s.stays (s.linkDown sd n begun begunBack) := by
  unfold State.linkDown
  split
  · have here := s.stays_onLive sd (fun x => (x.linkCounts n).linkEndDown n)
    dsimp only
    split
    · have both := State.stays_trans here (State.stays_onLive _ sd.other (fun x => x.linkEndDown 3))
      exact State.stays_trans (State.stays_trans both (State.stays_onAny ..)) (State.stays_onAny ..)
    · exact here
  · exact s.stays_refl

theorem State.stays_linkUp (s : State) (sd : SideId) (n : Nat) : s.stays (s.linkUp sd n) := by
  unfold State.linkUp
  split
  · split
    · split
      · exact State.stays_trans (State.stays_onLive ..) (State.stays_onLive ..)
      · exact s.stays_refl
    · exact s.stays_onLive sd _
  · exact s.stays_refl

theorem State.stays_cycle (s : State) (sd : SideId) : s.stays (s.cycle sd) := by
  unfold State.cycle
  split
  · exact s.stays_refl
  · exact s.stays_onAny sd _

theorem State.stays_idle (s : State) : s.stays s.idle := by
  have drawn : s.stays (s.setSide .near s.near.draw.2) := s.stays_setSide .near ⟨rfl, rfl, id⟩
  unfold State.idle
  dsimp only
  split
  · exact State.stays_trans drawn (State.stays_cycle ..)
  · exact State.stays_trans drawn (State.stays_cycle ..)
  · exact State.stays_trans drawn (State.stays_trans (State.stays_cycle ..) (State.stays_cycle ..))

theorem State.stays.sound {s t : State} (h : s.stays t) (hs : s.sound = true) : t.sound = true := by
  obtain ⟨nearId, nearPart, nearActs⟩ : s.near.staysItself t.near := h.2 .near
  obtain ⟨offId, offPart, offActs⟩ : s.off.staysItself t.off := h.2 .off
  simp only [State.sound, Bool.and_eq_true, beq_iff_eq] at hs ⊢
  obtain ⟨⟨⟨⟨hn, ho⟩, hp⟩, hna⟩, hoa⟩ := hs
  exact ⟨⟨⟨⟨nearId.trans hn, offId.trans ho⟩, by rw [nearPart, offPart, hp]⟩, nearActs hna⟩, offActs hoa⟩

/-- The ways in which a command's effect on a side becomes its effect on the module. -/
inductive Lifted (s : State) : Host.Outcome State Fault Refusal → Prop where
  | live (sd : SideId) (f : Side → Side) : Lifted s (onSide sd f s)
  | pins (sd : SideId) (f : Side → Side) : Lifted s (onPins sd f s)
  | reset (sd : SideId) (f : Side → Side) : Lifted s (onReset sd f s)
  | message (sd : SideId) (cls : Nat) (f : XMsg → Side → Side) : Lifted s (onMessage sd cls f s)
  | linkDown (sd : SideId) (n : Nat) (begun begunBack : List (Nat × Nat)) : Lifted s (.next (s.linkDown sd n begun begunBack))
  | linkUp (sd : SideId) (n : Nat) : Lifted s (.next (s.linkUp sd n))

/-- Every command answers in one of these ways: links, messages, resets and what a side meets in any phase are named, all else happens on a
live side. -/
theorem exec_lifted (c : Instr) (s : State) : Lifted s (exec c s) := by
  cases c
  case barnastanLinkDown => exact .linkDown ..
  case barnastanLinkUp => exact .linkUp ..
  case halfGridReceive | trackListReceive | timeCompareReceive | heartbeatReceive | peerEventReceive => exact .message ..
  case sideResetAssert | powerUp | powerOff | railFaultReset => exact .reset ..
  case regRead | regWrite | memRead | memWrite | mrOpen | mrClose | qpSetup | qpReset | subscribe | unsubscribe | flashWrite | certRead
      | cakSet | recoverDone | sideResetRelease | phyLinkChange | tapAccess | railRecovery => exact .pins ..
  all_goals exact .live ..

theorem Lifted.stays {s : State} {o : Host.Outcome State Fault Refusal} (h : Lifted s o) : ∃ t, o = .next t ∧ s.stays t := by
  cases h with
  | live sd f => exact ⟨_, rfl, s.stays_onLive sd f⟩
  | pins sd f => exact ⟨_, rfl, s.stays_onAny sd f⟩
  | reset sd f => exact ⟨_, rfl, State.stays_trans (s.stays_onAny sd f) (State.stays_dropInbound _ sd)⟩
  | message sd cls f => exact ⟨_, rfl, s.stays_receive sd cls f⟩
  | linkDown sd n begun begunBack => exact ⟨_, rfl, s.stays_linkDown sd n begun begunBack⟩
  | linkUp sd n => exact ⟨_, rfl, s.stays_linkUp sd n⟩

/-- A command answers a next state, in which both sides are themselves and the same commands wait. -/
theorem exec_stays (c : Instr) (s : State) : ∃ t, exec c s = .next t ∧ s.stays t := (exec_lifted c s).stays

/-- Settles O4: a command and the passing of time leave both sides themselves (`exec_stays`, `State.stays_idle`). -/
theorem soundKept : Obligations.SoundKept := by
  intro s t hs ht
  unfold step at ht
  split at ht
  · cases ht
    exact s.stays_idle.sound hs
  · rename_i c rest _
    obtain ⟨u, hu, stays⟩ := exec_stays c { s with pending := rest }
    rw [hu] at ht
    cases ht
    exact stays.sound hs

/-- Settles O2. -/
theorem noCommandStops : Obligations.NoCommandStops := by
  intro c s
  obtain ⟨t, ht, stays⟩ := exec_stays c s
  exact ⟨t, ht, stays.1⟩

/-! ### Register accesses (R12, R18, R19, R61, R190) -/

/-- Every row that writes a register writes nothing at level 0 (R61). -/
theorem writers_level_zero (sd : SideId) (k i : Nat) (v : Word) (s : State) :
    ∀ c ∈ writers sd 0 k i v, ∃ f, exec c s = onSide sd f s ∧ ∀ x, f x = x := by
  simp only [writers, List.forall_mem_cons, List.not_mem_nil, false_imp_iff, implies_true, and_true]
  and_intros <;> exact ⟨_, rfl, fun _ => rfl⟩

theorem wreg_unwritable {x : Side} {k : Nat} (level : Nat) (v : Word) (h : x.writable k = false) : wreg level k v x = x := by
  simp [wreg, Side.busWrite, h]

theorem wreg_noRegister {k : Nat} (x : Side) (level : Nat) (v : Word) (h : specOf k = none) : wreg level k v x = x := by
  simp [wreg, Side.busWrite, h]

theorem wreg_reserved {k : Nat} {r : RegSpec} {v : Word} (x : Side) (level : Nat) (hr : specOf k = some r)
    (h : v.toNat &&& (2 ^ 64 - 1 - r.known) ≠ 0) : wreg level k v x = x := by
  unfold wreg Side.busWrite
  rw [hr]
  dsimp only
  rw [if_pos h]
  split
  · rfl
  · split <;> rfl

/-- What each bit reads after a plain write (R19). -/
theorem plainWrite_flag (x : Side) (k : Nat) (r : RegSpec) (v : Word) {n : Nat} (hn : n < 64) : ((x.plainWrite k r v).rd k).flag n =
    if bitAt r.w1s n ∧ v.flag n then true else if bitAt r.w1c n ∧ v.flag n then false
      else if bitAt r.rw n then v.flag n else (x.rd k).flag n := by
  simp only [flag_getLsbD, bitAt_testBit]
  exact plainWrite_bit x k r v hn

theorem regWrite_DT_TOD (x : Side) (level : Nat) (r : RegSpec) (v : Word) :
    x.regWrite level Reg.DT_TOD r v = x.plainWrite Reg.DT_TOD r v := rfl

/-- A read that is performed clears the RC bits of its register and touches nothing else; DT_NOW and PW_IN have reads of their own. -/
theorem busRead_clears {x : Side} {k : Nat} {r : RegSpec} (hi : x.part.hasInst (k / 0x1000000) (k / 0x10000 % 0x100) = true)
    (hl : x.part.lacksReg k = false) (hr : specOf k = some r) (hnow : k ≠ Reg.DT_NOW) (hin : k ≠ Reg.PW_IN) :
    (x.busRead k).2 = if r.rc = 0 then x else x.wr k (x.rd k &&& ~~~(BitVec.ofNat 64 r.rc)) := by
  simp [Side.busRead, hi, hl, hr, hnow, hin]

theorem clearedRead_flag (x : Side) (k rc : Nat) {n : Nat} (hn : n < 64) :
    ((if rc = 0 then x else x.wr k (x.rd k &&& ~~~(BitVec.ofNat 64 rc))).rd k).flag n = ((x.rd k).flag n && !(bitAt rc n)) := by
  simp only [flag_getLsbD, bitAt_testBit]
  split
  · rename_i h
    simp [h]
  · rw [Side.rd_wr_same, BitVec.getLsbD_and, BitVec.getLsbD_not, BitVec.getLsbD_ofNat]
    simp [hn]

theorem clearedRead_keptBut (x : Side) (k rc : Nat) :
    x.keptBut (if rc = 0 then x else x.wr k (x.rd k &&& ~~~(BitVec.ofNat 64 rc))) [] (fun j => j = k) := by
  split
  · exact Side.keptBut_refl ..
  · exact Side.wr_keptBut ..

/-- A read of DT_NOW latches the fraction of the same instant (R190). -/
theorem busRead_DT_NOW (x : Side) : (x.busRead Reg.DT_NOW).2 = x.wr Reg.DT_FRAC (BitVec.ofNat 64 (x.datum.acc / 2 ^ 32)) := by
  have hl : x.part.lacksReg Reg.DT_NOW = false := by cases x.part <;> rfl
  simp [Side.busRead, hasInst_DT_NOW, hl, specOf_DT_NOW]

/-- Settles O9. -/
theorem registerAccess : Obligations.RegisterAccess := by
  intro s sd level k v x i live
  refine ⟨?level0, ?unwritable, ?noRegister, ?reserved, ?plain, ?tod, ?readClear, ?now⟩
  case level0 =>
    intro c hc
    obtain ⟨f, he, hf⟩ := writers_level_zero sd k i v s c hc
    exact does_unchanged he live (hf x)
  case unwritable => exact fun h => does_unchanged rfl live (wreg_unwritable level v h)
  case noRegister => exact fun h => does_unchanged rfl live (wreg_noRegister x level v h)
  case reserved => exact fun r hr h => does_unchanged rfl live (wreg_reserved x level hr h)
  case plain =>
    intro r takes hr plain
    refine wreg_settles takes rfl hr plain (Side.plainWrite_keptBut ..) (fun o g _ _ kept => ⟨fun n hn => ?_, kept⟩)
    rw [Side.swap_rd]
    exact plainWrite_flag x k r v hn
  case tod =>
    intro takes
    obtain ⟨r, hr, hw⟩ := wreg_takes takes
    rw [specOf_DT_TOD] at hr
    cases hr
    refine does_onlyReg rfl live (hw.trans ?_)
    rw [regWrite_DT_TOD]
    exact plainWrite_eq_wr x _ _ v (by decide)
  case readClear =>
    intro r hi hl hr hnow hin
    refine onSide_settles rfl live (busRead_clears hi hl hr hnow hin) (clearedRead_keptBut ..) (fun o g _ _ kept => ⟨fun n hn => ?_, kept⟩)
    rw [Side.swap_rd]
    exact clearedRead_flag x k r.rc hn
  case now => exact does_onlyReg rfl live (busRead_DT_NOW x)

/-! ### Loads (R58, R65, R68, R69) -/

/-- The word that a load of `v` gives (R67). -/
def LoadOp.value (o : LoadOp) (v : Nat) : Word :=
  if o.shape.2 then BitVec.ofInt 64 (signed (8 * o.shape.1) v) else BitVec.ofNat 64 v

/-- A load whose access answers a value writes it and goes on. -/
theorem doLoad_ok {s z : Side} {g w : Nat} {env : Env} {o : LoadOp} {d b i v : Nat}
    (h : s.gload g w ((s.groom g).ea b i) o.shape.1 env = .ok (v, z)) :
    doLoad s g w env o d b i = .ok (z.retire g d (o.value v)) := by
  unfold doLoad
  dsimp only
  rw [h]
  rfl

/-- A Groom with a vector written and its next instruction to follow, as VLD leaves it. -/
def Side.retireVec (s : Side) (g d : Nat) (v : BitVec 512) : Side := (s.onGroom g (fun r => r.wv d v)).advance g

theorem Side.retireVec_groom_same (s : Side) (g d : Nat) (v : BitVec 512) (h : g < s.grooms.length) :
    (s.retireVec g d v).groom g = ((s.groom g).wv d v).next := by
  unfold Side.retireVec Side.onGroom
  rw [Side.advance_groom_same _ _ (by simpa using h), Side.setGroom_groom_same _ _ _ h]

theorem Side.retireVec_groom_other (s : Side) {g j : Nat} (d : Nat) (v : BitVec 512) (h : j ≠ g) :
    (s.retireVec g d v).groom j = s.groom j := by
  unfold Side.retireVec Side.onGroom
  rw [Side.advance_groom_other _ h, Side.setGroom_groom_other _ _ h]

/-- A fetch leaves the Grooms. -/
@[simp] theorem Side.met_grooms (x : Side) (g : Nat) (env : Env) : (x.met g env).grooms = x.grooms := Side.fetched_grooms ..

@[simp] theorem Side.met_groom (x : Side) (g : Nat) (env : Env) (j : Nat) : (x.met g env).groom j = x.groom j := Side.fetched_groom ..

section
variable {c : Instr} {s : State} {sd : SideId} {g : Nat} {env : Env} {w d b i l : Nat} {o : LoadOp}

/-- A load whose access answers a value and leaves the Grooms: it retires with that value in its register. -/
theorem load_retires {v : Nat} {z : Side} {rs : Nat → Prop} (he : exec c s = byGroom sd g (loadRow o g env) s)
    (h : (s.side sd).fetches g env w (.load o d b i))
    (ha : ((s.side sd).met g env).gload g w (((s.side sd).groom g).ea b i) o.shape.1 env = .ok (v, z))
    (hk : ((s.side sd).met g env).keptBut z (groomPieces env []) (groomRegs env rs)) (hg : z.grooms = (s.side sd).grooms) :
    s.retires c sd g env (((s.side sd).groom g).wx d (o.value v)).next [] rs := by
  have hz : ∀ j, z.groom j = (s.side sd).groom j := fun j => by simp [Side.groom, hg]
  have hlen : g < z.grooms.length := hg ▸ h.2.2.1
  have hload : doLoad ((s.side sd).met g env) g w env o d b i = .ok (z.retire g d (o.value v)) :=
    doLoad_ok (by rw [Side.met_groom]; exact ha)
  refine groomRow_does he h (x' := z.retire g d (o.value v)) ?_ (Side.keptBut_trans hk (Side.groom_frame env _ _ rfl)) ?_ (fun j hj => ?_)
  · dsimp only
    rw [if_pos rfl]
    exact congrArg some hload
  · rw [Side.retire_groom_same _ _ _ _ hlen, hz]
  · rw [Side.retire_groom_other _ _ _ hj, hz]

/-- A load of device memory that nothing stops gives the value there. -/
theorem load_mem (he : exec c s = byGroom sd g (loadRow o g env) s) (h : (s.side sd).fetches g env w (.load o d b i))
    (ha : ((s.side sd).groom g).ea b i % o.shape.1 = 0) (hp : (s.side sd).place (((s.side sd).groom g).ea b i) o.shape.1 = .mem l)
    (hr : (s.side sd).readGuarded 0x10 l o.shape.1 = false) (hb : ((s.side sd).met g env).poisoned l o.shape.1 = false) :
    s.retires c sd g env (((s.side sd).groom g).wx d (o.value ((s.side sd).num l o.shape.1))).next :=
  load_retires he h (gload_mem ((s.side sd).asGroom g) g env w _ _ l ha hp hr hb) (Side.keptBut_refl ..) (Side.met_grooms ..)

/-- A load of local memory gives the value there. -/
theorem load_loc (he : exec c s = byGroom sd g (loadRow o g env) s) (h : (s.side sd).fetches g env w (.load o d b i))
    (ha : ((s.side sd).groom g).ea b i % o.shape.1 = 0) (hp : (s.side sd).place (((s.side sd).groom g).ea b i) o.shape.1 = .loc l)
    (hecc : env.eccData = false) :
    s.retires c sd g env (((s.side sd).groom g).wx d (o.value (fromBytes ((Store.mk ((s.side sd).groom g).lmem []).bytes l o.shape.1)))).next :=
  load_retires he h (gload_loc ((s.side sd).asGroom g) g env w _ _ l ha hp hecc) (Side.keptBut_refl ..) (Side.met_grooms ..)

/-- LD of a register gives what a read of it answers, and changes no more than the read does (R12). -/
theorem load_reg {k : Nat} (h : (s.side sd).fetches g env w (.load .ld d b i)) (ha : ((s.side sd).groom g).ea b i % 8 = 0)
    (hp : (s.side sd).place (((s.side sd).groom g).ea b i) 8 = .reg k) (hl : ((s.side sd).groom g).pl ≠ 0) :
    s.retires (.ld sd g env) sd g env (((s.side sd).groom g).wx d (((s.side sd).met g env).busRead k).1).next []
      (fun j => j = k ∨ (k = Reg.DT_NOW ∧ j = Reg.DT_FRAC)) := by
  obtain ⟨kept, grooms⟩ := Side.busRead_keptBut ((s.side sd).met g env) k
  have retires := load_retires (c := .ld sd g env) (rs := fun j => j = k ∨ (k = Reg.DT_NOW ∧ j = Reg.DT_FRAC)) rfl h
    (gload_reg ((s.side sd).asGroom g) g env w _ k ha hp hl)
    (Side.keptBut_mono kept (by simp [groomPieces]) (fun _ hj => .inl hj)) (grooms.trans (Side.met_grooms ..))
  have value : LoadOp.ld.value (((s.side sd).met g env).busRead k).1.toNat = (((s.side sd).met g env).busRead k).1 := BitVec.ofNat_toNat ..
  rwa [← Side.met, value] at retires

/-- A VLD whose access answers a value and leaves the side as it met it: it retires with that value in its vector register. -/
theorem vld_retires {v : Nat} (h : (s.side sd).fetches g env w (.vld d b i))
    (ha : ((s.side sd).met g env).gload g w (((s.side sd).groom g).vea b i) 64 env = .ok (v, (s.side sd).met g env)) :
    s.retires (.vld sd g env) sd g env (((s.side sd).groom g).wv d (BitVec.ofNat 512 v)).next := by
  have hlen : g < ((s.side sd).met g env).grooms.length := by rw [Side.met_grooms]; exact h.2.2.1
  refine groomRow_does (c := .vld sd g env) rfl h (x' := ((s.side sd).met g env).retireVec g d (BitVec.ofNat 512 v)) ?_
    (Side.groom_frame env _ _ rfl) ?_ (fun j hj => ?_)
  · dsimp only
    rw [← Side.met, Side.met_groom, ha]
    rfl
  · rw [Side.retireVec_groom_same _ _ _ _ hlen, Side.met_groom]
  · rw [Side.retireVec_groom_other _ _ _ hj, Side.met_groom]

end

/-- Settles O21: each load by the place that its address leads to. -/
theorem loads : Obligations.Loads := by
  intro s sd g env w d b i x r a gives
  have row : ∀ {c : Instr} (o : LoadOp), exec c s = byGroom sd g (loadRow o g env) s → gives c o o.shape.1 o.value :=
    fun o he h ha => ⟨fun l hp hr hb => load_mem he h ha hp hr hb, fun l hp hecc => load_loc he h ha hp hecc⟩
  refine ⟨row .lb rfl, row .lh rfl, row .lw rfl, row .ld rfl, row .lbu rfl, row .lhu rfl, row .lwu rfl, ?vector, ?register⟩
  case vector =>
    intro h a ha
    exact ⟨fun l hp hr hb => vld_retires h (gload_mem (x.asGroom g) g env w a 64 l ha hp hr hb),
      fun l hp hecc => vld_retires h (gload_loc (x.asGroom g) g env w a 64 l ha hp hecc)⟩
  case register => exact fun h ha k hp hl => load_reg h ha hp hl

/-! ### Stores (R58, R65, R68, R69) -/

/-- The side that a store of Groom `g` acts on: its instruction met, and its next one to follow. -/
def Side.metNext (x : Side) (g : Nat) (env : Env) : Side := (x.met g env).advance g

theorem Side.metNext_length (x : Side) (g : Nat) (env : Env) : (x.metNext g env).grooms.length = x.grooms.length := by
  rw [Side.metNext, Side.advance_length, Side.met_grooms]

theorem Side.metNext_groom_same {x : Side} {g : Nat} (env : Env) (h : g < x.grooms.length) : (x.metNext g env).groom g = (x.groom g).next := by
  rw [Side.metNext, Side.advance_groom_same _ _ (by rwa [Side.met_grooms]), Side.met_groom]

theorem Side.metNext_groom_other (x : Side) {g j : Nat} (env : Env) (h : j ≠ g) : (x.metNext g env).groom j = x.groom j := by
  rw [Side.metNext, Side.advance_groom_other _ h, Side.met_groom]

theorem Side.metNext_place (x : Side) (g : Nat) (env : Env) (a n : Nat) : (x.metNext g env).place a n = x.place a n :=
  fetched_place (x.asGroom g) g env a n

theorem Side.metNext_writeGuarded (x : Side) (g : Nat) (env : Env) (o a n : Nat) :
    (x.metNext g env).writeGuarded o a n = x.writeGuarded o a n := fetched_writeGuarded (x.asGroom g) g env o a n

theorem Side.metNext_get (x : Side) (g : Nat) (env : Env) (m : Nat) : (x.metNext g env).mem.get m = x.mem.get m :=
  fetched_get (x.asGroom g) g env m

theorem Side.metNext_frame (x : Side) (g : Nat) (env : Env) (ps : List Piece) (rs : Nat → Prop) :
    (x.met g env).keptBut (x.metNext g env) (groomPieces env ps) (groomRegs env rs) := Side.groom_frame env ps rs rfl

theorem grooms_mem_groomPieces (env : Env) (ps : List Piece) : Piece.grooms ∈ groomPieces env ps := by simp [groomPieces]

theorem mem_groomPieces {p : Piece} {ps : List Piece} (env : Env) (h : p ∈ ps) : p ∈ groomPieces env ps := by simp [groomPieces, h]

/-- A store's row stores the low bytes of its source at rs1 + imm16. -/
theorem storeRow_stores (o : StoreOp) (x : Side) (g : Nat) (env : Env) (w d b i : Nat) :
    ∃ f : Side → GInstr → Nat → Option (Except Exc Side), storeRow o g env = (fun x => x.groomRow g env (f x)) ∧
      f (x.asGroom g) (.store o d b i) w =
        some ((x.metNext g env).gstore g w ((x.groom g).ea b i) o.width (((x.groom g).rx d).toNat % 2 ^ (8 * o.width))) := by
  refine ⟨_, rfl, ?_⟩
  dsimp only
  rw [if_pos rfl, ← Side.met, doStore, Side.met_groom]
  rfl

/-- VST's row stores its source at rs1 + imm16 · 64. -/
theorem vstRow_stores (x : Side) (g : Nat) (env : Env) (w d b i : Nat) :
    ∃ f : Side → GInstr → Nat → Option (Except Exc Side), vstRow g env = (fun x => x.groomRow g env (f x)) ∧
      f (x.asGroom g) (.vst d b i) w = some ((x.metNext g env).gstore g w ((x.groom g).vea b i) 64 ((x.groom g).rv d).toNat) := by
  refine ⟨_, rfl, ?_⟩
  dsimp only
  rw [← Side.met, Side.met_groom]
  rfl

/-- Settling looks at nothing of an agent whose effect is under way: the side after an effect is the same whoever made it. -/
theorem Side.after_acts (x z : Side) (a : Agent) : x.after (fun _ => { z with acts := a }) = x.after (fun _ => z) := rfl

section
variable {c : Instr} {k : GInstr} {s : State} {sd : SideId} {g : Nat} {env : Env} {w a n v l : Nat}
  {f : Side → GInstr → Nat → Option (Except Exc Side)}

/-- The module after the row of an instruction that retires. -/
theorem byGroom_ok {x' : Side} (he : exec c s = byGroom sd g (fun x => x.groomRow g env (f x)) s) (h : (s.side sd).fetches g env w k)
    (hf : f ((s.side sd).asGroom g) k w = some (.ok x')) :
    exec c s = .next (s.setSide sd ((s.side sd).after (fun _ =>
      (x'.lineErrors none env.errs true).leftFlight g ((s.side sd).groom g).pc w ((s.side sd).groom g).pl true))) := by
  rw [he, byGroom, onSide, State.onLive, if_pos h.1, ← Side.groomRow_ok h hf, ← Side.after_acts _ _ (s.side sd).acts]
  rfl

/-- A row whose instruction stores `v` in `n` aligned bytes of unprotected device memory writes these bytes and no other. -/
theorem store_mem (he : exec c s = byGroom sd g (fun x => x.groomRow g env (f x)) s) (h : (s.side sd).fetches g env w k)
    (hf : f ((s.side sd).asGroom g) k w = some (((s.side sd).metNext g env).gstore g w a n v))
    (ha : a % n = 0) (hp : (s.side sd).place a n = .mem l) (hw : (s.side sd).writeGuarded 0x10 l n = false) :
    s.does c sd (fun x y =>
      (∀ m, y.mem.get m = if l ≤ m ∧ m < l + n then (toBytes n v).getD (m - l) 0 else x.mem.get m) ∧
      (y.groom g).x = (x.groom g).x ∧ (y.groom g).v = (x.groom g).v ∧ (y.groom g).p = (x.groom g).p ∧ (y.groom g).ctl = (x.groom g).ctl ∧
      (y.groom g).lmem = (x.groom g).lmem ∧ (y.groom g).pc = ((x.groom g).pc + 4) % 2 ^ 64 ∧
      (∀ h, h ≠ g → (y.groom h).plain = (x.groom h).plain) ∧ x.keptByGroom y env [.cells, .poison] (fun _ => False)) := by
  have hlen : g < ((s.side sd).metNext g env).grooms.length := by rw [Side.metNext_length]; exact h.2.2.1
  obtain ⟨st, hst⟩ := gstore_mem ((s.side sd).metNext g env) g w a n v l ha
    (by rw [Side.metNext_place, hp]) (by rw [Side.metNext_writeGuarded, hw])
  have frame := (((s.side sd).metNext_frame g env [.cells, .poison] (fun _ => False)).then_setGroom g
    { ((s.side sd).metNext g env).groom g with stale := st } (grooms_mem_groomPieces ..)).then_store l (toBytes n v)
    (mem_groomPieces env (by simp)) (mem_groomPieces env (by simp))
  refine State.does_mono (groomRow_leaves he h (hf.trans (congrArg some hst)) frame) (fun y hy => ?_)
  obtain ⟨grooms, cells, kept⟩ := hy
  have own := grooms g
  rw [Side.store_groom, Side.setGroom_groom_same _ _ _ hlen, Side.metNext_groom_same env h.2.2.1] at own
  obtain ⟨hx, hv, hp, hctl, hlmem, hpc⟩ := plain_of_eq own
  refine ⟨fun m => ?_, hx, hv, hp, hctl, hlmem, hpc, fun j hj => ?_, kept⟩
  · rw [cells_get cells, Side.get_store, toBytes_length, Side.setGroom_mem, Side.metNext_get]
  · rw [grooms j, Side.store_groom, Side.setGroom_groom_other _ _ hj, Side.metNext_groom_other _ env hj]

/-- One that stores in local memory writes these bytes there and nothing else. -/
theorem store_loc (he : exec c s = byGroom sd g (fun x => x.groomRow g env (f x)) s) (h : (s.side sd).fetches g env w k)
    (hf : f ((s.side sd).asGroom g) k w = some (((s.side sd).metNext g env).gstore g w a n v))
    (ha : a % n = 0) (hp : (s.side sd).place a n = .loc l) :
    s.does c sd (fun x y =>
      (∀ m, (Store.mk (y.groom g).lmem []).get m =
        if l ≤ m ∧ m < l + n then (toBytes n v).getD (m - l) 0 else (Store.mk (x.groom g).lmem []).get m) ∧
      (y.groom g).x = (x.groom g).x ∧ (y.groom g).v = (x.groom g).v ∧ (y.groom g).p = (x.groom g).p ∧ (y.groom g).ctl = (x.groom g).ctl ∧
      (y.groom g).pc = ((x.groom g).pc + 4) % 2 ^ 64 ∧
      (∀ h, h ≠ g → (y.groom h).plain = (x.groom h).plain) ∧ x.keptByGroom y env [] (fun _ => False)) := by
  have hlen : g < ((s.side sd).metNext g env).grooms.length := by rw [Side.metNext_length]; exact h.2.2.1
  obtain ⟨st, hst⟩ := gstore_loc ((s.side sd).metNext g env) g w a n v l ha (by rw [Side.metNext_place, hp])
  have frame := ((s.side sd).metNext_frame g env [] (fun _ => False)).then_setGroom g
    ({ ((s.side sd).metNext g env).groom g with stale := st }.lstore l (toBytes n v)) (grooms_mem_groomPieces ..)
  refine State.does_mono (groomRow_leaves he h (hf.trans (congrArg some hst)) frame) (fun y hy => ?_)
  obtain ⟨grooms, _, kept⟩ := hy
  have own := grooms g
  rw [Side.setGroom_groom_same _ _ _ hlen, Side.metNext_groom_same env h.2.2.1] at own
  obtain ⟨hx, hv, hp, hctl, hlmem, hpc⟩ := plain_of_eq own
  refine ⟨fun m => ?_, hx, hv, hp, hctl, hpc, fun j hj => ?_, kept⟩
  · rw [hlmem, get_lstore, toBytes_length]
    rfl
  · rw [grooms j, Side.setGroom_groom_other _ _ hj, Side.metNext_groom_other _ env hj]

end

/-- SD keeps every bit of its source. -/
theorem sd_source (v : Word) : v.toNat % 2 ^ (8 * StoreOp.sd.width) = v.toNat := Nat.mod_eq_of_lt v.isLt

/-- SD to a register is a write of that register at the Groom's level (R12, R19). -/
theorem store_reg {s : State} {sd : SideId} {g : Nat} {env : Env} {w d b i k : Nat} {x' : Side}
    (h : (s.side sd).fetches g env w (.store .sd d b i)) (ha : ((s.side sd).groom g).ea b i % 8 = 0)
    (hp : (s.side sd).place (((s.side sd).groom g).ea b i) 8 = .reg k) (hl : ((s.side sd).groom g).pl ≠ 0)
    (hw : ((s.side sd).metNext g env).busWrite ((s.side sd).groom g).pl k (((s.side sd).groom g).rx d) = (true, x')) :
    exec (.sd sd g env) s = .next (s.setSide sd ((s.side sd).after (fun _ =>
      (x'.lineErrors none env.errs true).leftFlight g ((s.side sd).groom g).pc w ((s.side sd).groom g).pl true))) := by
  have own := Side.metNext_groom_same env h.2.2.1
  have stored := gstore_reg ((s.side sd).metNext g env) x' g w (((s.side sd).groom g).ea b i) k (((s.side sd).groom g).rx d).toNat ha
    (by rw [Side.metNext_place, hp]) (by rw [own]; exact hl) (by rw [own, BitVec.ofNat_toNat, BitVec.setWidth_eq]; exact hw)
  obtain ⟨f, hrow, hf⟩ := storeRow_stores .sd (s.side sd) g env w d b i
  rw [sd_source] at hf
  exact byGroom_ok (congrArg (fun f => byGroom sd g f s) hrow) h (hf.trans (congrArg some stored))

/-- Settles O22: each store by the place that its address leads to. -/
theorem stores : Obligations.Stores := by
  intro s sd g env w d b i x r gives a
  have row : ∀ {c : Instr} (o : StoreOp), exec c s = byGroom sd g (storeRow o g env) s →
      gives c (.store o d b i) a o.width ((r.rx d).toNat % 2 ^ (8 * o.width)) := by
    intro c o he h ha
    obtain ⟨f, hrow, hf⟩ := storeRow_stores o x g env w d b i
    rw [hrow] at he
    exact ⟨fun l hp hw => store_mem he h hf ha hp hw, fun l hp => store_loc he h hf ha hp⟩
  refine ⟨row .sb rfl, row .sh rfl, row .sw rfl, sd_source (r.rx d) ▸ row .sd rfl, ?vector, fun h ha k x' hp hl hw => store_reg h ha hp hl hw⟩
  case vector =>
    intro h ha
    obtain ⟨f, hrow, hf⟩ := vstRow_stores x g env w d b i
    have he : exec (.vst sd g env) s = byGroom sd g (fun x => x.groomRow g env (f x)) s := congrArg (fun f => byGroom sd g f s) hrow
    exact ⟨fun l hp hw => store_mem he h hf ha hp hw, fun l hp => store_loc he h hf ha hp⟩

end Sys2Proof.Machine

/-!
Sensor ingress: what a write of a register of ingress, Transit or Gait that turns it on or off leaves, and what a packet that becomes readable
may touch.
-/
namespace Sys2Proof.Machine

/-! ### The registers of ingress, Transit and Gait at the bus (R243, R287, R289) -/

theorem regWrite_IN_SCFG {i : Nat} (x : Side) (level : Nat) (r : RegSpec) (v : Word) (hi : i < 32) :
    x.regWrite level (Reg.IN_SCFG i) r v = x.slotWrite i v := by
  have unit : Reg.IN_SCFG i / 0x1000000 = 0x05 := by unfold Reg.IN_SCFG; omega
  have off : Reg.IN_SCFG i % 0x10000 = 0x1000 + 0x80 * i := by unfold Reg.IN_SCFG; omega
  simp only [Side.regWrite, unit, Side.ingressWrite, off]
  rw [if_pos (by omega), if_pos (by omega), show (0x1000 + 0x80 * i - 0x1000) / 0x80 = i by omega]

theorem regWrite_IN_LPTR {i : Nat} (x : Side) (level : Nat) (r : RegSpec) (v : Word) (hi : i < 32) :
    x.regWrite level (Reg.IN_LPTR i) r v = x.landRelease i v := by
  have unit : Reg.IN_LPTR i / 0x1000000 = 0x05 := by unfold Reg.IN_LPTR; omega
  have off : Reg.IN_LPTR i % 0x10000 = 0x1048 + 0x80 * i := by unfold Reg.IN_LPTR; omega
  simp only [Side.regWrite, unit, Side.ingressWrite, off]
  rw [if_pos (by omega), if_neg (by omega), if_neg (by omega), if_pos (by omega), show (0x1048 + 0x80 * i - 0x1000) / 0x80 = i by omega]

theorem regWrite_TR_SCFG {i : Nat} (x : Side) (level : Nat) (r : RegSpec) (v : Word) (hi : i < 32) :
    x.regWrite level (Reg.TR_SCFG i) r v = x.streamWrite i v := by
  have unit : Reg.TR_SCFG i / 0x1000000 = 0x06 := by unfold Reg.TR_SCFG; omega
  have off : Reg.TR_SCFG i % 0x10000 = 0x1000 + 0x40 * i := by unfold Reg.TR_SCFG; omega
  simp only [Side.regWrite, unit, Side.transitWrite, off]
  rw [if_neg (by unfold Reg.TR_SCFG Reg.TR_CTRL; omega),
    if_neg (by unfold Reg.TR_SCFG Reg.TR_FRAME Reg.TR_PHASE Reg.TR_REV; omega), if_pos (by omega), if_pos (by omega),
    show (0x1000 + 0x40 * i - 0x1000) / 0x40 = i by omega]

/-- A write of TR_CTRL that turns Transit on. -/
theorem regWrite_TR_CTRL_on {x : Side} (level : Nat) (r : RegSpec) {v : Word} (hv : v.flag 0 = true)
    (hx : (x.clearBits Reg.TR_CTRL r v).flag Reg.TR_CTRL 0 = false) :
    x.regWrite level Reg.TR_CTRL r v = (x.clearBits Reg.TR_CTRL r v).transitEnable := by
  show (if v.flag 0 = (x.clearBits Reg.TR_CTRL r v).flag Reg.TR_CTRL 0 then _ else if v.flag 0 = true then _ else _) = _
  rw [if_neg (by simp [hv, hx]), if_pos hv]

/-- A write of GT_CTRL that asks for Gait to be on. -/
theorem regWrite_GT_CTRL_on {x : Side} (level : Nat) (r : RegSpec) {v : Word} (hv : v.flag 0 = true)
    (hx : (x.clearBits Reg.GT_CTRL r v).flag Reg.GT_CTRL 0 = false) :
    x.regWrite level Reg.GT_CTRL r v = (x.clearBits Reg.GT_CTRL r v).gaitEnable := by
  show (if v.flag 0 = (x.clearBits Reg.GT_CTRL r v).flag Reg.GT_CTRL 0 then _ else if v.flag 0 = true then _ else _) = _
  rw [if_neg (by simp [hv, hx]), if_pos hv]

theorem flag_put_enable (v : Word) : (v.put 0 1 1).flag 0 = true := by rw [Word.flag_put_same _ _ (by decide)]; rfl

theorem flag_put_disable (v : Word) : (v.put 0 1 0).flag 0 = false := by rw [Word.flag_put_same _ _ (by decide)]; rfl

/-- Clearing W1C bits of a register changes no other bit of the register file. -/
theorem clearBits_flag_other (x : Side) (k : Nat) (r : RegSpec) (v : Word) (j : Nat) {b : Nat} (hb : b < 64)
    (h : r.w1c.testBit b = false) : (x.clearBits k r v).flag j b = x.flag j b := by
  by_cases hj : j = k
  · subst hj
    exact clearBits_flag x j r v hb h
  · unfold Side.flag
    rw [(Side.clearBits_keptBut x k r v).2.2.2 j hj]

/-- What settling does to commands and Grooms is in no frame (R82, R130). -/
theorem Side.swap_keptBut {z : Side} {o : List Op} {g : List Groom} (ho : o.map Op.plain = z.ops.map Op.plain)
    (hg : g.map Groom.plain = z.grooms.map Groom.plain) (ps : List Piece) (rs : Nat → Prop) : z.keptBut (z.swap o g) ps rs := by
  refine ⟨rfl, rfl, fun p _ => ?_, fun _ _ => rfl⟩
  cases p
  case ops => exact ho
  case grooms => exact hg
  all_goals rfl

/-! ### Ingress slots (R213 to R217, R234) -/

theorem Side.onSlot_slot_same {x : Side} {i : Nat} (f : Slot → Slot) (h : i < x.ing.slots.length) :
    (x.onSlot i f).slot i = f (x.slot i) := by
  simp [Side.slot, Side.onSlot, Side.inSet, setAt, List.getD_eq_getElem?_getD, h]

@[simp] theorem Side.swap_slot (x : Side) (o : List Op) (g : List Groom) (i : Nat) : (x.swap o g).slot i = x.slot i := rfl
@[simp] theorem Side.wr_slot (x : Side) (k : Nat) (v : Word) (i : Nat) : (x.wr k v).slot i = x.slot i := rfl
@[simp] theorem Side.put_slot (x : Side) (k lo n v i : Nat) : (x.put k lo n v).slot i = x.slot i := rfl

@[simp] theorem Side.onSlot_slots_length (x : Side) (i : Nat) (f : Slot → Slot) : (x.onSlot i f).ing.slots.length = x.ing.slots.length :=
  List.length_set

theorem IN_SCFG_ne_SCHAIN (i : Nat) : Reg.IN_SCFG i ≠ Reg.IN_SCHAIN i := by unfold Reg.IN_SCFG Reg.IN_SCHAIN; omega
theorem IN_SCFG_ne_LPTR (i : Nat) : Reg.IN_SCFG i ≠ Reg.IN_LPTR i := by unfold Reg.IN_SCFG Reg.IN_LPTR; omega
theorem IN_SCHAIN_ne_LPTR (i : Nat) : Reg.IN_SCHAIN i ≠ Reg.IN_LPTR i := by unfold Reg.IN_SCHAIN Reg.IN_LPTR; omega
theorem IN_SCFG_ne_SSTAT (i : Nat) : Reg.IN_SCFG i ≠ Reg.IN_SSTAT i := by unfold Reg.IN_SCFG Reg.IN_SSTAT; omega

/-- What an enabling leaves of a slot: an empty one, with its next number and the spans of its earlier enablings (R217, R219). -/
def Slot.restarted (q : Slot) (now : Nat) : Slot := { Slot.reset with since := now, gen := q.gen + 1, spans := q.spans }

/-- A side with slot `i` started with the configuration `v` (R217). -/
def Side.slotStarted (x : Side) (i : Nat) (v : Word) : Side :=
  (((x.wr (Reg.IN_SCFG i) v).onSlot i (fun q => q.restarted x.now)).wr (Reg.IN_SCHAIN i) 0).wr (Reg.IN_LPTR i) 0

theorem slotWrite_starts {x : Side} {i : Nat} {v : Word} (off : x.slotOn i = false) (ok : x.slotCfgOk i (v.put 0 1 1) = true) :
    x.slotWrite i (v.put 0 1 1) = x.slotStarted i (v.put 0 1 1) := by
  unfold Side.slotWrite Side.slotEnable Side.slotStarted
  rw [if_neg (by simp [off]), if_pos (flag_put_enable v), if_pos ok, put_put]
  rfl

theorem slotStarted_keptBut (x : Side) (i : Nat) (v : Word) :
    x.keptBut (x.slotStarted i v) [.ing] (fun k => k = Reg.IN_SCFG i ∨ k = Reg.IN_SCHAIN i ∨ k = Reg.IN_LPTR i) :=
  ((((Side.keptBut_refl x _ _).thenWr (.inl rfl)).then_onSlot i _ (by simp)).thenWr (.inr (.inl rfl))).thenWr (.inr (.inr rfl))

theorem slotStarted_slot {x : Side} {i : Nat} (v : Word) (h : i < x.ing.slots.length) :
    (x.slotStarted i v).slot i = (x.slot i).restarted x.now := by
  unfold Side.slotStarted
  rw [Side.wr_slot, Side.wr_slot, Side.onSlot_slot_same _ (by simpa using h), Side.wr_slot]

theorem slotStarted_SCFG (x : Side) (i : Nat) (v : Word) : (x.slotStarted i v).rd (Reg.IN_SCFG i) = v := by
  unfold Side.slotStarted
  rw [Side.rd_wr_other _ _ (IN_SCFG_ne_LPTR i), Side.rd_wr_other _ _ (IN_SCFG_ne_SCHAIN i), Side.onSlot_rd, Side.rd_wr_same]

theorem slotStarted_SCHAIN (x : Side) (i : Nat) (v : Word) : (x.slotStarted i v).rd (Reg.IN_SCHAIN i) = 0 := by
  unfold Side.slotStarted
  rw [Side.rd_wr_other _ _ (IN_SCHAIN_ne_LPTR i), Side.rd_wr_same]

theorem slotStarted_LPTR (x : Side) (i : Nat) (v : Word) : (x.slotStarted i v).rd (Reg.IN_LPTR i) = 0 := Side.rd_wr_same ..

theorem discard_keptBut (x : Side) (i lo : Nat) : x.keptBut (x.discard i lo) [.ing] (fun k => k = Reg.IN_SSTAT i) :=
  Side.keptBut.then_onSlot i _ (Side.keptBut.thenCount (k := Reg.IN_SSTAT i) (Side.keptBut_refl ..) rfl) (by simp)

@[simp] theorem discard_slots_length (x : Side) (i lo : Nat) : (x.discard i lo).ing.slots.length = x.ing.slots.length :=
  Side.onSlot_slots_length ..

/-- A sample without a stamp is counted where its slot's stamps come with its frames (R221, R227). -/
def Side.stampCounted (x : Side) (i : Nat) (m : Sample) : Side :=
  if m.noStamp ∧ x.kind i ≤ 1 then x.count (Reg.IN_SSTAT i) 0 16 else x

theorem stampCounted_keptBut (x : Side) (i : Nat) (m : Sample) :
    x.keptBut (x.stampCounted i m) [.ing] (fun k => k = Reg.IN_SSTAT i) := by
  unfold Side.stampCounted
  split
  · exact (Side.keptBut_refl ..).thenCount rfl
  · exact Side.keptBut_refl ..

@[simp] theorem stampCounted_ing (x : Side) (i : Nat) (m : Sample) : (x.stampCounted i m).ing = x.ing := by
  unfold Side.stampCounted
  split <;> rfl

/-- A sample that ends is discarded, or its slot alone changes (R227, R235, R237). -/
theorem sampleEnd_cases (x : Side) (i : Nat) (m : Sample) (noFe : Bool) :
    x.sampleEnd i m noFe = (x.stampCounted i m).discard i 48 ∨
      ∃ f : Slot → Slot, x.sampleEnd i m noFe = (x.stampCounted i m).onSlot i f := by
  unfold Side.sampleEnd
  rw [← Side.stampCounted]
  cases m.start with
  | some st =>
    dsimp only
    split
    · exact .inl rfl
    · exact .inr ⟨_, rfl⟩
  | none =>
    dsimp only
    split
    · exact .inl rfl
    · exact .inr ⟨_, rfl⟩

theorem sampleEnd_keptBut (x : Side) (i : Nat) (m : Sample) (noFe : Bool) :
    x.keptBut (x.sampleEnd i m noFe) [.ing] (fun k => k = Reg.IN_SSTAT i) := by
  rcases sampleEnd_cases x i m noFe with h | ⟨f, h⟩ <;> rw [h]
  · exact Side.keptBut_trans (stampCounted_keptBut ..) (discard_keptBut ..)
  · exact (stampCounted_keptBut ..).then_onSlot i f (by simp)

theorem sampleEnd_slots_length (x : Side) (i : Nat) (m : Sample) (noFe : Bool) :
    (x.sampleEnd i m noFe).ing.slots.length = x.ing.slots.length := by
  rcases sampleEnd_cases x i m noFe with h | ⟨f, h⟩ <;> rw [h] <;> simp

/-- What the disabling of slot `i` does with its sample in progress before it is withdrawn: a camera frame of which bytes have come may
be closed (R217, log entry 104). -/
def Side.sampleCut (x : Side) (i : Nat) : Side :=
  match (x.slot i).prog with
  | some m => if x.kind i = 0 ∧ m.bytes ≠ [] then (if Config.freeBool x.draw.1 then x.draw.2.sampleEnd i m true else x.draw.2) else x
  | none => x

theorem sampleCut_keptBut (x : Side) (i : Nat) : x.keptBut (x.sampleCut i) [.ing, .fresh] (fun k => k = Reg.IN_SSTAT i) := by
  have drawn : x.keptBut x.draw.2 [.ing, .fresh] (fun k => k = Reg.IN_SSTAT i) := (Side.keptBut_refl ..).then_draw (by simp)
  unfold Side.sampleCut
  split
  · split
    · split
      · exact drawn.of (sampleEnd_keptBut ..) (by simp) (fun _ h => h)
      · exact drawn
    · exact Side.keptBut_refl ..
  · exact Side.keptBut_refl ..

theorem sampleCut_slots_length (x : Side) (i : Nat) : (x.sampleCut i).ing.slots.length = x.ing.slots.length := by
  unfold Side.sampleCut
  split
  · split
    · split
      · exact sampleEnd_slots_length ..
      · rfl
    · rfl
  · rfl

/-- A sample that is not a camera frame of which bytes have come is not closed. -/
theorem sampleCut_of_withdrawn {x : Side} {i : Nat} (h : ∀ m, (x.slot i).prog = some m → x.kind i ≠ 0 ∨ m.bytes = []) :
    x.sampleCut i = x := by
  unfold Side.sampleCut
  split
  next m hm => exact if_neg (fun ⟨hk, hb⟩ => (h m hm).elim (· hk) hb)
  next => rfl

/-- A slot whose sample is withdrawn at `now`, and which remembers since when and with which registers it was on (R217, R219). -/
def Slot.stopped (q : Slot) (now since scfg reg : Nat) : Slot :=
  { q with prog := none, spans := (q.spans.filter (fun e => decide (now < e.2.1 + 10000000))) ++ [(since, now, scfg, reg)] }

/-- A side with slot `i` stopped. -/
def Side.slotStopped (x : Side) (i : Nat) : Side :=
  (x.put (Reg.IN_SCFG i) 0 1 0).onSlot i (fun q =>
    q.stopped x.now (x.slot i).since (x.rd (Reg.IN_SCFG i)).toNat (x.matchReg i))

theorem slotWrite_stops {x : Side} {i : Nat} (v : Word) (on : x.slotOn i = true) :
    x.slotWrite i (v.put 0 1 0) = (x.sampleCut i).slotStopped i := by
  unfold Side.slotWrite
  rw [if_pos on, if_neg (by simp [flag_put_disable])]
  rfl

theorem slotStopped_keptBut (x : Side) (i : Nat) : x.keptBut (x.slotStopped i) [.ing] (fun k => k = Reg.IN_SCFG i) :=
  Side.keptBut.then_onSlot i _ (Side.keptBut.thenPut (k := Reg.IN_SCFG i) (Side.keptBut_refl ..) rfl) (by simp)

theorem slotStopped_slot {x : Side} {i : Nat} (h : i < x.ing.slots.length) :
    (x.slotStopped i).slot i = (x.slot i).stopped x.now (x.slot i).since (x.rd (Reg.IN_SCFG i)).toNat (x.matchReg i) := by
  unfold Side.slotStopped
  rw [Side.onSlot_slot_same _ (by simpa using h), Side.put_slot]

theorem slotStopped_SCFG (x : Side) (i : Nat) : (x.slotStopped i).rd (Reg.IN_SCFG i) = (x.rd (Reg.IN_SCFG i)).put 0 1 0 := by
  unfold Side.slotStopped
  rw [Side.onSlot_rd, Side.put, Side.rd_wr_same]

/-- RELEASE moves within what has been written (R234). -/
theorem landRelease_moves {x : Side} {i : Nat} {v : Word}
    (h : (v.fld 32 32 + 2 ^ 32 - x.fld (Reg.IN_LPTR i) 32 32) % 2 ^ 32 ≤
      (x.fld (Reg.IN_LPTR i) 0 32 + 2 ^ 32 - x.fld (Reg.IN_LPTR i) 32 32) % 2 ^ 32) :
    x.landRelease i v = x.put (Reg.IN_LPTR i) 32 32 (v.fld 32 32) := if_pos h

/-- RELEASE beyond what has been written is an error (R234). -/
theorem landRelease_refuses {x : Side} {i : Nat} {v : Word}
    (h : (x.fld (Reg.IN_LPTR i) 0 32 + 2 ^ 32 - x.fld (Reg.IN_LPTR i) 32 32) % 2 ^ 32 <
      (v.fld 32 32 + 2 ^ 32 - x.fld (Reg.IN_LPTR i) 32 32) % 2 ^ 32) :
    x.landRelease i v = x.inErr := if_neg (Nat.not_le.mpr h)

/-! ### Transit (R249, R270, R288) -/

theorem boundaryFrom_congr {x y : Side} (hf : y.rd Reg.TR_FRAME = x.rd Reg.TR_FRAME) (hp : y.rd Reg.TR_PHASE = x.rd Reg.TR_PHASE) (t : Nat) :
    y.boundaryFrom t = x.boundaryFrom t := by
  unfold Side.boundaryFrom Side.framePeriod Side.framePhase Side.fld
  rw [hf, hp]

theorem transitEnable_keptBut (x : Side) : x.keptBut x.transitEnable [.tr] (fun k => k = Reg.TR_CTRL) :=
  Side.keptBut.then_trSet _ (Side.keptBut.thenPut (k := Reg.TR_CTRL) (Side.keptBut_refl ..) rfl) (by simp)

theorem transitEnable_flag (x : Side) : x.transitEnable.flag Reg.TR_CTRL 0 = true := by
  unfold Side.transitEnable
  rw [Side.trSet_flag, Side.flag_put_same _ _ _ (by decide)]
  rfl

theorem Side.onStream_stream_same {x : Side} {i : Nat} (f : TrStream → TrStream) (h : i < x.tr.streams.length) :
    (x.onStream i f).stream i = f (x.stream i) := by
  simp [Side.stream, Side.onStream, Side.trSet, setAt, List.getD_eq_getElem?_getD, h]

theorem Side.onStream_stream_other (x : Side) {i j : Nat} (f : TrStream → TrStream) (h : j ≠ i) : (x.onStream i f).stream j = x.stream j := by
  simp [Side.stream, Side.onStream, Side.trSet, setAt, List.getD_eq_getElem?_getD, List.getElem?_set_ne (Ne.symm h)]

@[simp] theorem Side.onStream_streams_length (x : Side) (i : Nat) (f : TrStream → TrStream) :
    (x.onStream i f).tr.streams.length = x.tr.streams.length := List.length_set

@[simp] theorem Side.swap_stream (x : Side) (o : List Op) (g : List Groom) (i : Nat) : (x.swap o g).stream i = x.stream i := rfl
@[simp] theorem Side.wr_stream (x : Side) (k : Nat) (v : Word) (i : Nat) : (x.wr k v).stream i = x.stream i := rfl
@[simp] theorem Side.put_stream (x : Side) (k lo n v i : Nat) : (x.put k lo n v).stream i = x.stream i := rfl
@[simp] theorem Side.trCut_stream (x : Side) (i : Nat) : x.trCut.stream i = x.stream i := rfl

theorem Side.trCut_keptBut (x : Side) (rs : Nat → Prop) : x.keptBut x.trCut [.tr, .gt] rs :=
  ((Side.keptBut_refl ..).then_trSet _ (by simp)).then_gtSet _ (by simp)

/-- An enabled stream that has seen nothing, its state to be recorded (R270, R288). -/
def TrStream.restarted (t : TrStream) : TrStream := { t with kept := [], posted := [], hist := [], lastChain := none }

/-- A side with stream `i` started with the configuration `v`: it is LAME with no sample seen in a row (R270). -/
def Side.streamStarted (x : Side) (i : Nat) (v : Word) : Side :=
  (((x.wr (Reg.TR_SCFG i) v).onStream i TrStream.restarted).streamTo i 2).put (Reg.TR_SSTAT i) 0 5 0

theorem streamWrite_starts {x : Side} {i : Nat} {v : Word} (off : x.streamOn i = false) (on : v.flag 0 = true)
    (ok : x.streamCfgOk i v = true) : x.streamWrite i v = x.trCut.streamStarted i v := by
  have cutOff : x.trCut.streamOn i = false := off
  have cutOk : x.trCut.streamCfgOk i v = true := ok
  unfold Side.streamWrite
  dsimp only
  rw [if_neg (by simp [cutOff]), if_pos on, if_pos cutOk]
  rfl

theorem streamTo_keptBut (x : Side) (i st : Nat) : x.keptBut (x.streamTo i st) [.tr] (fun k => k = Reg.TR_SSTAT i) :=
  Side.keptBut.then_onStream i _ (Side.keptBut.thenPut (k := Reg.TR_SSTAT i) (Side.keptBut_refl ..) rfl) (by simp)

theorem streamStarted_keptBut (x : Side) (i : Nat) (v : Word) :
    x.keptBut (x.streamStarted i v) [.tr] (fun k => k = Reg.TR_SCFG i ∨ k = Reg.TR_SSTAT i) :=
  ((((Side.keptBut_refl ..).thenWr (.inl rfl)).then_onStream i _ (by simp)).of (streamTo_keptBut ..) (fun _ h => h) (fun _ h => .inr h)).thenPut
    (.inr rfl)

theorem streamStarted_SCFG (x : Side) (i : Nat) (v : Word) : (x.streamStarted i v).rd (Reg.TR_SCFG i) = v := by
  have other : Reg.TR_SCFG i ≠ Reg.TR_SSTAT i := by unfold Reg.TR_SCFG Reg.TR_SSTAT; omega
  unfold Side.streamStarted
  rw [Side.rd_put_other _ _ _ _ other, (streamTo_keptBut ..).2.2.2 _ other, Side.onStream_rd, Side.rd_wr_same]

theorem streamStarted_stream {x : Side} {i : Nat} (v : Word) (h : i < x.tr.streams.length) :
    (x.streamStarted i v).stream i = { (x.stream i).restarted with hist := [(x.now, 2)] } := by
  unfold Side.streamStarted Side.streamTo
  rw [Side.put_stream, Side.onStream_stream_same _ (by simpa using h), Side.put_stream, Side.onStream_stream_same _ (by simpa using h),
    Side.wr_stream]
  rfl

theorem streamStarted_stream_other (x : Side) {i j : Nat} (v : Word) (h : j ≠ i) : (x.streamStarted i v).stream j = x.stream j := by
  unfold Side.streamStarted Side.streamTo
  rw [Side.put_stream, Side.onStream_stream_other _ _ h, Side.put_stream, Side.onStream_stream_other _ _ h, Side.wr_stream]

/-! ### Gait (R280) -/

/-- Gait with nothing left of before: at the origin, at rest, unturned. -/
def Gait.atOrigin (g : Gait) : Prop := g.p = [0, 0, 0] ∧ g.v = [0, 0, 0] ∧ g.q = [0x3FF0_0000_0000_0000, 0, 0, 0]

/-- The streams that GT_IN names (R276). -/
def Side.gaitStreams (x : Side) : List Nat :=
  (if x.flag Reg.GT_IN 7 then [x.fld Reg.GT_IN 0 5] else []) ++ x.wheelSlots ++ (if x.flag Reg.GT_IN 23 then [x.fld Reg.GT_IN 16 5] else [])

/-- The start of the ring of pose records that GT_HIST places (R281). -/
def Side.poseRing (x : Side) : Nat := x.fld Reg.GT_HIST 17 47 * 2 ^ 17

/-- The configuration with which an enabling of Gait is accepted (R280, R289); `gaitEnable_accepted` and `gaitEnable_refused` tie it to
the model. -/
def Side.gaitAccepts (x : Side) : Prop :=
  x.gaitStreams.all (fun i => x.streamOn i && !x.streamFrame i) ∧
    (!(x.flag Reg.GT_IN 7) || decide (6 ≤ x.fld (Reg.TR_SCFG (x.fld Reg.GT_IN 0 5)) 8 5)) = true ∧
    x.wheelSlots.length ≤ 4 ∧ (!(x.flag Reg.GT_IN 23) || x.fld Reg.GT_VEH 0 32 != 0) = true ∧
    500000 ≤ x.fld Reg.GT_PER 32 32 ∧ x.fld Reg.GT_PER 32 32 ≤ 10000000 ∧ x.fld Reg.GT_PER 0 32 ≤ x.fld Reg.GT_PER 32 32 ∧
    x.poseRing < 2 ^ 47 ∧ 0x3000_0000_0000 ≤ x.poseRing % 2 ^ 46 ∧ x.poseRing % 2 ^ 46 + 2 ^ 17 ≤ 0x3000_0400_0000

/-- An enabling of Gait that is accepted starts its state and GT_SEQ anew. -/
theorem gaitEnable_accepted {x : Side} (h : x.gaitAccepts) :
    ∃ (g : Gait) (k : Nat), g.atOrigin ∧ x.gaitEnable = ((x.put Reg.GT_CTRL 0 1 1).gtSet (fun _ => g)).put Reg.GT_SEQ 0 32 k := by
  have one : to64 (FVal.ofInt 1) = 0x3FF0_0000_0000_0000 := by decide +kernel
  exact ⟨_, _, ⟨rfl, rfl, congrArg (fun n => [n, 0, 0, 0]) one⟩, if_pos h⟩

theorem gaitEnable_refused {x : Side} (h : ¬ x.gaitAccepts) : x.gaitEnable = x.gtErr := if_neg h

theorem gaitEnable_keptBut (x : Side) : x.keptBut x.gaitEnable [.gt] (fun k => k = Reg.GT_CTRL ∨ k = Reg.GT_SEQ) := by
  by_cases h : x.gaitAccepts
  · obtain ⟨g, k, -, started⟩ := gaitEnable_accepted h
    rw [started]
    exact (((Side.keptBut_refl ..).thenPut (.inl rfl)).then_gtSet _ (by simp)).thenPut (.inr rfl)
  · rw [gaitEnable_refused h]
    exact (Side.keptBut_refl ..).thenPut (.inl rfl)

/-- Gait that is on after an enabling, and was off before, was enabled with a configuration that is accepted. -/
theorem gaitAccepts_of_on {x : Side} (off : x.flag Reg.GT_CTRL 0 = false) (on : x.gaitEnable.flag Reg.GT_CTRL 0 = true) : x.gaitAccepts := by
  by_cases h : x.gaitAccepts
  · exact h
  · rw [gaitEnable_refused h, Side.gtErr, Side.flag_put_field _ _ _ (by decide) (by decide), off] at on
    exact absurd on (by decide)

/-- What an enabling accepts depends on no bit of GT_CTRL but those that bear on a stream (bits 0 and 1 of TR_SCFG). -/
theorem gaitAccepts_of_agree {x z : Side} (rd : ∀ k, k ≠ Reg.GT_CTRL → z.rd k = x.rd k) (on : ∀ k, z.flag k 0 = x.flag k 0)
    (frame : ∀ k, z.flag k 1 = x.flag k 1) (h : x.gaitAccepts) : z.gaitAccepts := by
  have fld : ∀ k lo n, k ≠ Reg.GT_CTRL → z.fld k lo n = x.fld k lo n := fun k lo n hk => by unfold Side.fld; rw [rd k hk]
  have input : ∀ j, z.flag Reg.GT_IN j = x.flag Reg.GT_IN j := fun j => by unfold Side.flag; rw [rd _ (by decide)]
  have imu : Reg.TR_SCFG (x.fld Reg.GT_IN 0 5) ≠ Reg.GT_CTRL := by
    have : x.fld Reg.GT_IN 0 5 < 32 := bits_lt _ _ 5
    unfold Reg.TR_SCFG Reg.GT_CTRL
    omega
  have wheels : z.wheelSlots = x.wheelSlots := by simp only [Side.wheelSlots, input]
  have streams : z.gaitStreams = x.gaitStreams := by
    unfold Side.gaitStreams
    rw [wheels, input, input, fld _ _ _ (by decide), fld _ _ _ (by decide)]
  have ring : z.poseRing = x.poseRing := by unfold Side.poseRing; rw [fld _ _ _ (by decide)]
  unfold Side.gaitAccepts Side.streamOn Side.streamFrame at *
  rw [streams, wheels, ring, input, input, fld Reg.GT_IN _ _ (by decide), fld _ _ _ imu, fld Reg.GT_VEH _ _ (by decide),
    fld Reg.GT_PER _ _ (by decide), fld Reg.GT_PER _ _ (by decide)]
  simp only [on, frame]
  exact h

/-! ### Enabling and disabling (O13) -/

section
variable {s : State} {sd : SideId} {level i : Nat} {v : Word}

/-- An accepted enabling of a slot starts it (R215 to R217). -/
theorem ingressStreamEnable_does (hi : i < 32) (hlen : i < (s.side sd).ing.slots.length)
    (takes : (s.side sd).takes level (Reg.IN_SCFG i) (v.put 0 1 1)) (off : (s.side sd).slotOn i = false)
    (ok : (s.side sd).slotCfgOk i (v.put 0 1 1) = true) :
    s.does (.ingressStreamEnable sd level i v) sd (fun x y =>
      y.rd (Reg.IN_SCFG i) = v.put 0 1 1 ∧ (y.slot i).words = [] ∧ (y.slot i).prog = none ∧ y.rd (Reg.IN_SCHAIN i) = 0 ∧
      y.rd (Reg.IN_LPTR i) = 0 ∧
      x.keptBut y [.ing] (fun k => k = Reg.IN_SCFG i ∨ k = Reg.IN_SCHAIN i ∨ k = Reg.IN_LPTR i)) := by
  refine wreg_settles takes rfl (specOf_IN_SCFG hi) ((regWrite_IN_SCFG _ _ _ _ hi).trans (slotWrite_starts off ok))
    (slotStarted_keptBut ..) (fun o g _ _ kept => ?_)
  simp only [Side.swap_rd, Side.swap_slot, slotStarted_slot _ hlen]
  exact ⟨slotStarted_SCFG .., rfl, rfl, slotStarted_SCHAIN .., slotStarted_LPTR .., kept⟩

/-- A disabling of a slot withdraws its sample in progress (R217). -/
theorem ingressStreamDisable_does (hi : i < 32) (hlen : i < (s.side sd).ing.slots.length)
    (takes : (s.side sd).takes level (Reg.IN_SCFG i) (v.put 0 1 0)) (on : (s.side sd).slotOn i = true) :
    s.does (.ingressStreamDisable sd level i v) sd (fun x y =>
      y.rd (Reg.IN_SCFG i) = (x.rd (Reg.IN_SCFG i)).put 0 1 0 ∧ (y.slot i).prog = none ∧
      x.keptBut y [.ing, .fresh] (fun k => k = Reg.IN_SCFG i ∨ k = Reg.IN_SSTAT i) ∧
      ((∀ m, (x.slot i).prog = some m → x.kind i ≠ 0 ∨ m.bytes = []) →
        (y.slot i).words = (x.slot i).words ∧ (y.slot i).pend = (x.slot i).pend ∧
        x.keptBut y [.ing] (fun k => k = Reg.IN_SCFG i))) := by
  have cut := sampleCut_keptBut (s.side sd) i
  have cutLen : i < ((s.side sd).sampleCut i).ing.slots.length := (sampleCut_slots_length ..).symm ▸ hlen
  refine wreg_settles takes rfl (specOf_IN_SCFG hi) ((regWrite_IN_SCFG _ _ _ _ hi).trans (slotWrite_stops v on))
    (Side.keptBut_trans (Side.keptBut_mono cut (fun _ h => h) (fun _ h => Or.inr h))
      (Side.keptBut_mono (slotStopped_keptBut ..) (by simp) (fun _ h => Or.inl h))) (fun o g ho hg kept => ?_)
  simp only [Side.swap_rd, Side.swap_slot, slotStopped_slot cutLen, slotStopped_SCFG, cut.2.2.2 _ (IN_SCFG_ne_SSTAT i)]
  refine ⟨trivial, rfl, kept, fun withdrawn => ?_⟩
  rw [sampleCut_of_withdrawn withdrawn] at ho hg ⊢
  exact ⟨rfl, rfl, Side.keptBut_trans (slotStopped_keptBut ..) (Side.swap_keptBut ho hg ..)⟩

/-- RELEASE moves where the write does not take it past WRITE (R234). -/
theorem landingReleaseWrite_moves (hi : i < 32) (takes : (s.side sd).takes level (Reg.IN_LPTR i) v)
    (within : (v.fld 32 32 + 2 ^ 32 - (s.side sd).fld (Reg.IN_LPTR i) 32 32) % 2 ^ 32 ≤
      ((s.side sd).fld (Reg.IN_LPTR i) 0 32 + 2 ^ 32 - (s.side sd).fld (Reg.IN_LPTR i) 32 32) % 2 ^ 32) :
    s.does (.landingReleaseWrite sd level i v) sd (fun x y =>
      y.fld (Reg.IN_LPTR i) 32 32 = v.fld 32 32 ∧ y.fld (Reg.IN_LPTR i) 0 32 = x.fld (Reg.IN_LPTR i) 0 32 ∧
      x.keptBut y [] (fun k => k = Reg.IN_LPTR i)) := by
  refine wreg_settles takes rfl (specOf_IN_LPTR hi) ((regWrite_IN_LPTR _ _ _ _ hi).trans (landRelease_moves within))
    (Side.put_keptBut ..) (fun o g _ _ kept => ⟨?_, ?_, kept⟩)
  · rw [Side.swap_fld, Side.fld_put_same _ _ _ (by decide)]
    exact Nat.mod_eq_of_lt (bits_lt ..)
  · rw [Side.swap_fld, Side.fld_put_field _ _ _ (by decide) (by decide)]

/-- RELEASE does not move past WRITE, and the write is an error (R234). -/
theorem landingReleaseWrite_refused (hi : i < 32) (takes : (s.side sd).takes level (Reg.IN_LPTR i) v)
    (beyond : ((s.side sd).fld (Reg.IN_LPTR i) 0 32 + 2 ^ 32 - (s.side sd).fld (Reg.IN_LPTR i) 32 32) % 2 ^ 32 <
      (v.fld 32 32 + 2 ^ 32 - (s.side sd).fld (Reg.IN_LPTR i) 32 32) % 2 ^ 32) :
    s.does (.landingReleaseWrite sd level i v) sd (fun x y =>
      y.flag Reg.IN_STATUS 0 = true ∧ x.keptBut y [] (fun k => k = Reg.IN_STATUS)) := by
  refine wreg_settles takes rfl (specOf_IN_LPTR hi) ((regWrite_IN_LPTR _ _ _ _ hi).trans (landRelease_refuses beyond))
    (Side.put_keptBut ..) (fun o g _ _ kept => ⟨?_, kept⟩)
  rw [Side.swap_flag, Side.inErr, Side.flag_put_same _ _ _ (by decide)]
  rfl

/-- An enabling of Transit that was off: its next frame is the next to begin, and no frame is closed (R249). -/
theorem transitEnable_does (takes : (s.side sd).takes level Reg.TR_CTRL (v.put 0 1 1)) (off : (s.side sd).flag Reg.TR_CTRL 0 = false) :
    s.does (.transitEnable sd level v) sd (fun x y =>
      y.flag Reg.TR_CTRL 0 = true ∧ y.tr = { x.tr with next := x.boundaryFrom x.now, closed := [] } ∧
      x.keptBut y [.tr] (fun k => k = Reg.TR_CTRL)) := by
  obtain ⟨r, spec, w1c⟩ : ∃ r, specOf Reg.TR_CTRL = some r ∧ r.w1c = 8 := ⟨_, specOf_TR_CTRL, rfl⟩
  have cleared := Side.clearBits_keptBut (s.side sd) Reg.TR_CTRL r (v.put 0 1 1)
  have stillOff := (clearBits_flag (s.side sd) Reg.TR_CTRL r (v.put 0 1 1) (i := 0) (by decide) (by rw [w1c]; decide)).trans off
  refine wreg_settles takes rfl spec (regWrite_TR_CTRL_on _ _ (flag_put_enable v) stillOff)
    (Side.keptBut_trans (Side.keptBut_mono cleared (by simp) (fun _ h => h)) (transitEnable_keptBut _)) (fun o g _ _ kept => ⟨?_, ?_, kept⟩)
  · rw [Side.swap_flag, transitEnable_flag]
  · rw [Side.swap_tr, ← boundaryFrom_congr (cleared.2.2.2 _ (by decide)) (cleared.2.2.2 _ (by decide))]
    rfl

/-- An accepted enabling of a Transit stream: it holds no sample and no posted values (R270, R288). -/
theorem transitStreamEnable_does (hi : i < 32) (takes : (s.side sd).takes level (Reg.TR_SCFG i) v) (hlen : i < (s.side sd).tr.streams.length)
    (off : (s.side sd).streamOn i = false) (on : v.flag 0 = true) (ok : (s.side sd).streamCfgOk i v = true) :
    s.does (.transitStreamEnable sd level i v) sd (fun x y =>
      y.rd (Reg.TR_SCFG i) = v ∧ x.keptBut y [.tr, .gt] (fun k => k = Reg.TR_SCFG i ∨ k = Reg.TR_SSTAT i) ∧ (y.stream i).kept = [] ∧
      (y.stream i).posted = [] ∧ ∀ j, j ≠ i → y.stream j = x.stream j) := by
  refine wreg_settles takes rfl (specOf_TR_SCFG hi) ((regWrite_TR_SCFG _ _ _ _ hi).trans (streamWrite_starts off on ok))
    (Side.keptBut_trans (Side.trCut_keptBut ..) (Side.keptBut_mono (streamStarted_keptBut ..) (by simp) (fun _ h => h)))
    (fun o g _ _ kept => ?_)
  have started := streamStarted_stream (x := (s.side sd).trCut) v hlen
  simp only [Side.swap_rd, Side.swap_stream, started]
  exact ⟨streamStarted_SCFG .., kept, rfl, rfl, fun j hj => streamStarted_stream_other _ v hj⟩

/-- An accepted enabling of Gait: it starts at the origin, at rest and unturned (R280). -/
theorem gaitEnable_does (takes : (s.side sd).takes level Reg.GT_CTRL (v.put 0 1 1)) (off : (s.side sd).flag Reg.GT_CTRL 0 = false)
    (on : (s.side sd).gaitEnable.flag Reg.GT_CTRL 0 = true) :
    s.does (.gaitEnable sd level v) sd (fun x y =>
      y.flag Reg.GT_CTRL 0 = true ∧ x.keptBut y [.gt] (fun k => k = Reg.GT_CTRL ∨ k = Reg.GT_SEQ) ∧ y.gt.p = [0, 0, 0] ∧ y.gt.v = [0, 0, 0] ∧
      y.gt.q = [0x3FF0_0000_0000_0000, 0, 0, 0]) := by
  obtain ⟨r, spec, w1c⟩ : ∃ r, specOf Reg.GT_CTRL = some r ∧ r.w1c = 4 := ⟨_, specOf_GT_CTRL, rfl⟩
  have cleared := Side.clearBits_keptBut (s.side sd) Reg.GT_CTRL r (v.put 0 1 1)
  have flag0 := fun k => clearBits_flag_other (s.side sd) Reg.GT_CTRL r (v.put 0 1 1) k (b := 0) (by decide) (by rw [w1c]; decide)
  have flag1 := fun k => clearBits_flag_other (s.side sd) Reg.GT_CTRL r (v.put 0 1 1) k (b := 1) (by decide) (by rw [w1c]; decide)
  obtain ⟨gait, k, ⟨hp, hv, hq⟩, started⟩ :=
    gaitEnable_accepted (gaitAccepts_of_agree cleared.2.2.2 flag0 flag1 (gaitAccepts_of_on off on))
  refine wreg_settles takes rfl spec (regWrite_GT_CTRL_on _ _ (flag_put_enable v) ((flag0 _).trans off))
    (Side.keptBut_trans (Side.keptBut_mono cleared (by simp) (fun _ h => .inl h)) (gaitEnable_keptBut _)) (fun o g _ _ kept => ?_)
  refine ⟨?_, kept, ?_⟩
  · rw [Side.swap_flag, started, Side.flag_put_reg _ _ _ _ _ (by decide), Side.gtSet_flag, Side.flag_put_same _ _ _ (by decide)]
    rfl
  · rw [Side.swap_gt, started]
    exact ⟨hp, hv, hq⟩

end

/-- Settles O13: each register by its row. -/
theorem sensorRegisters : Obligations.SensorRegisters := by
  intro s sd level i v x rel gap hi hlen
  exact ⟨ingressStreamEnable_does hi hlen, ingressStreamDisable_does hi hlen, landingReleaseWrite_moves hi, landingReleaseWrite_refused hi,
    transitEnable_does, transitStreamEnable_does hi, gaitEnable_does⟩

/-! ### A packet that becomes readable (O54) -/

/-- A whole packet of one word in the Race queue of slot 0, which Transit takes as a FRAME stream that is on; Gait may be enabled. -/
def packetWaits : Side :=
  { Side.reset 0 .cjm7480 with
    regs := [(Reg.TR_SCFG 0, 3), (Reg.GT_PER, 0x7A120_0000_0000), (Reg.GT_HIST, 0x3000_0000_0000)]
    ing := { (Side.reset 0 .cjm7480).ing with
      slots := setAt (Side.reset 0 .cjm7480).ing.slots 0 { Slot.reset with words := [raceWord 0 32 true false], pend := [⟨1, none⟩] } } }

/-- The same side 10 ns after Gait was enabled at Datum time 0: the lag of its step 0 has passed (R275). -/
def stepDue : Side := { packetWaits.gaitEnable with datum := { Datum.reset with ns := 10 } }

theorem stepDue_gaitOn : stepDue.flag Reg.GT_CTRL 0 = true := by decide +kernel

theorem stepDue_cuts : stepDue.gt.cuts = [] := by decide +kernel

/-- The packet's arrival decides the inputs of Gait's step 0. -/
theorem stepDue_packetReadable_cuts : (stepDue.packetReadable 0).gt.cuts.length = 1 := by decide +kernel

/-- Refutes O54: a packet of a FRAME stream that becomes readable makes its sample available, which first decides what the passing of time
has decided (R247, R275), and the inputs of a Gait step that is due are Gait's; the clause of RACE_PACKET_READABLE has nothing of Gait change. -/
theorem not_sensorIngress : ¬ Obligations.SensorIngress := by
  intro h
  obtain ⟨-, -, -, -, -, -, readable, -⟩ := h { State.reset with near := stepDue } .near 0 0 0 0 0 0 0 0 0 0 0 0 0 0 0 [] false false false false
    false 0 ⟨0, 0, [], false, false, false, none⟩ (raceWord 0 32 true false) ⟨1, none⟩ [] ⟨by decide +kernel, rfl⟩ (by decide) (by decide +kernel)
    (by decide +kernel) (by decide +kernel)
  obtain ⟨t, ht, -, -, -, -, -, -, -, -, -, kept, -⟩ := readable (by decide +kernel) (by decide +kernel)
  cases ht
  have same : (stepDue.packetReadable 0).gt = stepDue.gt := kept .gt (by simp)
  have cut := stepDue_packetReadable_cuts
  rw [same, stepDue_cuts] at cut
  exact absurd cut (by decide)
end Sys2Proof.Machine

/-!
Transit: what the writing of a record leaves as it was, and TRANSIT_CLOSE, whose clause lets the entries of a record name slots that no
stream has.
-/
namespace Sys2Proof.Machine

/-! ### Folds and cells -/

/-- A fold keeps what each of its steps keeps. -/
theorem Side.keptBut_foldl_mem {α : Type} (f : Side → α → Side) (ps : List Piece) (rs : Nat → Prop) (l : List α)
    (h : ∀ a ∈ l, ∀ s : Side, s.keptBut (f s a) ps rs) (s : Side) : s.keptBut (l.foldl f s) ps rs := by
  induction l generalizing s with
  | nil => exact Side.keptBut_refl ..
  | cons a l ih =>
    exact Side.keptBut_trans (h a (List.mem_cons_self ..) s) (ih (fun b hb => h b (List.mem_cons_of_mem _ hb)) _)

/-- A byte is read from the cells alone. -/
theorem Store.get_of_cells {m n : Store} (h : n.cells = m.cells) (a : Nat) : n.get a = m.get a := by
  unfold Store.get
  rw [h]

/-! ### A record goes to its outputs (R263) -/

/-- Whether output `c` takes a record of revision `rev`. -/
def Side.takesRecord (x : Side) (rev c : Nat) : Bool := x.flag (Reg.TR_OCFG c) 4 && (rev == 0 || x.flag (Reg.TR_OCFG c) 23)

/-- Where output `c` keeps the record of sequence number `seq`. -/
def Side.recordPlace (x : Side) (seq c : Nat) : Nat :=
  x.fld (Reg.TR_OBASE c) 12 52 * 4096 + seq % (16 * 2 ^ x.fld (Reg.TR_OCFG c) 0 4) * 4096

/-- The outputs that take a record of revision `rev`, in their order. -/
def Side.recordOutputs (x : Side) (rev : Nat) : List Nat := (upTo 4).filter (x.takesRecord rev)

/-- A record stored for each of these outputs. -/
def Side.recordStored (x : Side) (seq : Nat) (bs : List Byte) (outs : List Nat) : Side :=
  outs.foldl (fun s c => s.ringEntry 0x06 (s.recordPlace seq c) bs) x

/-- The tethers of these outputs signalled, where they have one. -/
def Side.outputsSignalled (x : Side) (outs : List Nat) : Side :=
  outs.foldl (fun s c => if s.flag (Reg.TR_OCFG c) 22 then s.signal (s.fld (Reg.TR_OCFG c) 9 13) 1 else s) x

theorem trWrite_eq (x : Side) (f : TrFrame) (decided : Nat) :
    x.trWrite f decided =
      ((x.recordStored (x.fld Reg.TR_SEQ 0 32) (x.trRecord f decided (x.fld Reg.TR_SEQ 0 32))
        (x.recordOutputs f.rev)).outputsSignalled (x.recordOutputs f.rev)).put
          Reg.TR_SEQ 0 32 (x.fld Reg.TR_SEQ 0 32 + 1) := rfl

/-- The registers of Transit and of the tethers. -/
def transitReg (k : Nat) : Prop := k / 0x1000000 = 0x06 ∨ k / 0x1000000 = 0x11

theorem ringEntry_recordPlace (x : Side) (o a : Nat) (bs : List Byte) (seq c : Nat) :
    (x.ringEntry o a bs).recordPlace seq c = x.recordPlace seq c := by
  have rd := fun k => (Side.ringEntry_keptBut x o a bs (fun _ => False)).2.2.2 k (fun h => h)
  unfold Side.recordPlace Side.fld
  rw [rd, rd]

theorem recordStored_keptBut (x : Side) (seq : Nat) (bs : List Byte) (outs : List Nat) (rs : Nat → Prop) :
    x.keptBut (x.recordStored seq bs outs) [.cells, .poison] rs :=
  Side.keptBut_foldl _ _ _ (fun s _ => Side.ringEntry_keptBut s ..) outs x

theorem recordStored_other {x : Side} {seq m : Nat} {bs : List Byte} {outs : List Nat}
    (h : ∀ c ∈ outs, m < x.recordPlace seq c % 2 ^ 46 ∨ x.recordPlace seq c % 2 ^ 46 + bs.length ≤ m) :
    (x.recordStored seq bs outs).mem.get m = x.mem.get m := by
  induction outs generalizing x with
  | nil => rfl
  | cons c outs ih =>
    have rest : ∀ d ∈ outs, m < (x.ringEntry 0x06 (x.recordPlace seq c) bs).recordPlace seq d % 2 ^ 46 ∨
        (x.ringEntry 0x06 (x.recordPlace seq c) bs).recordPlace seq d % 2 ^ 46 + bs.length ≤ m := fun d hd => by
      rw [ringEntry_recordPlace]
      exact h d (List.mem_cons_of_mem _ hd)
    exact (ih rest).trans (Side.ringEntry_other _ _ _ _ _ (h c (List.mem_cons_self ..)))

theorem outputsSignalled_keptBut (x : Side) (outs : List Nat) : x.keptBut (x.outputsSignalled outs) [] (fun k => k / 0x1000000 = 0x11) := by
  refine Side.keptBut_foldl _ _ _ (fun s c => ?_) outs x
  split
  · refine Side.keptBut_mono (Side.signal_keptBut ..) (fun _ h => h) (fun k h => ?_)
    have tether : s.fld (Reg.TR_OCFG c) 9 13 < 8192 := bits_lt _ _ 13
    subst h
    unfold Reg.TE_VALUE
    omega
  · exact Side.keptBut_refl ..

theorem trWrite_keptBut (x : Side) (f : TrFrame) (decided : Nat) : x.keptBut (x.trWrite f decided) [.cells, .poison] transitReg := by
  rw [trWrite_eq]
  exact ((recordStored_keptBut ..).of (outputsSignalled_keptBut ..) (by simp) (fun _ h => .inr h)).thenPut (.inl rfl)

/-- A record stands written (R263): TR_SEQ has gone on by 1, no byte outside its places has changed, and where one output takes it, whose
place may be written, it stands there whole. -/
def Side.recordStands (x y : Side) (f : TrFrame) (decided : Nat) : Prop :=
  let seq := x.fld Reg.TR_SEQ 0 32
  let bs := x.trRecord f decided seq
  let place (c : Nat) : Nat := x.recordPlace seq c % 2 ^ 46
  y.fld Reg.TR_SEQ 0 32 = (seq + 1) % 2 ^ 32 ∧
  (∀ m, (∀ c ∈ x.recordOutputs f.rev, m < place c ∨ place c + bs.length ≤ m) → y.mem.get m = x.mem.get m) ∧
  ∀ c, x.recordOutputs f.rev = [c] → x.recordPlace seq c < 2 ^ 47 → x.part.populated (place c) bs.length = true →
    x.writeGuarded 0x06 (place c) bs.length = false → y.bytes (place c) bs.length = bs

/-- A record written stands written, where no stop of a command poisons what the side writes (R134). -/
theorem trWrite_recordStands {x : Side} (f : TrFrame) (decided : Nat) (calm : x.acts.spoil = false) :
    x.recordStands (x.trWrite f decided) f decided := by
  rw [trWrite_eq]
  have cells : ∀ z : Side, ∀ k, ((z.outputsSignalled (x.recordOutputs f.rev)).put Reg.TR_SEQ 0 32 k).mem.cells = z.mem.cells := fun z k =>
    (outputsSignalled_keptBut z (x.recordOutputs f.rev)).2.2.1 .cells (by simp)
  refine ⟨Side.fld_put_same _ _ _ (by decide), fun m out => ?_, fun c only near pop free => ?_⟩
  · exact (Store.get_of_cells (cells _ _) m).trans (recordStored_other out)
  · refine (Side.bytes_of_cells (cells _ _) _ _).trans ?_
    rw [only]
    show (x.ringEntry 0x06 _ _).bytes _ _ = _
    unfold Side.ringEntry
    dsimp only
    rw [if_pos (by simpa [calm] using ⟨⟨near, pop⟩, free⟩)]
    exact Side.bytes_store ..

/-! ### TRANSIT_CLOSE (R245 to R249, R263) -/

/-- The side with everything decided that the passing of time decides, and these records still due. -/
def Side.dueLeft (x : Side) (fs : List TrFrame) : Side := x.trCut.trSet (fun t => { t with due := fs })

/-- The entries of a record without a sample, each counted for its slot. -/
def Side.missesCounted (x : Side) (es : List TrEntry) : Side :=
  es.foldl (fun s e => if e.method = 0 then s.count (Reg.TR_SCNT e.slot) 16 16 else s) x

theorem transitClose_eq {x : Side} {f : TrFrame} {fs : List TrFrame} (due : x.trCut.tr.due = f :: fs) :
    x.transitClose = ((x.dueLeft fs).trWrite f f.close).missesCounted f.entries := by
  unfold Side.transitClose
  dsimp only
  rw [due]
  rfl

theorem dueLeft_keptBut (x : Side) (fs : List TrFrame) (rs : Nat → Prop) : x.keptBut (x.dueLeft fs) [.tr, .gt] rs :=
  (Side.trCut_keptBut x rs).then_trSet _ (by simp)

section
variable (x : Side) (fs : List TrFrame)

@[simp] theorem dueLeft_part : (x.dueLeft fs).part = x.part := rfl
@[simp] theorem dueLeft_mem : (x.dueLeft fs).mem = x.mem := rfl
@[simp] theorem dueLeft_fld (k lo n : Nat) : (x.dueLeft fs).fld k lo n = x.fld k lo n := rfl
@[simp] theorem dueLeft_writeGuarded (o a n : Nat) : (x.dueLeft fs).writeGuarded o a n = x.writeGuarded o a n := rfl
@[simp] theorem dueLeft_trRecord (f : TrFrame) (decided seq : Nat) : (x.dueLeft fs).trRecord f decided seq = x.trRecord f decided seq := rfl
@[simp] theorem dueLeft_recordPlace (seq c : Nat) : (x.dueLeft fs).recordPlace seq c = x.recordPlace seq c := rfl
@[simp] theorem dueLeft_recordOutputs (rev : Nat) : (x.dueLeft fs).recordOutputs rev = x.recordOutputs rev := rfl

theorem dueLeft_recordStands (y : Side) (f : TrFrame) (decided : Nat) :
    (x.dueLeft fs).recordStands y f decided ↔ x.recordStands y f decided := by
  simp [Side.recordStands]

end

theorem missesCounted_keptBut (x : Side) (es : List TrEntry) : x.keptBut (x.missesCounted es) [] (fun k => ∃ e ∈ es, k = Reg.TR_SCNT e.slot) := by
  refine Side.keptBut_foldl_mem _ _ _ es (fun e he s => ?_) x
  split
  · exact Side.keptBut_mono (Side.count_keptBut ..) (fun _ h => h) (fun _ h => ⟨e, he, h⟩)
  · exact Side.keptBut_refl ..

/-- The slots of a record's entries are streams of Transit (R244). -/
def TrFrame.ofStreams (f : TrFrame) : Prop := ∀ e ∈ f.entries, e.slot < 32

theorem recordStreams_lt {x : Side} {dec i : Nat} (h : i ∈ x.recordStreams dec) : i < 32 := List.mem_range.mp (List.mem_filter.mp h).1

/-- Every record that the passing of time decides is of Transit's streams. -/
theorem trCut_due_ofStreams {x : Side} (h : ∀ f ∈ x.tr.due, f.ofStreams) : ∀ f ∈ x.trCut.tr.due, f.ofStreams := by
  intro f hf
  rcases List.mem_append.mp hf with old | new
  · exact h f old
  · obtain ⟨n, -, rfl⟩ := List.mem_map.mp new
    intro e he
    obtain ⟨i, hi, rfl⟩ := List.mem_map.mp he
    exact recordStreams_lt hi

/-- The misses of a record of Transit's streams are counted in registers of Transit, TR_SEQ not among them. -/
theorem TrFrame.ofStreams.counter {f : TrFrame} (streams : f.ofStreams) {k : Nat} (h : ∃ e ∈ f.entries, k = Reg.TR_SCNT e.slot) :
    transitReg k ∧ k ≠ Reg.TR_SEQ := by
  obtain ⟨e, he, rfl⟩ := h
  have := streams e he
  unfold transitReg Reg.TR_SCNT Reg.TR_SEQ
  omega

theorem transitClose_keptBut {x : Side} {f : TrFrame} {fs : List TrFrame} (due : x.trCut.tr.due = f :: fs) (streams : f.ofStreams) :
    x.keptBut x.transitClose [.tr, .gt, .cells, .poison] transitReg := by
  rw [transitClose_eq due]
  exact ((Side.keptBut_mono (dueLeft_keptBut x fs _) (by simp) (fun _ h => h)).of (trWrite_keptBut ..) (by simp) (fun _ h => h)).of
    (missesCounted_keptBut ..) (by simp) (fun _ h => (streams.counter h).1)

theorem transitClose_tr {x : Side} {f : TrFrame} {fs : List TrFrame} (due : x.trCut.tr.due = f :: fs) :
    x.transitClose.tr = { x.trCut.tr with due := fs } := by
  rw [transitClose_eq due]
  exact ((missesCounted_keptBut ..).2.2.1 .tr (by simp)).trans ((trWrite_keptBut ..).2.2.1 .tr (by simp))

theorem transitClose_gt {x : Side} {f : TrFrame} {fs : List TrFrame} (due : x.trCut.tr.due = f :: fs) : x.transitClose.gt = x.trCut.gt := by
  rw [transitClose_eq due]
  exact ((missesCounted_keptBut ..).2.2.1 .gt (by simp)).trans ((trWrite_keptBut ..).2.2.1 .gt (by simp))

theorem transitClose_recordStands {x : Side} {f : TrFrame} {fs : List TrFrame} (due : x.trCut.tr.due = f :: fs) (streams : f.ofStreams)
    (calm : x.acts.spoil = false) : x.recordStands x.transitClose f f.close := by
  have stands := (dueLeft_recordStands ..).mp (trWrite_recordStands (x := x.dueLeft fs) f f.close calm)
  rw [transitClose_eq due]
  generalize (x.dueLeft fs).trWrite f f.close = y at *
  obtain ⟨seq, others, whole⟩ := stands
  have counted := missesCounted_keptBut y f.entries
  have cells := counted.2.2.1 .cells (by simp)
  refine ⟨?_, fun m out => (Store.get_of_cells cells m).trans (others m out),
    fun c only near pop free => (Side.bytes_of_cells cells _ _).trans (whole c only near pop free)⟩
  rw [← seq]
  unfold Side.fld
  rw [counted.2.2.2 _ (fun h => (streams.counter h).2 rfl)]

/-- TRANSIT_CLOSE of a record of Transit's streams: it is written, and nothing but the unit's registers, the tethers and the places of its
outputs changes. -/
theorem transitClose_does {s : State} {sd : SideId} {f : TrFrame} {fs : List TrFrame} (rest : (s.side sd).atRest)
    (due : (s.side sd).trCut.tr.due = f :: fs) (streams : f.ofStreams) :
    s.does (.transitClose sd []) sd (fun x y =>
      x.recordStands y f f.close ∧ y.tr = { x.trCut.tr with due := fs } ∧ y.gt = x.trCut.gt ∧
      x.keptBut y [.tr, .gt, .cells, .poison] transitReg) := by
  obtain ⟨live, hub⟩ := rest
  have stands := transitClose_recordStands due streams (by rw [hub]; rfl)
  exact onSide_settles (f := Side.meeting [] Side.transitClose) rfl live rfl (transitClose_keptBut due streams)
    (fun o g _ _ kept => ⟨⟨stands.1, stands.2.1, stands.2.2⟩, transitClose_tr due, transitClose_gt due, kept⟩)

/-! ### A record of a slot that no stream has (O51) -/

/-- A record that is due with an entry, without a sample, of slot 0x3FFC0. -/
def strayRecord : TrFrame := ⟨0, 0, 0, [⟨0x3FFC0, 0, 0, 0, 0, 0, false, false, true, 0, 0, none, []⟩], []⟩

/-- A side at reset with that record due. -/
def strayDue : Side := { Side.reset 0 .cjm7480 with tr := { (Side.reset 0 .cjm7480).tr with due := [strayRecord] } }

theorem strayDue_trCut_due : strayDue.trCut.tr.due = [strayRecord] := by decide +kernel

/-- The count of that slot's misses would stand in a register of Gait. -/
theorem TR_SCNT_stray : Reg.TR_SCNT 0x3FFC0 = Reg.GT_VEH := rfl

theorem strayDue_GT_VEH : strayDue.fld Reg.GT_VEH 16 16 = 0 := by decide +kernel

/-- Writing the record counts the miss in it. -/
theorem strayDue_transitClose_GT_VEH : strayDue.transitClose.fld Reg.GT_VEH 16 16 = 1 := by
  have written : ((strayDue.dueLeft []).trWrite strayRecord 0).fld Reg.GT_VEH 16 16 = strayDue.fld Reg.GT_VEH 16 16 :=
    congrArg (Word.fld · 16 16) ((trWrite_keptBut (strayDue.dueLeft []) strayRecord 0).2.2.2 Reg.GT_VEH (by unfold transitReg; decide))
  rw [transitClose_eq strayDue_trCut_due]
  show (Side.count _ (Reg.TR_SCNT 0x3FFC0) 16 16).fld Reg.GT_VEH 16 16 = 1
  rw [TR_SCNT_stray, Side.fld_count_same _ _ _ (by decide)]
  show min (2 ^ 16 - 1) (((strayDue.dueLeft []).trWrite strayRecord 0).fld Reg.GT_VEH 16 16 + 1) = 1
  rw [written, strayDue_GT_VEH]
  rfl

/-- Refutes O51: TRANSIT_CLOSE counts a miss in TR_SCNT of its entry's slot, and the clause does not ask that the record due names streams
of Transit only (the clause of TRANSIT_REVISION asks it of its slot), so the count may fall on a register of another unit. No record that
Transit decides is such (`trCut_due_ofStreams`), and of the others the clause holds (`transitClose_does`). -/
theorem not_transitAndGait : ¬ Obligations.TransitAndGait := by
  intro h
  obtain ⟨-, -, -, -, -, close, -⟩ := h { State.reset with near := strayDue } .near ⟨[], false, false⟩
    ⟨0, 0, 0, 0, 0, [], 0, false, none, false, 0, [], none, 0, none, 0⟩ ⟨0, 0, 0, 0, 0, 0, false, false, []⟩ ⟨strayRecord, 0, 0⟩ [] 0 strayRecord []
    ⟨none, [], none⟩ [] ⟨false, false, [], 0⟩
  obtain ⟨t, ht, -, -, -, -, -, kept⟩ := close ⟨by decide +kernel, rfl⟩ strayDue_trCut_due
  cases ht
  have same : strayDue.transitClose.rd Reg.GT_VEH = strayDue.rd Reg.GT_VEH := kept.2.2.2 Reg.GT_VEH (by decide)
  have counted := strayDue_transitClose_GT_VEH
  unfold Side.fld at counted
  rw [same] at counted
  exact absurd (counted.symm.trans strayDue_GT_VEH) (by decide)
end Sys2Proof.Machine

/-!
Relays: what the end of a command leaves in the counters of its unit, and the two commands of a Relay as byte writes that end.
-/
namespace Sys2Proof.Machine

/-! ### What a Relay notes of a command that ends (R430) -/

/-- A Relay has noted a command: its name stands in RL_LAST, and the Relay's saturating count of completions is one up (R430). -/
def Side.relayNoted (x y : Side) (o : Op) (inst : Nat) : Prop :=
  x.part.hasInst 0x0D inst = true →
    y.rd (Reg.RL_LAST inst) = BitVec.ofNat 64 (o.chain * 2 ^ 32 + o.queue) ∧
    y.fld (Reg.RL_CNT inst) 48 16 = min 65535 (x.fld (Reg.RL_CNT inst) 48 16 + 1)

theorem Side.keptBut.rd {x y : Side} {ps : List Piece} {rs : Nat → Prop} {k : Nat} (h : x.keptBut y ps rs) (hk : ¬ rs k) : y.rd k = x.rd k := by
  obtain ⟨-, -, -, registers⟩ := h
  exact registers k hk

theorem Side.runs_isSome {x : Side} {unit inst opcode : Nat} {env : Env} {o : Op} (h : x.runs unit inst opcode env o) :
    o.run.isSome = true := by
  obtain ⟨-, -, found, -⟩ := h
  have started := List.find?_some found
  cases run : o.run with
  | none => simp [run] at started
  | some r => rfl

theorem Side.runs_acts {x : Side} {unit inst opcode : Nat} {env : Env} {o : Op} (h : x.runs unit inst opcode env o) : x.acts = Agent.hub := by
  obtain ⟨-, -, -, -, -, -, acts⟩ := h
  exact acts

theorem Side.runs_monitor {x : Side} {unit inst opcode : Nat} {env : Env} {o : Op} (h : x.runs unit inst opcode env o) :
    monitorOf o.unit o.inst < 256 := by
  obtain ⟨-, ofUnit, -, onInst⟩ := Side.runs_spec h
  obtain ⟨-, -, -, -, monitored, -⟩ := h
  rwa [ofUnit, onInst]

theorem RL_CNT_ne_LAST (i : Nat) : Reg.RL_CNT i ≠ Reg.RL_LAST i := by unfold Reg.RL_CNT Reg.RL_LAST; omega

theorem tally_relayNoted (x : Side) {o : Op} (st : Nat) (relay : o.unit = 0x0D) (started : o.run.isSome = true) :
    x.relayNoted (x.tally o st) o o.inst := by
  intro present
  unfold Side.tally
  dsimp only
  rw [started, if_pos rfl, relay, if_neg (by simp [present]), if_pos rfl]
  refine ⟨Side.rd_wr_same .., ?_⟩
  have counted : (x.count (Reg.RL_CNT o.inst) 48 16).fld (Reg.RL_CNT o.inst) 48 16 = min 65535 (x.fld (Reg.RL_CNT o.inst) 48 16 + 1) :=
    Side.fld_count_same _ _ _ (by decide)
  rw [Side.fld, Side.rd_wr_other _ _ (RL_CNT_ne_LAST _)]
  split
  · exact (Side.fld_put_field _ _ _ (by decide) (by decide)).trans counted
  · exact counted

/-- Record, monitors and tether of a command's end are apart from the counters that its unit keeps. -/
theorem endCommand_rd_of_tallies (x : Side) {o : Op} (st result : Nat) {k : Nat} (hm : monitorOf o.unit o.inst < 256) (counter : x.tallies o k) :
    (x.endCommand o st result).rd k = x.rd k := by
  have unit := Side.tallies_unit counter
  have tether : k ≠ Reg.TE_VALUE (o.f 6 0 13) := by unfold Reg.TE_VALUE; omega
  have status : ¬(k / 0x1000000 = 0x13 ∨ k = Reg.CQ_STAT o.queue) := by unfold Reg.CQ_STAT; omega
  have recorded : ((x.leave o).record o.queue o.chain o.slots st o.unit false 0 result).rd k = x.rd k :=
    ((Side.record_keptBut _ _ _ _ _ _ _ _ _ (fun _ => False)).rd id).trans ((Side.leave_keptBut x o (fun _ => False)).rd id)
  have counted := ((Side.afterRecord_keptBut _ o st hm).rd status).trans recorded
  rw [Side.endCommand_eq]
  dsimp only
  split
  · exact ((Side.signal_keptBut ..).rd tether).trans counted
  · exact counted

/-- A command of a queue is counted by its unit, then it ends (R147, R430). -/
theorem complete_of_queue (x : Side) {o : Op} (st result : Nat) (queued : o.parent = none) :
    x.complete o st result = (x.tally o (x.verifiedStatus o.unit o.inst st)).endCommand o (x.verifiedStatus o.unit o.inst st) result := by
  unfold Side.complete
  rw [queued]

/-- What the unit of a command counted stands after its end. -/
theorem complete_rd_of_tallies {x : Side} {o : Op} (st result : Nat) {k : Nat} (queued : o.parent = none) (hm : monitorOf o.unit o.inst < 256)
    (counter : x.tallies o k) : (x.complete o st result).rd k = (x.tally o (x.verifiedStatus o.unit o.inst st)).rd k := by
  rw [complete_of_queue x st result queued]
  refine endCommand_rd_of_tallies _ _ _ hm ?_
  obtain ⟨-, samePart, -⟩ := Side.tally_keptBut x o (x.verifiedStatus o.unit o.inst st)
  unfold Side.tallies at counter ⊢
  rwa [samePart]

theorem relay_tallies {x : Side} {o : Op} (relay : o.unit = 0x0D) (started : o.run.isSome = true) (present : x.part.hasInst 0x0D o.inst = true) :
    x.tallies o (Reg.RL_CNT o.inst) ∧ x.tallies o (Reg.RL_LAST o.inst) := by
  unfold Side.tallies
  rw [started, if_pos rfl, relay]
  exact ⟨⟨present, .inl ⟨rfl, .inl rfl⟩⟩, ⟨present, .inl ⟨rfl, .inr rfl⟩⟩⟩

/-- A command that ends on a Relay is noted there, whatever its effect was, if that left the Relay's counters alone. -/
theorem complete_relayNoted {x y : Side} {inst opcode : Nat} {env : Env} {o : Op} (runs : x.runs 0x0D inst opcode env o) (st result : Nat)
    (kept : x.keptBut y [.cells, .poison, .pm, .outriders] (fun _ => False)) (ops : List Op) (grooms : List Groom) :
    x.relayNoted ((y.complete o st result).swap ops grooms) o inst := by
  intro present
  obtain ⟨-, relay, -, rfl⟩ := Side.runs_spec runs
  obtain ⟨-, -, -, queued, -⟩ := id runs
  obtain ⟨-, samePart, -⟩ := id kept
  rw [← samePart] at present
  have started := Side.runs_isSome runs
  obtain ⟨cnt, last⟩ := relay_tallies relay started present
  obtain ⟨lastNoted, counted⟩ := tally_relayNoted y (y.verifiedStatus o.unit o.inst st) relay started present
  rw [Side.swap_rd, Side.swap_fld, complete_rd_of_tallies st result queued (Side.runs_monitor runs) last]
  refine ⟨lastNoted, ?_⟩
  unfold Side.fld at counted ⊢
  rw [complete_rd_of_tallies st result queued (Side.runs_monitor runs) cnt, counted, kept.rd id]

/-! ### RL_COPY and RL_FILL as byte writes and an end (R423 to R428) -/

/-- The descriptor whose address stands at byte `n` of a command. -/
def Op.rlDesc (o : Op) (n : Nat) : Desc := descOf (o.block (o.f n 0 64))

/-- What RL_COPY gives the destination element of an index, in a memory as the command sees it: the bits and the poisoned bits of the source
element whose index PERM takes there (R425). -/
def Op.rlCopied (o : Op) (m : View) (ix : List Nat) : Nat × Nat :=
  (o.rlDesc 32).elemMask m ((upTo (o.rlDesc 32).rank).map (fun k => ix.getD ((permOf o.cmd (o.rlDesc 40).rank).findIdx (fun v => v == k)) 0))

/-- The status of RL_COPY that writes: POISON_CONSUMED where it copied a poisoned element (R425, R428). -/
def Op.rlCopyStatus (o : Op) (m : View) : Nat :=
  if (indices (o.rlDesc 40).size).any (fun ix => (o.rlCopied m ix).2 != 0) then stPoison else stDone

/-- The byte writes of RL_COPY and of RL_FILL. -/
def Op.rlCopyWrites (o : Op) (m : View) : List (Nat × Byte × Bool) := localWrites ((o.rlDesc 40).writesMask (o.rlCopied m))
@[inherit_doc Op.rlCopyWrites] def Op.rlFillWrites (o : Op) : List (Nat × Byte × Bool) :=
  localWrites ((o.rlDesc 32).writes (fun _ => (o.f 40 0 64, false)))

section
variable {o : Op} {z : Side}

theorem rlEnd_of_none (x : Side) (o : Op) (st : Nat) : x.rlEnd o false st 0 = x.complete o st (o.inst * 2 ^ 40) := by
  simp [Side.rlEnd, Side.finish]

theorem rlCopy_empty (empty : (o.rlDesc 32).count = 0) : rlCopy o z = z.complete o stDone (o.inst * 2 ^ 40) := by
  unfold rlCopy
  rw [← rlEnd_of_none]
  exact if_pos empty

theorem rlCopy_hidden (filled : (o.rlDesc 32).count ≠ 0) (hidden : z.readGuarded 0x0D (o.rlDesc 32).place.1 (o.rlDesc 32).place.2 = true) :
    rlCopy o z = z.complete o stAddress (o.inst * 2 ^ 40) := by
  unfold rlCopy
  rw [← rlEnd_of_none]
  exact (if_neg filled).trans (if_pos hidden)

theorem rlCopy_writes (filled : (o.rlDesc 32).count ≠ 0) (seen : z.readGuarded 0x0D (o.rlDesc 32).place.1 (o.rlDesc 32).place.2 = false)
    (free : (z.scatter 0x0D (o.rlCopyWrites z.view)).2 = false) :
    rlCopy o z = (z.scatter 0x0D (o.rlCopyWrites z.view)).1.complete o (o.rlCopyStatus z.view)
      ((o.rlDesc 40).count % 2 ^ 32 + o.inst * 2 ^ 40) := by
  have written : rlCopy o z = (z.scatter 0x0D (o.rlCopyWrites z.view)).1.rlEnd o (z.scatter 0x0D (o.rlCopyWrites z.view)).2
      (o.rlCopyStatus z.view) ((z.scatter 0x0D (o.rlCopyWrites z.view)).1.written 0x0D (o.rlDesc 40) (z.scatter 0x0D (o.rlCopyWrites z.view)).2) := by
    unfold rlCopy
    exact (if_neg filled).trans (if_neg (Bool.eq_false_iff.mp seen))
  rw [written, free]
  rfl

theorem rlFill_empty (empty : (o.rlDesc 32).count = 0) : rlFill o z = z.complete o stDone (o.inst * 2 ^ 40) := by
  unfold rlFill
  rw [← rlEnd_of_none]
  exact if_pos empty

theorem rlFill_writes (filled : (o.rlDesc 32).count ≠ 0) (free : (z.scatter 0x0D o.rlFillWrites).2 = false) :
    rlFill o z = (z.scatter 0x0D o.rlFillWrites).1.complete o stDone ((o.rlDesc 32).count % 2 ^ 32 + o.inst * 2 ^ 40) := by
  have written : rlFill o z = (z.scatter 0x0D o.rlFillWrites).1.rlEnd o (z.scatter 0x0D o.rlFillWrites).2 stDone
      ((z.scatter 0x0D o.rlFillWrites).1.written 0x0D (o.rlDesc 32) (z.scatter 0x0D o.rlFillWrites).2) := by
    unfold rlFill
    exact if_neg filled
  rw [written, free]
  rfl

end

/-! ### The two commands (O40) -/

section
variable {c : Instr} {s : State} {sd : SideId} {inst opcode : Nat} {env : Env} {o : Op} {f : Op → Side → Side} {st result : Nat}
  (meaning : exec c s = onSide sd (fun x => x.onRunning 0x0D inst opcode env f) s) (runs : (s.side sd).runs 0x0D inst opcode env o)
include meaning runs

/-- A Relay's command with no effect of its own ends and is noted. -/
theorem relay_ends (effect : f o ((s.side sd).asRun o) = ((s.side sd).asRun o).complete o st result) :
    s.does c sd (fun x y => x.ends y o st result ∧ x.relayNoted y o inst) := by
  have calm : ((s.side sd).asRun o).acts.spoil = false := congrArg Agent.spoil (Side.runs_acts runs)
  exact does_ends (pieces := []) (Q := fun y => (s.side sd).relayNoted y o inst) meaning runs effect
    (Side.asRun_keptBut ..) (fun _ _ => List.not_mem_nil) id (fun _ => id) calm (fun _ _ => rfl) (complete_relayNoted runs st result (Side.asRun_keptBut ..))

/-- A Relay's command that makes its byte writes and meets no protected extent ends and is noted. -/
theorem relay_endsWriting {ws : List (Nat × Byte × Bool)} (free : ((s.side sd).scatter 0x0D ws).2 = false)
    (effect : f o ((s.side sd).asRun o) = (((s.side sd).asRun o).scatter 0x0D ws).1.complete o st result) :
    s.does c sd (fun x y => x.endsWriting y o st result ws ∧ x.relayNoted y o inst) := by
  have kept : (s.side sd).keptBut (((s.side sd).asRun o).scatter 0x0D ws).1 [.cells, .poison, .pm, .outriders] (fun _ => False) :=
    (Side.asRun_keptBut ..).then_scatter 0x0D ws (by simp) (by simp)
  have calm : (((s.side sd).asRun o).scatter 0x0D ws).1.acts.spoil = false := congrArg Agent.spoil (Side.runs_acts runs)
  have stored (a : Nat) : (((s.side sd).asRun o).scatter 0x0D ws).1.mem.get a = ((s.side sd).mem.scatter ws).get a := by
    rw [Side.scatter_free (x := (s.side sd).asRun o) free]
    exact Side.get_carried ..
  exact does_endsWriting (pieces := []) (Q := fun y => (s.side sd).relayNoted y o inst) meaning runs effect kept
    (fun _ _ => List.not_mem_nil) id (fun _ => id) calm stored (complete_relayNoted runs st result kept)

end

/-- Settles O40: each clause is an equation of RL_COPY or RL_FILL (`rlCopy_writes` and its neighbours) under the end of a Relay's command
(`relay_ends`, `relay_endsWriting`). -/
theorem relayCommands : Obligations.RelayCommands := by
  unfold Obligations.RelayCommands
  intro s sd inst env o
  have onInst {opcode : Nat} (runs : (s.side sd).runs 0x0D inst opcode env o) : o.inst = inst := (Side.runs_spec runs).2.2.2
  refine ⟨fun runs empty => ?_, fun runs filled hidden => ?_, fun runs filled seen free => ?_, fun runs empty => ?_, fun runs filled free => ?_⟩
  · exact relay_ends rfl runs (onInst runs ▸ rlCopy_empty empty)
  · exact relay_ends rfl runs (onInst runs ▸ rlCopy_hidden filled hidden)
  · exact relay_endsWriting rfl runs free (onInst runs ▸ rlCopy_writes filled seen free)
  · exact relay_ends rfl runs (onInst runs ▸ rlFill_empty empty)
  · exact relay_endsWriting rfl runs free (onInst runs ▸ rlFill_writes filled free)

end Sys2Proof.Machine
